-- ==== Sys2Proof/Word.lean ====
section
/-! DEFINITION. The machine's words (R5, R6, R8) and their plainest arithmetic. -/

namespace Sys2Proof

/-- A byte of memory. -/
abbrev Byte := BitVec 8
/-- A 16-bit instruction word (R67). -/
abbrev Word16 := BitVec 16
/-- A 64-bit register (Table 01-1). -/
abbrev Word := BitVec 64
/-- A predicate or tile register, 128 bits (Table 01-1). -/
abbrev Word128 := BitVec 128
/-- A vector register, 1,024 bits (Table 01-1). -/
abbrev VWord := BitVec 1024
/-- An index of a register of a class V, M, P, T or A: a direct code or the 7-bit index of an RGX prefix word (R69, R73). -/
abbrev Idx := Fin 128

/-- A natural number as a 64-bit register. -/
abbrev w64 (n : Nat) : Word := BitVec.ofNat 64 n

/-- One or zero as a register (compares, R104). -/
def bit64 (b : Bool) : Word := if b then 1 else 0

/-- `name[hi:lo]` of a natural number (R5). -/
abbrev bitsOf (v hi lo : Nat) : Nat := v / 2 ^ lo % 2 ^ (hi + 1 - lo)

/-- Bit `i` of a natural number (R5). -/
abbrev bitOf (v i : Nat) : Bool := v / 2 ^ i % 2 == 1

end Sys2Proof
end

