-- ==== Sys2Proof/Syntax.lean ====
section
/-! DEFINITION. The instructions (spec/opcode_table.json): one constructor per row, the operands of each in the
classes that Table 03-5 gives them. The 263 instructions a context issues come first, the 97 events that other
units of the part make come last. -/

namespace Sys2Proof

/-- A G-class operand (R69, R73): an operand-file entry, the last-result latch, or `g i` of the window. -/
inductive GReg
  | o (i : Fin 8)
  | lat
  | g (i : Fin 128)
  deriving DecidableEq, Repr

/-- The six scopes by increasing reach (Table 14-1). -/
inductive Scope
  | th | st | ac | ha | pk | sy
  deriving DecidableEq, Repr

/-- The order of an ORD prefix word (R76): none, acquire, release, acquire-release. -/
inductive MemOrder
  | none | acq | rel | ar
  deriving DecidableEq, Repr

/-- The cache policy of an ORD prefix word (R76, Table 13-3). -/
inductive Policy
  | page | nal | keep | wt
  deriving DecidableEq, Repr

/-- The qualifications of an ORD prefix word (R76). -/
structure OrdQ where
  scope : Scope
  order : MemOrder
  eng : Bool
  policy : Policy
  deriving DecidableEq, Repr

/-- The element formats (Table 02-1), in the order of their codes. -/
inductive Fmt
  | i8 | i16 | i32 | i64 | n8 | n16 | n32 | n64 | fp32 | bf16 | fp16 | e4m3 | e5m2 | ds8 | fa56 | m64
  deriving DecidableEq, Repr

/-- The predicate of a PRD prefix word (R78). -/
structure Prd where
  p : Fin 8
  inv : Bool
  deriving DecidableEq, Repr

/-- The control and status registers (Tables 01-4 and 01-5). -/
inductive Csr
  | flags | ten | rmode | vt | vl | fmtw | sclp | mmode | mrho | mseed | ttag | framep | loc | tbm | cyc | rank | gsz | time
  | status | epc | ecause | einfo | eva | tvec | gwin | vwin | rcbp | ptbr | liveb | keyt | sscratch | frec
  | ctxn | bgate | haltg | tracec
  deriving DecidableEq, Repr

/-- The mode of MCOL (R74, Table 07-3). -/
inductive ColMode
  | mean | upper | lower | sample
  deriving DecidableEq, Repr

/-- `OP X, Y` or `OP X, Y, Z` (R70). -/
structure GBin where
  x : GReg
  y : GReg
  z : Option GReg
  deriving DecidableEq, Repr
/-- `OP X, Y` with one source (R70). -/
structure GUn where
  x : GReg
  y : GReg
  deriving DecidableEq, Repr
/-- `OP X`. -/
structure GOne where
  x : GReg
  deriving DecidableEq, Repr
/-- `OP X, Y, Z` with THR required. -/
structure GTri where
  x : GReg
  y : GReg
  z : GReg
  deriving DecidableEq, Repr
/-- `OP X, imm` with the base bits Y:FN (R102, R107). -/
structure GImm where
  x : GReg
  imm : Word
  deriving DecidableEq, Repr
/-- A shift by an immediate amount (R81, R103). -/
structure GShift where
  x : GReg
  amount : Fin 64
  deriving DecidableEq, Repr
/-- A jump by a word offset (R108). -/
structure JOff where
  off : Word
  deriving DecidableEq, Repr
/-- A memory operand `[Y+imm]` or `[Y+Z*s+imm]` with a G register X (R83). -/
structure GMem where
  x : GReg
  y : GReg
  z : Option GReg
  imm : Word
  ord : Option OrdQ
  deriving DecidableEq, Repr
/-- A memory operand without a register X. -/
structure PMem where
  y : GReg
  z : Option GReg
  imm : Word
  ord : Option OrdQ
  deriving DecidableEq, Repr
/-- A memory operand `[Y+imm]` of FLUSH, INVAL and PREF (R326). -/
structure YMem where
  y : GReg
  imm : Word
  ord : Option OrdQ
  deriving DecidableEq, Repr
/-- LEA (R106). -/
structure GLea where
  x : GReg
  y : GReg
  z : Option GReg
  imm : Word
  deriving DecidableEq, Repr
/-- The number of SYSC and BKPT (R128). -/
structure Num8 where
  n : BitVec 8
  deriving DecidableEq, Repr
/-- RDC and WRC (R129). -/
structure GCsr where
  x : GReg
  csr : Csr
  deriving DecidableEq, Repr
/-- A vector instruction with one or two vector sources (R136). -/
structure VBin where
  x : Idx
  y : Idx
  z : Option Idx
  fmt : Option Fmt
  prd : Option Prd
  deriving DecidableEq, Repr
/-- A unary vector instruction. -/
structure VUn where
  x : Idx
  y : Idx
  fmt : Option Fmt
  prd : Option Prd
  deriving DecidableEq, Repr
/-- A vector compare into predicate X (R137). -/
structure VTri where
  x : Idx
  y : Idx
  z : Idx
  fmt : Option Fmt
  prd : Option Prd
  deriving DecidableEq, Repr
/-- PAND, POR, PXOR (R138). -/
structure PBin where
  x : Idx
  y : Idx
  z : Option Idx
  deriving DecidableEq, Repr
/-- PNOT (R138). -/
structure PUn where
  x : Idx
  y : Idx
  deriving DecidableEq, Repr
/-- PSET (R138). -/
structure PSet where
  x : Idx
  y : GReg
  deriving DecidableEq, Repr
/-- PCNT and PFIRST (R138). -/
structure PCount where
  x : GReg
  y : Idx
  deriving DecidableEq, Repr
/-- A vector memory access with a G-class Z (Table 05-5). -/
structure VMem where
  x : Idx
  y : GReg
  z : Option GReg
  imm : Word
  ord : Option OrdQ
  fmt : Option Fmt
  prd : Option Prd
  deriving DecidableEq, Repr
/-- VGATH and VSCAT, with a V-class Z (Table 05-5). -/
structure VGather where
  x : Idx
  y : GReg
  z : Option Idx
  imm : Word
  ord : Option OrdQ
  fmt : Option Fmt
  prd : Option Prd
  deriving DecidableEq, Repr
/-- A reduction (R143). -/
structure VRed where
  x : GReg
  y : Idx
  z : Option GReg
  fmt : Option Fmt
  prd : Option Prd
  deriving DecidableEq, Repr
/-- VEXT (R144). -/
structure VExt where
  x : GReg
  y : Idx
  z : Option GReg
  fmt : Option Fmt
  deriving DecidableEq, Repr
/-- VBCST (R144). -/
structure VBcst where
  x : Idx
  y : GReg
  z : Option GReg
  fmt : Option Fmt
  prd : Option Prd
  deriving DecidableEq, Repr
/-- The source and distance of VSLIDE (R144): `VSLIDE X, d` reads X itself, `VSLIDE X, src, d` names the source. -/
inductive SlideSrc
  | own (d : GReg)
  | other (src : Idx) (d : GReg)
  deriving DecidableEq, Repr
/-- VSLIDE (R144). -/
structure VSlide where
  x : Idx
  src : SlideSrc
  fmt : Option Fmt
  prd : Option Prd
  deriving DecidableEq, Repr
/-- VSETT (R150). -/
structure VSet where
  x : GReg
  y : GReg
  fmt : Option Fmt
  deriving DecidableEq, Repr
/-- VLEN (R151). -/
structure VLen where
  x : GReg
  fmt : Option Fmt
  deriving DecidableEq, Repr
/-- VIOTA (R151). -/
structure VIota where
  x : Idx
  fmt : Option Fmt
  deriving DecidableEq, Repr
/-- One index. -/
structure IOne where
  x : Idx
  deriving DecidableEq, Repr
/-- Two indices. -/
structure II where
  x : Idx
  y : Idx
  deriving DecidableEq, Repr
/-- Three indices: a bank and two tiles (R164). -/
structure ITri where
  x : Idx
  y : Idx
  z : Idx
  deriving DecidableEq, Repr
/-- Two indices and a G register Z (R162, R163, R178). -/
structure IIG where
  x : Idx
  y : Idx
  z : GReg
  deriving DecidableEq, Repr
/-- An index and a G register. -/
structure IG where
  x : Idx
  y : GReg
  deriving DecidableEq, Repr
/-- A tile register with one or two G registers (R172). -/
structure IGG where
  x : Idx
  y : GReg
  z : Option GReg
  deriving DecidableEq, Repr
/-- TADV (R172). -/
structure TAdv where
  x : Idx
  y : GReg
  z : Option GReg
  imm : Word
  deriving DecidableEq, Repr
/-- AZERO: the bank and its new mode (Table 06-5). -/
structure AZero where
  x : Idx
  q56 : Bool
  deriving DecidableEq, Repr
/-- ALOAD and ASTORE (R161). -/
structure AMem where
  x : Idx
  y : GReg
  z : Option GReg
  imm : Word
  ord : Option OrdQ
  deriving DecidableEq, Repr
/-- MCHOL (R175). -/
structure MChol where
  x : Idx
  z : Option GReg
  deriving DecidableEq, Repr
/-- A moment instruction with one or two sources (R186). -/
structure MBin where
  x : Idx
  y : Idx
  z : Option Idx
  prd : Option Prd
  deriving DecidableEq, Repr
/-- MSCL and MAFF (R190). -/
structure MTri where
  x : Idx
  y : Idx
  z : Idx
  prd : Option Prd
  deriving DecidableEq, Repr
/-- A unary moment instruction. -/
structure MUn where
  x : Idx
  y : Idx
  prd : Option Prd
  deriving DecidableEq, Repr
/-- MCOL: without THR the mode is MEAN and there is no Z (R74, R196). -/
structure MCol where
  x : Idx
  y : Idx
  z : Option (ColMode × GReg)
  prd : Option Prd
  deriving DecidableEq, Repr
/-- MSUM (R198). -/
structure MSum where
  x : GReg
  y : Idx
  z : Option GReg
  prd : Option Prd
  deriving DecidableEq, Repr
/-- MCHK (R199). -/
structure MChk where
  x : GReg
  y : Idx
  prd : Option Prd
  deriving DecidableEq, Repr
/-- The entry point of a spawned child (R232): a word offset from the instruction, or a register. -/
inductive Target
  | label (off : Word)
  | reg (z : GReg)
  deriving DecidableEq, Repr
/-- SPAWN (R232). -/
structure Spawn where
  x : GReg
  target : Target
  deriving DecidableEq, Repr
/-- SPAWNA and SPAWNF (R232). -/
structure Spawn2 where
  x : GReg
  y : GReg
  target : Target
  deriving DecidableEq, Repr
/-- An instruction with only an ORD prefix word. -/
structure UOrd where
  ord : Option OrdQ
  deriving DecidableEq, Repr
/-- GBARA and GBARW (R259). -/
structure GOrd where
  x : GReg
  ord : Option OrdQ
  deriving DecidableEq, Repr
/-- DONATE (R428). -/
structure GBinO where
  x : GReg
  y : GReg
  z : Option GReg
  ord : Option OrdQ
  deriving DecidableEq, Repr
/-- An atomic (R317). -/
structure Atom where
  x : GReg
  y : GReg
  z : GReg
  imm : Word
  ord : Option OrdQ
  fmt : Option Fmt
  deriving DecidableEq, Repr

/-- An image that Veram checks at power-on (R443): which image of the chain (0 the ROM, 1 Veram, 2 Porter, 3 Crier, 4 hall microcode, 5
configuration), its digest, its security version, and whether its signature verifies under the key of that step. -/
structure BootImage where
  step : Nat
  digest : BitVec 512
  svn : Nat
  signed : Bool
  deriving DecidableEq, Repr

/-- A donation request (R429): the counter's physical address, the donor's tag and package, the frame's bytes. -/
structure DonationRequest where
  counter : Nat
  tag : Nat
  pkg : Nat
  bytes : List Byte
  deriving DecidableEq, Repr

/-- One entry of a slice descriptor (R435). -/
structure SliceEntry where
  pkg : Nat
  outgoing : Nat
  incoming : Nat
  deriving DecidableEq, Repr

/-- A slice descriptor (R435). -/
structure SliceDescriptor where
  slid : Nat
  tstart : Nat
  grace : Nat
  entries : List SliceEntry
  deriving DecidableEq, Repr

/-- An access of the host, or of a peer, to a package's DRAM through BAR2 (R439): a read of so many bytes, a write, or an AtomicOp of so
many bytes with its operands. -/
inductive HdmOp
  | read (n : Nat)
  | write (bytes : List (BitVec 8))
  | fetchAdd (n x : Nat)
  | swap (n x : Nat)
  | cas (n compare x : Nat)
  deriving DecidableEq, Repr

/-- Where a line is cached (R277). -/
inductive CacheLevel
  | l1 | l2
  deriving DecidableEq, Repr

/-- The instructions and events of spec/opcode_table.json. -/
inductive Instr
  /-- R99: Writes the 64-bit wrapping sum a + b to X and to lat. -/
  | add (a : GBin)
  /-- R99: Writes the 64-bit wrapping difference a − b to X. -/
  | sub (a : GBin)
  /-- R99: Writes the bitwise AND of a and b to X. -/
  | and (a : GBin)
  /-- R99: Writes the bitwise OR of a and b to X. -/
  | or (a : GBin)
  /-- R99: Writes the bitwise XOR of a and b to X. -/
  | xor (a : GBin)
  /-- R99: Shifts a left by b[5:0], shifting zeros in. -/
  | shl (a : GBin)
  /-- R99: Shifts a right logically by b[5:0]. -/
  | shr (a : GBin)
  /-- R99: Shifts a right arithmetically by b[5:0]. -/
  | sra (a : GBin)
  /-- R99: Writes the low 64 bits of a·b; the result is ready after 8 cycles. -/
  | mul (a : GBin)
  /-- R99: Writes the high 64 bits of the signed 128-bit product. -/
  | mulh (a : GBin)
  /-- R99: Writes the high 64 bits of the unsigned 128-bit product. -/
  | mulhn (a : GBin)
  /-- R99: Writes the signed minimum of a and b. -/
  | min (a : GBin)
  /-- R99: Writes the signed maximum of a and b. -/
  | max (a : GBin)
  /-- R99: Writes the unsigned minimum of a and b. -/
  | minn (a : GBin)
  /-- R99: Writes the unsigned maximum of a and b. -/
  | maxn (a : GBin)
  /-- R99: Writes the bitwise complement of Y to X (unary). -/
  | not (a : GUn)
  /-- R99: Copies Y to X. -/
  | mov (a : GUn)
  /-- R99: Sign-extends a[31:0] into X. -/
  | sxw (a : GUn)
  /-- R99: Zero-extends a[31:0] into X. -/
  | zxw (a : GUn)
  /-- R99: Sign-extends a[7:0] into X. -/
  | sxb (a : GUn)
  /-- R99: Sign-extends a[15:0] into X. -/
  | sxh (a : GUn)
  /-- R99: Counts the leading zero bits of a. -/
  | clz (a : GUn)
  /-- R99: Counts the one bits of a. -/
  | popc (a : GUn)
  /-- R99: Reverses the eight bytes of a. -/
  | rev (a : GUn)
  /-- R102: Writes the sign-extended immediate to X. -/
  | movi (a : GImm)
  /-- R102: Adds the sign-extended immediate to X, wrapping. -/
  | addi (a : GImm)
  /-- R103: Shifts X left by an immediate amount. -/
  | shli (a : GShift)
  /-- R103: Shifts X right logically by an immediate amount. -/
  | shri (a : GShift)
  /-- R103: Shifts X right arithmetically by an immediate amount. -/
  | srai (a : GShift)
  /-- R103: Rotates X right by an immediate amount. -/
  | rori (a : GShift)
  /-- R104: Writes 1 to X if a = b, and 0 otherwise. -/
  | ceq (a : GBin)
  /-- R104: Writes 1 to X if a ≠ b. -/
  | cne (a : GBin)
  /-- R104: Writes 1 to X if a < b, signed. -/
  | clt (a : GBin)
  /-- R104: Writes 1 to X if a ≥ b, signed. -/
  | cge (a : GBin)
  /-- R104: Writes 1 to X if a < b, unsigned. -/
  | cltn (a : GBin)
  /-- R104: Writes 1 to X if a ≥ b, unsigned. -/
  | cgen (a : GBin)
  /-- R104: Writes 1 to X if (a AND b) ≠ 0. -/
  | tst (a : GBin)
  /-- R107: Branches to A + 2·off when X ≠ 0. -/
  | bnz (a : GImm)
  /-- R107: Branches to A + 2·off when X = 0. -/
  | bz (a : GImm)
  /-- R109: Jumps to the address held in X. -/
  | jr (a : GOne)
  /-- R109: Writes the link to g1 and jumps to the old value of X. -/
  | callr (a : GOne)
  /-- R109: Jumps to g1. -/
  | ret
  /-- R108: Jumps to A + 2·off. -/
  | j (a : JOff)
  /-- R108: Writes g1 ← A + L and jumps to A + 2·off. -/
  | call (a : JOff)
  /-- R112: Loads a byte, zero-extended. -/
  | ldb (a : GMem)
  /-- R112: Loads a half-word, zero-extended. -/
  | ldh (a : GMem)
  /-- R112: Loads a word, zero-extended. -/
  | ldw (a : GMem)
  /-- R112: Loads a double-word. -/
  | ldd (a : GMem)
  /-- R112: Loads a byte, sign-extended. -/
  | ldbs (a : GMem)
  /-- R112: Loads a half-word, sign-extended. -/
  | ldhs (a : GMem)
  /-- R112: Loads a word, sign-extended. -/
  | ldws (a : GMem)
  /-- R115: Loads 16 bytes into a register pair. -/
  | ldq (a : GMem)
  /-- R114: Stores the low byte of X. -/
  | stb (a : GMem)
  /-- R114: Stores the low half-word of X. -/
  | sth (a : GMem)
  /-- R114: Stores the low word of X. -/
  | stw (a : GMem)
  /-- R114: Stores the 8 bytes of X. -/
  | std (a : GMem)
  /-- R115: Stores a register pair as 16 bytes. -/
  | stq (a : GMem)
  /-- R105: Writes X ← (X ≠ 0 ? Y : Z). -/
  | selnz (a : GTri)
  /-- R105: Writes X ← (X = 0 ? Y : Z). -/
  | selz (a : GTri)
  /-- R106: Adds index·1 and the immediate to the base. -/
  | lea1 (a : GLea)
  /-- R106: Adds index·2 and the immediate to the base. -/
  | lea2 (a : GLea)
  /-- R106: Adds index·4 and the immediate to the base. -/
  | lea4 (a : GLea)
  /-- R106: Adds index·8 and the immediate to the base. -/
  | lea8 (a : GLea)
  /-- R106: Adds index·16 and the immediate to the base. -/
  | lea16 (a : GLea)
  /-- R124: Changes nothing but the PC. -/
  | nop
  /-- R124: Is a blocking point when a pre-emption request is pending; otherwise acts as NOP. -/
  | yield
  /-- R127: Traps ARITH when FLAGS AND TEN is non-zero. -/
  | trapf
  /-- R125: Writes FLAGS to X. -/
  | flagr (a : GOne)
  /-- R125: Clears the FLAGS bits that are set in X[10:0]. -/
  | flagc (a : GOne)
  /-- R128: Traps with cause SYSC, carrying the number n. -/
  | sysc (a : Num8)
  /-- R128: Traps with cause BKPT, or halts the halt group when BKRT is set. -/
  | bkpt (a : Num8)
  /-- R129: Reads a CSR into X. -/
  | rdc (a : GCsr)
  /-- R129: Writes X to a CSR, checking window legality and waking gated banks. -/
  | wrc (a : GCsr)
  /-- R131: Appends a marker record to the state-change log when markers are enabled. -/
  | tmark (a : GOne)
  /-- R100: Signed division of a by b. -/
  | div (a : GBin)
  /-- R100: Unsigned division of a by b. -/
  | divn (a : GBin)
  /-- R100: Signed remainder of a divided by b. -/
  | rem (a : GBin)
  /-- R100: Unsigned remainder of a divided by b. -/
  | remn (a : GBin)
  /-- R101: Extracts a bit field, sign-extended. -/
  | bfx (a : GBin)
  /-- R101: Extracts a bit field, zero-extended. -/
  | bfxn (a : GBin)
  /-- R101: Inserts a bit field into X. -/
  | bfi (a : GBin)
  /-- R101: Rotates a left by b[5:0]. -/
  | rol (a : GBin)
  /-- R101: Rotates a right by b[5:0]. -/
  | ror (a : GBin)
  /-- R101: Counts the trailing zero bits of a. -/
  | ctz (a : GUn)
  /-- R119: fp32 addition, rounded once. -/
  | fadd (a : GBin)
  /-- R119: fp32 subtraction, rounded once. -/
  | fsub (a : GBin)
  /-- R119: fp32 multiplication, rounded once. -/
  | fmul (a : GBin)
  /-- R119: fp32 division, rounded once. -/
  | fdiv (a : GBin)
  /-- R120: fp32 minimum, ordering −0 below +0. -/
  | fmin (a : GBin)
  /-- R120: fp32 maximum, ordering −0 below +0. -/
  | fmax (a : GBin)
  /-- R119: fp32 square root, rounded once. -/
  | fsqrt (a : GUn)
  /-- R120: Clears the sign bit of an fp32 value. -/
  | fabs (a : GUn)
  /-- R121: Writes X ← RoundFP32(Y·Z + X). -/
  | fma (a : GTri)
  /-- R121: Writes X ← RoundFP32(Y·Z − X). -/
  | fms (a : GTri)
  /-- R121: Writes X ← RoundFP32(X − Y·Z). -/
  | fnma (a : GTri)
  /-- R120: Inverts the sign bit of an fp32 value. -/
  | fneg (a : GUn)
  /-- R122: Writes 1 to X if the fp32 values are equal. -/
  | feq (a : GBin)
  /-- R122: Writes 1 to X if a < b (fp32). -/
  | flt (a : GBin)
  /-- R122: Writes 1 to X if a ≤ b (fp32). -/
  | fle (a : GBin)
  /-- R122: Writes 1 to X if either operand is NaN. -/
  | funo (a : GBin)
  /-- R123: Converts i64 to fp32. -/
  | cvtif (a : GUn)
  /-- R123: Converts fp32 to i64. -/
  | cvtfi (a : GUn)
  /-- R123: Converts fp32 to bf16. -/
  | cvtfb (a : GUn)
  /-- R123: Converts bf16 to fp32, exactly. -/
  | cvtbf (a : GUn)
  /-- R123: Converts fp32 to fp16. -/
  | cvtfh (a : GUn)
  /-- R123: Converts fp16 to fp32, exactly. -/
  | cvthf (a : GUn)
  /-- R136: Element-wise addition. -/
  | vadd (a : VBin)
  /-- R136: Element-wise subtraction. -/
  | vsub (a : VBin)
  /-- R136: Element-wise multiplication. -/
  | vmul (a : VBin)
  /-- R136: Element-wise minimum. -/
  | vmin (a : VBin)
  /-- R136: Element-wise maximum. -/
  | vmax (a : VBin)
  /-- R136: Element-wise bitwise AND. -/
  | vand (a : VBin)
  /-- R136: Element-wise bitwise OR. -/
  | vor (a : VBin)
  /-- R136: Element-wise bitwise XOR. -/
  | vxor (a : VBin)
  /-- R136: Element-wise a·b + c, with c = X. -/
  | vfma (a : VBin)
  /-- R136: Element-wise a·b − c, with c = X. -/
  | vfms (a : VBin)
  /-- R136: Element-wise absolute value. -/
  | vabs (a : VUn)
  /-- R136: Element-wise negation. -/
  | vneg (a : VUn)
  /-- R136: Element-wise left shift. -/
  | vshl (a : VBin)
  /-- R136: Element-wise logical right shift. -/
  | vshr (a : VBin)
  /-- R136: Element-wise arithmetic right shift. -/
  | vsra (a : VBin)
  /-- R136: Element-wise division. -/
  | vdiv (a : VBin)
  /-- R137: Writes predicate bits for Y = Z element-wise. -/
  | vceq (a : VTri)
  /-- R137: Writes predicate bits for Y ≠ Z element-wise. -/
  | vcne (a : VTri)
  /-- R137: Writes predicate bits for Y < Z element-wise. -/
  | vclt (a : VTri)
  /-- R137: Writes predicate bits for Y ≤ Z element-wise. -/
  | vcle (a : VTri)
  /-- R137: Writes predicate bits for Y > Z element-wise. -/
  | vcgt (a : VTri)
  /-- R137: Writes predicate bits for Y ≥ Z element-wise. -/
  | vcge (a : VTri)
  /-- R138: AND of two predicates over 128 bits. -/
  | pand (a : PBin)
  /-- R138: OR of two predicates over 128 bits. -/
  | por (a : PBin)
  /-- R138: XOR of two predicates over 128 bits. -/
  | pxor (a : PBin)
  /-- R138: Complements a predicate. -/
  | pnot (a : PUn)
  /-- R138: Sets the lane bits of the elements below Y. -/
  | pset (a : PSet)
  /-- R138: Counts the active elements of a predicate. -/
  | pcnt (a : PCount)
  /-- R138: Writes the index of the first active element, or E. -/
  | pfirst (a : PCount)
  /-- R139: Loads consecutive vector elements from memory. -/
  | vld (a : VMem)
  /-- R139: Stores consecutive vector elements to memory. -/
  | vst (a : VMem)
  /-- R139: Loads vector elements with a stride. -/
  | vlds (a : VMem)
  /-- R139: Stores vector elements with a stride. -/
  | vsts (a : VMem)
  /-- R139: Gathers vector elements by index. -/
  | vgath (a : VGather)
  /-- R139: Scatters vector elements by index. -/
  | vscat (a : VGather)
  /-- R139: Loads one element and broadcasts it. -/
  | vldb (a : VMem)
  /-- R143: Reduces a vector by sum through a fixed tree and adds a scalar. -/
  | vrsum (a : VRed)
  /-- R143: Reduces a vector by maximum. -/
  | vrmax (a : VRed)
  /-- R143: Reduces a vector by minimum. -/
  | vrmin (a : VRed)
  /-- R144: Extracts element n into a G register. -/
  | vext (a : VExt)
  /-- R144: Broadcasts a scalar, or a ramp with THR, into the active elements. -/
  | vbcst (a : VBcst)
  /-- R144: Selects elements under the predicate. -/
  | vsel (a : VBin)
  /-- R144: Permutes elements by index. -/
  | vperm (a : VBin)
  /-- R144: Slides elements by a signed distance. -/
  | vslide (a : VSlide)
  /-- R145: Converts elements between formats. -/
  | vcvt (a : VUn)
  /-- R147: Packs fp32 elements into an MX block of e4m3 or e5m2 with a scale. -/
  | vpack (a : VUn)
  /-- R148: Unpacks a scaled block into fp32 elements. -/
  | vunpk (a : VUn)
  /-- R147: Quantises fp32 elements to a ds8 block with a scale. -/
  | vqds (a : VUn)
  /-- R149: Computes the correctly rounded exponential of each element. -/
  | vexp (a : VUn)
  /-- R149: Computes the correctly rounded reciprocal of each element. -/
  | vrcp (a : VUn)
  /-- R149: Computes the correctly rounded reciprocal square root of each element. -/
  | vrsq (a : VUn)
  /-- R149: Computes the correctly rounded error function of each element. -/
  | verf (a : VUn)
  /-- R150: Sets VT and VL and returns the new VL. -/
  | vsett (a : VSet)
  /-- R151: Writes the element count E to X. -/
  | vlen (a : VLen)
  /-- R151: Writes each element's index i into element i. -/
  | viota (a : VIota)
  /-- R164: Checks and queues a low-class accumulating matrix multiply. -/
  | mma (a : ITri)
  /-- R164: Checks and queues a low-class zeroing matrix multiply. -/
  | mmaz (a : ITri)
  /-- R164: Checks and queues a high-class accumulating matrix multiply. -/
  | mmah (a : ITri)
  /-- R164: Checks and queues a high-class zeroing matrix multiply. -/
  | mmazh (a : ITri)
  /-- R158: Acquires an accumulator pair, or returns −1 or −2. -/
  | aacq (a : GOne)
  /-- R159: Waits for the pair's commands, then frees and clears the pair. -/
  | arel
  /-- R160: Zeroes a bank and sets its mode. -/
  | azero (a : AZero)
  /-- R161: Starts the load of a whole bank from memory. -/
  | aload (a : AMem)
  /-- R161: Stores a whole bank to memory, reading the bank at issue. -/
  | astore (a : AMem)
  /-- R162: Converts a row segment of a bank into a vector. -/
  | arowv (a : IIG)
  /-- R163: Writes a vector into a row segment of a bank. -/
  | avrow (a : IIG)
  /-- R160: Sets a bank's store-out scale. -/
  | ascale (a : IG)
  /-- R172: Writes a tile descriptor. -/
  | tset (a : IGG)
  /-- R172: Reads a tile descriptor into G registers. -/
  | tget (a : IGG)
  /-- R172: Advances a descriptor's BASE. -/
  | tadv (a : TAdv)
  /-- R172: Sets a descriptor's row count and, with THR, its column count. -/
  | tshape (a : IGG)
  /-- R173: Holds the context until at most X of its commands are outstanding. -/
  | mwait (a : GOne)
  /-- R174: Returns the matrix unit's status word. -/
  | mstat (a : GOne)
  /-- R176: Queues an in-place Cholesky factorisation. -/
  | mchol (a : MChol)
  /-- R177: Queues a lower-triangular solve. -/
  | mtrsl (a : II)
  /-- R177: Queues an upper-triangular solve. -/
  | mtrsu (a : II)
  /-- R178: Queues an iterative refinement of a solution. -/
  | mrfn (a : IIG)
  /-- R188: Adds moments under the covariance mode. -/
  | madd (a : MBin)
  /-- R188: Subtracts moments under the negated mode. -/
  | msub (a : MBin)
  /-- R189: Multiplies moments. -/
  | mmul (a : MBin)
  /-- R190: Scales moments by a plain vector. -/
  | mscl (a : MTri)
  /-- R190: Applies an affine map to moments. -/
  | maff (a : MTri)
  /-- R190: Negates the mean. -/
  | mneg (a : MUn)
  /-- R192: Computes the moments of a Gaussian ReLU. -/
  | mrelu (a : MUn)
  /-- R193: Computes the moments of exp(X). -/
  | mexp (a : MUn)
  /-- R194: Computes the probit sigmoid moments. -/
  | msig (a : MUn)
  /-- R191: Computes the moments of X². -/
  | msqr (a : MUn)
  /-- R195: Forms moments from plain vectors. -/
  | mmk (a : MBin)
  /-- R195: Extracts the means. -/
  | mmean (a : MUn)
  /-- R195: Extracts the checked variances. -/
  | mvar (a : MUn)
  /-- R196: Collapses moments to the mean, a bound or a sample. -/
  | mcol (a : MCol)
  /-- R198: Reduces moments to one m64 value. -/
  | msum (a : MSum)
  /-- R199: Returns masks of bad means and variances. -/
  | mchk (a : MChk)
  /-- R201: Checks and queues a moment matrix multiply into both banks. -/
  | mmam (a : II)
  /-- R203: Stores the held pair as m64 words. -/
  | mastm (a : PMem)
  /-- R203: Loads the held pair from m64 words. -/
  | maldm (a : PMem)
  /-- R232: Pushes the continuation, spilling or degrading if the deque is full, and enters the child. -/
  | spawn (a : Spawn)
  /-- R232: Spawns with an affinity. -/
  | spawna (a : Spawn2)
  /-- R232: Spawns with a given FMTW and SCLP. -/
  | spawnf (a : Spawn2)
  /-- R237: Completes the join or saves the live registers and suspends. -/
  | sync
  /-- R238: Reads the deque depth and the counter. -/
  | syncq (a : GOne)
  /-- R237: Acts as SYNC, then reads and clears the casualty count. -/
  | syncc (a : GOne)
  /-- R228: Allocates a frame and a counter. -/
  | falloc (a : GUn)
  /-- R228: Frees an unspawned frame. -/
  | ffree (a : GOne)
  /-- R227: Zeroes a join counter. -/
  | jinit (a : PMem)
  /-- R229: Adds n to a join counter. -/
  | jadd (a : GMem)
  /-- R230: Writes back tagged L1 lines in a range. -/
  | pub (a : GUn)
  /-- R231: Names a tile in a frame slot. -/
  | tname (a : IG)
  /-- R231: Lowers the named-tile count NT. -/
  | tdrop (a : GOne)
  /-- R239: Ends the task: trap test, implicit SYNC, then a local pop or the slow path. -/
  | tend
  /-- R240: Ends the task as a casualty. -/
  | tabort (a : GOne)
  /-- R262: Admits a child region and replies with the result. -/
  | rlaunch (a : GBin)
  /-- R263: Waits for a region to end and returns its STATE. -/
  | rwait (a : GOne)
  /-- R263: Reads a region's STATE. -/
  | rquery (a : GUn)
  /-- R259: Arrives at the gang barrier and waits for the phase change. -/
  | gbar (a : UOrd)
  /-- R259: Arrives at the gang barrier and returns the phase before arrival. -/
  | gbara (a : GOrd)
  /-- R259: Waits until the gang phase differs from X[0]. -/
  | gbarw (a : GOrd)
  /-- R259: Writes RANK to X. -/
  | grank (a : GOne)
  /-- R259: Writes GSZ to X. -/
  | gsize (a : GOne)
  /-- R428: Copies a frame into a Barrow and replies with the result. -/
  | donate (a : GBinO)
  /-- R318: Atomic add. -/
  | aadd (a : Atom)
  /-- R318: Atomic AND. -/
  | aand (a : Atom)
  /-- R318: Atomic OR. -/
  | aor (a : Atom)
  /-- R318: Atomic XOR. -/
  | axor (a : Atom)
  /-- R318: Atomic minimum. -/
  | amin (a : Atom)
  /-- R318: Atomic maximum. -/
  | amax (a : Atom)
  /-- R318: Atomic swap. -/
  | aswp (a : Atom)
  /-- R319: Atomic compare-and-swap using a register pair. -/
  | acas (a : Atom)
  /-- R319: 128-bit atomic compare-and-swap using a register quad. -/
  | acas2 (a : Atom)
  /-- R318: Atomic increment bounded below x. -/
  | abinc (a : Atom)
  /-- R318: Atomic decrement bounded above x. -/
  | abdec (a : Atom)
  /-- R320: Atomic fp32 add in RNE. -/
  | afadd (a : Atom)
  /-- R320: Atomic m64 moment add. -/
  | amadd (a : Atom)
  /-- R324: Performs the release and acquire steps at its scope. -/
  | fence (a : UOrd)
  /-- R324: Performs a fence that also orders engine traffic. -/
  | fencee (a : UOrd)
  /-- R326: Writes back the dirty bytes of a line. -/
  | flush (a : YMem)
  /-- R326: Drops the clean copies of a line. -/
  | inval (a : YMem)
  /-- R326: Prefetches a line. -/
  | pref (a : YMem)
  /-- R327: Clears TBM. -/
  | tbmc
  /-- R343: Initialises a barrier object. -/
  | binit (a : GMem)
  /-- R343: Arrives on a barrier object with bytes and arrivals. -/
  | barr (a : GMem)
  /-- R344: Waits for a barrier object's phase to change. -/
  | bwait (a : GMem)
  /-- R343: Raises the expectations of the current phase. -/
  | bexp (a : GMem)
  /-- R343: Reads bits [63:0] of a barrier object. -/
  | btest (a : GMem)
  /-- R338: Offers a template to a Carter channel and returns an id or an error. -/
  | copy (a : GMem)
  /-- R337: Writes a checked copy template slot. -/
  | ctset (a : GMem)
  /-- R341: Reads a channel status word, optionally clearing DERR and LAST. -/
  | cwm (a : GMem)
  /-- R341: Waits until the channel watermark reaches an id. -/
  | cwait (a : GMem)
  /-- R350: Pins a SPACE 3 tile's lines in L2. -/
  | tfpin (a : IOne)
  /-- R350: Releases a tile pin. -/
  | tfrel (a : IOne)
  /-- R383: Returns from a trap to EPC. -/
  | eret
  /-- R384: Stops the halt group, or only the issuing context. -/
  | halt
  /-- R215: Sets the stall's register partition and zeroes the files. -/
  | repart (a : GOne)
  /-- R385: Saves the whole context state to a frame. -/
  | ctxsave (a : GUn)
  /-- R385: Restores the context state from a frame. -/
  | ctxload (a : GOne)
  /-- R386: Kills the task on a given context. -/
  | purge (a : GUn)
  /-- R387: Removes TLB entries at a chosen reach. -/
  | tlbinv (a : GUn)
  /-- R261: Waiters of a completed gang phase become ready and complete their acquire. -/
  | gangBarrierWake (pkg rcb : Nat)
  /-- R344: A phase completion wakes registered waiters, which complete if the phase differs. -/
  | barrierWake (object : Nat)
  /-- R33: Resets every register file, CSR and context to its reset state. -/
  | packageReset (pkg : Nat)
  /-- R443: Veram ROM verifies and measures the boot chain. -/
  | powerOnBoot (pkg : Nat) (images : List BootImage)
  /-- R212: The reply to an outstanding load or request is written and the context leaves WMEM. -/
  | loadReply (ctx : Nat)
  /-- R309: An issued store is performed, oldest first, and its forwarding entry retires. -/
  | storePerform (ctx : Nat)
  /-- R296: A hall walker translates a missed address and fills the TLB or faults. -/
  | pageWalk (hall : Nat)
  /-- R281: A home slice recalls an Owned line from an arcade, writing back dirty bytes. -/
  | homeRecall (hall key line : Nat)
  /-- R288: A cache line is evicted, with dirty bytes written back. -/
  | lineEviction (level : CacheLevel) (unit key line : Nat)
  /-- R303: A message-network message is accepted at its destination interface, or held for a halted stall. -/
  | networkMessageDelivery (arcade : Nat)
  /-- R168: The matrix unit chooses a class and starts the oldest eligible command. -/
  | matrixStart (stall : Nat)
  /-- R169: A command writes its cells and ORs its flags into FLAGS. -/
  | matrixComplete (stall : Nat)
  /-- R161: An ALOAD or MALDM transfer completes and its bank is no longer busy. -/
  | bankTransferComplete (stall : Nat)
  /-- R159: A released pair finishes clearing and may be granted again. -/
  | pairClearDone (stall pair : Nat)
  /-- R241: A Haggler hunt starts a round after its back-off, stepping the LFSR and probing victims. -/
  | huntRound (ctx : Nat)
  /-- R243: A TAKE at a victim deque port removes, declines or finds empty. -/
  | take (victim thief : Nat)
  /-- R243: The thief receives the entry, acquires, and resumes the continuation. -/
  | stealReply (thief : Nat)
  /-- R244: Channel 15 finishes moving named tiles and the thief resumes. -/
  | tileMoveComplete (thief : Nat)
  /-- R236: A thief re-offers an unrunnable entry to a full overflow queue every 64 cycles. -/
  | thiefReoffer (thief : Nat)
  /-- R236: A counter bank re-offers a held continuation every 64 cycles. -/
  | counterReoffer (arcade : Nat)
  /-- R225: Counter operation: COUNT + 1. -/
  | jinc (counter : Nat)
  /-- R225: Counter operation: COUNT − 1, returning RESUME, RELEASE, NONE or UNDER. -/
  | jdec (counter : Nat)
  /-- R225: Counter operation: COUNT − 1 and CAS + 1. -/
  | jdead (counter : Nat)
  /-- R225: Counter operation: COUNT + n. -/
  | jaddn (counter : Nat) (n : Int)
  /-- R225: Counter operation: sets S unless COUNT is 0. -/
  | jsus (counter : Nat)
  /-- R225: Counter operation: COUNT + 1 and S ← 1 for a degraded SPAWN. -/
  | jcall (counter : Nat)
  /-- R225: Counter operation: reads and clears CAS. -/
  | jcas (counter : Nat)
  /-- R225: Counter operation: marks the frame dead. -/
  | jmark (counter : Nat)
  /-- R237: A context holding RESUME restores the save area and re-executes the SYNC. -/
  | resumeContinuation (ctx : Nat)
  /-- R366: Purges a dying task, discards its traffic, writes its record and notifies its parent. -/
  | taskDeath (ctx : Nat)
  /-- R367: A network interface discards a tag's undelivered messages and echoes. -/
  | discard (pkg tag : Nat)
  /-- R372: A pre-emption request arrives for a context. -/
  | preemptionRequest (ctx source : Nat) (deadline : Bool)
  /-- R374: The deadline expires and PREEMPT is raised at the next boundary. -/
  | preemptDeadline (ctx : Nat)
  /-- R375: Saves a task at a blocking point, enters the wake table and frees the context. -/
  | evict (ctx : Nat)
  /-- R378: The Haggler resumes a ready wake-table entry. -/
  | resumeEvicted (ctx : Nat)
  /-- R269: When contexts free, the launch unit binds waiting regions in EP order. -/
  | waitlistExamine (pkg : Nat)
  /-- R256: Loading of the arcades finishes and release may follow. -/
  | imageLoaded (pkg rcb : Nat)
  /-- R257: Starts the root tasks once their frames are available. -/
  | rootRelease (pkg rcb : Nat)
  /-- R258: Ends a region: unbinds it, writes STATE, releases, signals and wakes waiters. -/
  | regionEnd (pkg rcb : Nat)
  /-- R442: A host doorbell write sets a queue's WPOS. -/
  | doorbell (pkg queue wpos : Nat)
  /-- R266: Writing QST ← 1 restarts a halted queue at RPOS. -/
  | queueRestart (pkg queue : Nat)
  /-- R268: Selects the next ready LAUNCH by PRIO and round-robin. -/
  | distributorSelect (pkg : Nat)
  /-- R265: Crier packet with no effect. -/
  | nopPacket (pkg queue : Nat)
  /-- R265: Crier packet that writes the signal fields and offers the launch. -/
  | launch (pkg queue : Nat)
  /-- R265: Crier packet: a system-scope store or add. -/
  | signal (pkg queue : Nat)
  /-- R265: Crier packet that holds the queue until a word meets a condition. -/
  | wait (pkg queue : Nat)
  /-- R265: Crier packet that runs a nested buffer of packets. -/
  | indirect (pkg queue : Nat)
  /-- R267: Crier packet that switches segment and returns the old one to the free ring. -/
  | link (pkg queue : Nat)
  /-- R265: Crier packet that acts as NOP with AFTER set. -/
  | barrier (pkg queue : Nat)
  /-- R266: An illegal packet halts the queue. -/
  | badpkt (pkg queue : Nat)
  /-- R334: A Carter transfer completes: the watermark advances, it arrives and the follow-on moves. -/
  | transferComplete (arcade channel : Nat)
  /-- R347: A follow-on is checked and accepted into its class queue when a slot is free. -/
  | followOnHandoff (arcade : Nat)
  /-- R389: A stop or resume event reaches a member stall, which halts or resumes. -/
  | crossTrigger (stall : Nat) (stop : Bool)
  /-- R395: An ICTL write with HALT sends a stop event. -/
  | inspectorHalt (arcade stalls : Nat)
  /-- R394: An ICTL write with RESUME resumes the groups. -/
  | inspectorResume (arcade stalls : Nat)
  /-- R396: An ICTL write with STEP runs one instruction of a halted context. -/
  | inspectorStep (arcade : Nat)
  /-- R396: Reads the selected register of a halted context. -/
  | idataRead (arcade : Nat)
  /-- R396: Writes the selected register of a halted context. -/
  | idataWrite (arcade : Nat) (value : Word)
  /-- R395: A write to IDIGN resets DIG and COUNT. -/
  | idignReset (arcade : Nat)
  /-- R289: Carves or releases an L2 way as hall SRAM. -/
  | hscarveWrite (hall k : Nat) (value : Word)
  /-- R408: Sets a class's coding parameters, or is ignored whole if illegal. -/
  | crateWrite (hall cls : Nat) (value : Word)
  /-- R426: A write to a device register that has no row of its own. -/
  | registerWrite (pkg offset : Nat) (value : Word)
  /-- R414: A fragment packet takes a hop when the next buffer has room. -/
  | fragmentHop (packet : Nat)
  /-- R415: An arriving fragment is authenticated and discarded or added to a decode slot. -/
  | fragmentArrival (packet : Nat)
  /-- R415: An undecoded slot expires and is counted STALE. -/
  | slotTimeout (hall slot : Nat)
  /-- R416: A fully decoded message is performed in sequence order. -/
  | messagePerform (stream : Nat)
  /-- R418: A selective acknowledgement is sent on a full block or every 4,096 cycles. -/
  | sack (stream : Nat)
  /-- R418: The source frees the acknowledged messages. -/
  | sackReceive (stream base bits : Nat)
  /-- R419: A response or ACK acknowledges a request in filter mode. -/
  | ack (stream seq : Nat)
  /-- R420: An unacknowledged message is retransmitted, or given up with a SKIP. -/
  | retxTimeout (stream seq : Nat)
  /-- R421: A skipped sequence number counts as performed at the destination. -/
  | skip (stream seq : Nat)
  /-- R423: A lane fails: the partial packet is lost and the link starts retraining. -/
  | laneFailure (pkg port lanes : Nat)
  /-- R423: A link finishes retraining at its new width. -/
  | retrainDone (pkg port : Nat)
  /-- R425: Veram installs a pending link key, used from the next packet boundary. -/
  | keyInstall (pkg port key : Nat)
  /-- R429: A donation request is accepted into or refused by the target Barrow. -/
  | donreq (pkg : Nat) (request : DonationRequest)
  /-- R430: A hunter takes a donated frame and starts it as a task. -/
  | barrowTake (thief : Nat)
  /-- R431: A donated task's JDEC or JDEAD is performed at the donor's counter. -/
  | remoteCounterOp (counter : Nat) (dead : Bool)
  /-- R445: Veram command: returns a signed attestation report. -/
  | attest (pkg nonce : Nat)
  /-- R302: Veram command: loads a wrapped key into a key id. -/
  | keyload (pkg id wrapped : Nat)
  /-- R302: Veram command: removes a key id. -/
  | keyevict (pkg id : Nat)
  /-- R435: Veram command: starts a gang slice as coordinator. -/
  | slice (pkg : Nat) (descriptor : SliceDescriptor)
  /-- R446: Veram command: sets the power limit. -/
  | pwrcap (pkg watts : Nat)
  /-- R444: Veram command: returns and clears the event log. -/
  | events (pkg : Nat)
  /-- R437: A package receives PREPARE and answers READY or REFUSE. -/
  | slicePrepare (pkg slid : Nat)
  /-- R437: The coordinator collects the answers and decides COMMIT or ABORT. -/
  | sliceAnswer (pkg slid sender : Nat) (ready : Bool)
  /-- R437: A package releases the hold on the incoming region. -/
  | sliceAbort (pkg slid : Nat)
  /-- R437: At TSTART a package sends pre-emption requests to the outgoing region. -/
  | sliceTstart (pkg slid : Nat)
  /-- R437: At TSTART + GRACE a package reports LATE if it is not evicted. -/
  | sliceGraceExpiry (pkg slid : Nat)
  /-- R437: The coordinator collects the reports and sends START or ABANDON. -/
  | sliceReport (pkg slid sender : Nat) (evicted : Bool)
  /-- R437: A package binds and releases the incoming region. -/
  | sliceStart (pkg slid : Nat)
  /-- R438: A package withdraws its requests and rebinds the outgoing region. -/
  | sliceAbandon (pkg slid : Nat)
  /-- R437: A package silent for 10⁸ ns raises a fabric machine check. -/
  | sliceNoAnswer (pkg slid sender : Nat)
  /-- R440: The Porter answers a host snoop by writing back and dropping host lines. -/
  | hostSnoop (pkg line : Nat)
  /-- R333: The Carter moves one 64-byte beat of an accepted transfer, writing its destination bytes, and returns a line's ownership once its last byte is written. -/
  | carterBeat (arcade : Nat)
  /-- R289: The hall finishes writing back, invalidating and zeroing a carved way and sets EN, within 20,000 cycles of the write. -/
  | hscarveDone (hall k : Nat)
  /-- R436: Veram exchanges repair-class time messages and adjusts package TIME so that it stays within 1,000 ns of the coordinator's. -/
  | timeSync (pkg : Nat) (delta : Int)
  /-- R439: The host, or a peer, reads or writes package DRAM through BAR2 as HDM. -/
  | hdmAccess (pkg offset : Nat) (op : HdmOp)
  deriving DecidableEq, Repr

/-- The events that units other than a context's issue make (the rows of spec/opcode_table.json without a word), as State
holds them when they are due. `Event.instr` is the row's constructor of `Instr`. -/
inductive Event
  | gangBarrierWake (pkg rcb : Nat)
  | barrierWake (object : Nat)
  | packageReset (pkg : Nat)
  | powerOnBoot (pkg : Nat) (images : List BootImage)
  | loadReply (ctx : Nat)
  | storePerform (ctx : Nat)
  | pageWalk (hall : Nat)
  | homeRecall (hall key line : Nat)
  | lineEviction (level : CacheLevel) (unit key line : Nat)
  | networkMessageDelivery (arcade : Nat)
  | matrixStart (stall : Nat)
  | matrixComplete (stall : Nat)
  | bankTransferComplete (stall : Nat)
  | pairClearDone (stall pair : Nat)
  | huntRound (ctx : Nat)
  | take (victim thief : Nat)
  | stealReply (thief : Nat)
  | tileMoveComplete (thief : Nat)
  | thiefReoffer (thief : Nat)
  | counterReoffer (arcade : Nat)
  | jinc (counter : Nat)
  | jdec (counter : Nat)
  | jdead (counter : Nat)
  | jaddn (counter : Nat) (n : Int)
  | jsus (counter : Nat)
  | jcall (counter : Nat)
  | jcas (counter : Nat)
  | jmark (counter : Nat)
  | resumeContinuation (ctx : Nat)
  | taskDeath (ctx : Nat)
  | discard (pkg tag : Nat)
  | preemptionRequest (ctx source : Nat) (deadline : Bool)
  | preemptDeadline (ctx : Nat)
  | evict (ctx : Nat)
  | resumeEvicted (ctx : Nat)
  | waitlistExamine (pkg : Nat)
  | imageLoaded (pkg rcb : Nat)
  | rootRelease (pkg rcb : Nat)
  | regionEnd (pkg rcb : Nat)
  | doorbell (pkg queue wpos : Nat)
  | queueRestart (pkg queue : Nat)
  | distributorSelect (pkg : Nat)
  | nopPacket (pkg queue : Nat)
  | launch (pkg queue : Nat)
  | signal (pkg queue : Nat)
  | wait (pkg queue : Nat)
  | indirect (pkg queue : Nat)
  | link (pkg queue : Nat)
  | barrier (pkg queue : Nat)
  | badpkt (pkg queue : Nat)
  | transferComplete (arcade channel : Nat)
  | followOnHandoff (arcade : Nat)
  | crossTrigger (stall : Nat) (stop : Bool)
  | inspectorHalt (arcade stalls : Nat)
  | inspectorResume (arcade stalls : Nat)
  | inspectorStep (arcade : Nat)
  | idataRead (arcade : Nat)
  | idataWrite (arcade : Nat) (value : Word)
  | idignReset (arcade : Nat)
  | hscarveWrite (hall k : Nat) (value : Word)
  | crateWrite (hall cls : Nat) (value : Word)
  | registerWrite (pkg offset : Nat) (value : Word)
  | fragmentHop (packet : Nat)
  | fragmentArrival (packet : Nat)
  | slotTimeout (hall slot : Nat)
  | messagePerform (stream : Nat)
  | sack (stream : Nat)
  | sackReceive (stream base bits : Nat)
  | ack (stream seq : Nat)
  | retxTimeout (stream seq : Nat)
  | skip (stream seq : Nat)
  | laneFailure (pkg port lanes : Nat)
  | retrainDone (pkg port : Nat)
  | keyInstall (pkg port key : Nat)
  | donreq (pkg : Nat) (request : DonationRequest)
  | barrowTake (thief : Nat)
  | remoteCounterOp (counter : Nat) (dead : Bool)
  | attest (pkg nonce : Nat)
  | keyload (pkg id wrapped : Nat)
  | keyevict (pkg id : Nat)
  | slice (pkg : Nat) (descriptor : SliceDescriptor)
  | pwrcap (pkg watts : Nat)
  | events (pkg : Nat)
  | slicePrepare (pkg slid : Nat)
  | sliceAnswer (pkg slid sender : Nat) (ready : Bool)
  | sliceAbort (pkg slid : Nat)
  | sliceTstart (pkg slid : Nat)
  | sliceGraceExpiry (pkg slid : Nat)
  | sliceReport (pkg slid sender : Nat) (evicted : Bool)
  | sliceStart (pkg slid : Nat)
  | sliceAbandon (pkg slid : Nat)
  | sliceNoAnswer (pkg slid sender : Nat)
  | hostSnoop (pkg line : Nat)
  | carterBeat (arcade : Nat)
  | hscarveDone (hall k : Nat)
  | timeSync (pkg : Nat) (delta : Int)
  | hdmAccess (pkg offset : Nat) (op : HdmOp)
  deriving DecidableEq, Repr

/-- The constructor of `Instr` for an event. -/
noncomputable def Event.instr : Event → Instr
  | .gangBarrierWake pkg rcb => .gangBarrierWake pkg rcb
  | .barrierWake object => .barrierWake object
  | .packageReset pkg => .packageReset pkg
  | .powerOnBoot pkg images => .powerOnBoot pkg images
  | .loadReply ctx => .loadReply ctx
  | .storePerform ctx => .storePerform ctx
  | .pageWalk hall => .pageWalk hall
  | .homeRecall hall key line => .homeRecall hall key line
  | .lineEviction level unit key line => .lineEviction level unit key line
  | .networkMessageDelivery arcade => .networkMessageDelivery arcade
  | .matrixStart stall => .matrixStart stall
  | .matrixComplete stall => .matrixComplete stall
  | .bankTransferComplete stall => .bankTransferComplete stall
  | .pairClearDone stall pair => .pairClearDone stall pair
  | .huntRound ctx => .huntRound ctx
  | .take victim thief => .take victim thief
  | .stealReply thief => .stealReply thief
  | .tileMoveComplete thief => .tileMoveComplete thief
  | .thiefReoffer thief => .thiefReoffer thief
  | .counterReoffer arcade => .counterReoffer arcade
  | .jinc counter => .jinc counter
  | .jdec counter => .jdec counter
  | .jdead counter => .jdead counter
  | .jaddn counter n => .jaddn counter n
  | .jsus counter => .jsus counter
  | .jcall counter => .jcall counter
  | .jcas counter => .jcas counter
  | .jmark counter => .jmark counter
  | .resumeContinuation ctx => .resumeContinuation ctx
  | .taskDeath ctx => .taskDeath ctx
  | .discard pkg tag => .discard pkg tag
  | .preemptionRequest ctx source deadline => .preemptionRequest ctx source deadline
  | .preemptDeadline ctx => .preemptDeadline ctx
  | .evict ctx => .evict ctx
  | .resumeEvicted ctx => .resumeEvicted ctx
  | .waitlistExamine pkg => .waitlistExamine pkg
  | .imageLoaded pkg rcb => .imageLoaded pkg rcb
  | .rootRelease pkg rcb => .rootRelease pkg rcb
  | .regionEnd pkg rcb => .regionEnd pkg rcb
  | .doorbell pkg queue wpos => .doorbell pkg queue wpos
  | .queueRestart pkg queue => .queueRestart pkg queue
  | .distributorSelect pkg => .distributorSelect pkg
  | .nopPacket pkg queue => .nopPacket pkg queue
  | .launch pkg queue => .launch pkg queue
  | .signal pkg queue => .signal pkg queue
  | .wait pkg queue => .wait pkg queue
  | .indirect pkg queue => .indirect pkg queue
  | .link pkg queue => .link pkg queue
  | .barrier pkg queue => .barrier pkg queue
  | .badpkt pkg queue => .badpkt pkg queue
  | .transferComplete arcade channel => .transferComplete arcade channel
  | .followOnHandoff arcade => .followOnHandoff arcade
  | .crossTrigger stall stop => .crossTrigger stall stop
  | .inspectorHalt arcade stalls => .inspectorHalt arcade stalls
  | .inspectorResume arcade stalls => .inspectorResume arcade stalls
  | .inspectorStep arcade => .inspectorStep arcade
  | .idataRead arcade => .idataRead arcade
  | .idataWrite arcade value => .idataWrite arcade value
  | .idignReset arcade => .idignReset arcade
  | .hscarveWrite hall k value => .hscarveWrite hall k value
  | .crateWrite hall cls value => .crateWrite hall cls value
  | .registerWrite pkg offset value => .registerWrite pkg offset value
  | .fragmentHop packet => .fragmentHop packet
  | .fragmentArrival packet => .fragmentArrival packet
  | .slotTimeout hall slot => .slotTimeout hall slot
  | .messagePerform stream => .messagePerform stream
  | .sack stream => .sack stream
  | .sackReceive stream base bits => .sackReceive stream base bits
  | .ack stream seq => .ack stream seq
  | .retxTimeout stream seq => .retxTimeout stream seq
  | .skip stream seq => .skip stream seq
  | .laneFailure pkg port lanes => .laneFailure pkg port lanes
  | .retrainDone pkg port => .retrainDone pkg port
  | .keyInstall pkg port key => .keyInstall pkg port key
  | .donreq pkg request => .donreq pkg request
  | .barrowTake thief => .barrowTake thief
  | .remoteCounterOp counter dead => .remoteCounterOp counter dead
  | .attest pkg nonce => .attest pkg nonce
  | .keyload pkg id wrapped => .keyload pkg id wrapped
  | .keyevict pkg id => .keyevict pkg id
  | .slice pkg descriptor => .slice pkg descriptor
  | .pwrcap pkg watts => .pwrcap pkg watts
  | .events pkg => .events pkg
  | .slicePrepare pkg slid => .slicePrepare pkg slid
  | .sliceAnswer pkg slid sender ready => .sliceAnswer pkg slid sender ready
  | .sliceAbort pkg slid => .sliceAbort pkg slid
  | .sliceTstart pkg slid => .sliceTstart pkg slid
  | .sliceGraceExpiry pkg slid => .sliceGraceExpiry pkg slid
  | .sliceReport pkg slid sender evicted => .sliceReport pkg slid sender evicted
  | .sliceStart pkg slid => .sliceStart pkg slid
  | .sliceAbandon pkg slid => .sliceAbandon pkg slid
  | .sliceNoAnswer pkg slid sender => .sliceNoAnswer pkg slid sender
  | .hostSnoop pkg line => .hostSnoop pkg line
  | .carterBeat arcade => .carterBeat arcade
  | .hscarveDone hall k => .hscarveDone hall k
  | .timeSync pkg delta => .timeSync pkg delta
  | .hdmAccess pkg offset op => .hdmAccess pkg offset op

end Sys2Proof
end

