-- ==== Sys2Proof/WellFormed.lean ====
section
/-! DEFINITION. Which instruction terms an encoding exists for (R70 to R85): each operand code direct or reached by
the one RGX prefix word, at most four prefix words, and the orders, pairs and fields that an instruction's own rule allows.
The 97 events are no encodings: they are well formed as they stand. -/

namespace Sys2Proof

/-- A direct code of R69 names the register. -/
def GReg.direct : GReg → Bool
  | .o _ => true
  | .lat => true
  | .g i => i.val < 7

/-- A direct code names an index of the classes V, M, P, T and A (R69). -/
def idxDirect (i : Idx) : Bool := i.val < 16

/-- Which members of its class a register field may name: any, the even member of a pair (R115), the first of four (R319). -/
inductive PairRule
  | single | pair | quad
  deriving DecidableEq, Repr

def PairRule.ok : PairRule → GReg → Bool
  | .single, _ => true
  | .pair, .o i => i.val % 2 == 0
  | .pair, .lat => false
  | .pair, .g i => i.val % 2 == 0
  | .quad, .o i => i.val % 4 == 0
  | .quad, .lat => false
  | .quad, .g i => i.val % 4 == 0

/-- What an ORD prefix word may say on an instruction: which orders, whether the engine-order bit, whether a cache policy
(R116, R142, R161, R227, R260, R317, R324, R326, R336, R343, R428). `absent`: no ORD applies. -/
inductive OrdRule
  | load | store | any | counter | orderless | release | acquire | fence | bare | prefetch | absent
  deriving DecidableEq, Repr

def OrdRule.order : OrdRule → MemOrder → Bool
  | .load, o => o == .none || o == .acq
  | .store, o => o == .none || o == .rel
  | .any, _ => true
  | .counter, _ => true
  | .orderless, o => o == .none
  | .release, o => o == .none || o == .rel
  | .acquire, o => o == .none || o == .acq
  | .fence, _ => true
  | .bare, o => o == .none
  | .prefetch, o => o == .none
  | .absent, _ => false

def OrdRule.engine : OrdRule → Bool
  | .fence => false
  | .bare => false
  | .prefetch => false
  | .absent => false
  | _ => true

def OrdRule.policy : OrdRule → Bool
  | .load => true
  | .store => true
  | .counter => true
  | .prefetch => true
  | _ => false

/-- The ORD prefix word is one that the rule allows. -/
def OrdRule.ok (r : OrdRule) (q : OrdQ) : Bool :=
  r.order q.order && (r.engine || !q.eng) && (r.policy || q.policy == .page)

def OrdRule.okOpt (r : OrdRule) : Option OrdQ → Bool
  | none => true
  | some q => r.ok q

/-- The fewest IMX prefix words that hold `v` with `b` base bits (R72, R85); 5 when no four do. -/
def immWords (b : Nat) (v : Word) : Nat :=
  if b = 0 ∧ v = 0 then 0
  else if 0 < b ∧ -(2 ^ (b - 1) : Int) ≤ v.toInt ∧ v.toInt < 2 ^ (b - 1) then 0
  else if -(2 ^ (b + 7) : Int) ≤ v.toInt ∧ v.toInt < 2 ^ (b + 7) then 1
  else if -(2 ^ (b + 15) : Int) ≤ v.toInt ∧ v.toInt < 2 ^ (b + 15) then 2
  else if -(2 ^ (b + 23) : Int) ≤ v.toInt ∧ v.toInt < 2 ^ (b + 23) then 3
  else if -(2 ^ (b + 31) : Int) ≤ v.toInt ∧ v.toInt < 2 ^ (b + 31) then 4
  else 5

/-- The prefix words an instruction needs besides PAG (R85): the fields that need RGX, and how many of each other kind. -/
structure Need where
  rgx : List Bool := []
  thr : Bool := false
  ord : Bool := false
  fmx : Bool := false
  prd : Bool := false
  imx : Nat := 0

/-- At most one RGX (R73) and at most four prefix words (R67); `pag` is 1 on pages 1 to 8 (R75). -/
def Need.ok (n : Need) (pag : Nat) : Bool :=
  decide (n.rgx.count true ≤ 1) &&
  decide (pag + n.rgx.count true + n.thr.toNat + n.ord.toNat + n.fmx.toNat + n.prd.toNat + n.imx ≤ 4)

/-- A Z operand has a direct code (R74). -/
def zDirect : Option GReg → Bool
  | none => true
  | some z => z.direct

def zIdxDirect : Option Idx → Bool
  | none => true
  | some z => idxDirect z

def GBin.wf (p : Nat) (a : GBin) : Bool :=
  zDirect a.z && (Need.ok { rgx := [!a.x.direct, !a.y.direct], thr := a.z.isSome } p)
def GUn.wf (p : Nat) (a : GUn) : Bool := Need.ok { rgx := [!a.x.direct, !a.y.direct] } p
def GOne.wf (p : Nat) (a : GOne) : Bool := Need.ok { rgx := [!a.x.direct] } p
def GTri.wf (p : Nat) (a : GTri) : Bool :=
  a.z.direct && Need.ok { rgx := [!a.x.direct, !a.y.direct], thr := true } p
def GImm.wf (p : Nat) (a : GImm) : Bool := Need.ok { rgx := [!a.x.direct], imx := immWords 7 a.imm } p
def GShift.wf (p : Nat) (a : GShift) : Bool :=
  Need.ok { rgx := [!a.x.direct], imx := if a.amount.val < 32 then 0 else 1 } p
def JOff.wf (p : Nat) (a : JOff) : Bool := Need.ok { imx := immWords 11 a.off } p
def GMem.wf (r : OrdRule) (q : PairRule) (p : Nat) (a : GMem) : Bool :=
  q.ok a.x && r.okOpt a.ord && zDirect a.z &&
  Need.ok { rgx := [!a.x.direct, !a.y.direct], thr := a.z.isSome, ord := a.ord.isSome, imx := immWords 0 a.imm } p
def PMem.wf (r : OrdRule) (p : Nat) (a : PMem) : Bool :=
  r.okOpt a.ord && zDirect a.z &&
  Need.ok { rgx := [!a.y.direct], thr := a.z.isSome, ord := a.ord.isSome, imx := immWords 0 a.imm } p
def YMem.wf (r : OrdRule) (p : Nat) (a : YMem) : Bool :=
  r.okOpt a.ord && Need.ok { rgx := [!a.y.direct], ord := a.ord.isSome, imx := immWords 0 a.imm } p
def GLea.wf (p : Nat) (a : GLea) : Bool :=
  zDirect a.z && Need.ok { rgx := [!a.x.direct, !a.y.direct], thr := a.z.isSome, imx := immWords 0 a.imm } p
def Num8.wf (p : Nat) (_ : Num8) : Bool := Need.ok {} p

/-- The address of a CSR (Tables 01-4 and 01-5). -/
def Csr.addr : Csr → Nat
  | .flags => 0x000 | .ten => 0x001 | .rmode => 0x002 | .vt => 0x003 | .vl => 0x004 | .fmtw => 0x005
  | .sclp => 0x006 | .mmode => 0x007 | .mrho => 0x008 | .mseed => 0x009 | .ttag => 0x00A | .framep => 0x00B
  | .loc => 0x00C | .tbm => 0x00D | .cyc => 0x00E | .rank => 0x00F | .gsz => 0x010 | .time => 0x011
  | .status => 0x100 | .epc => 0x101 | .ecause => 0x102 | .einfo => 0x103 | .eva => 0x104 | .tvec => 0x105
  | .gwin => 0x106 | .vwin => 0x107 | .rcbp => 0x108 | .ptbr => 0x109 | .liveb => 0x10A | .keyt => 0x10B
  | .sscratch => 0x10C | .frec => 0x10D
  | .ctxn => 0x200 | .bgate => 0x201 | .haltg => 0x202 | .tracec => 0x203

/-- A CSR that WRC may not write (the Access column RO of Tables 01-4 and 01-5). -/
def Csr.readOnly : Csr → Bool
  | .ttag | .framep | .loc | .tbm | .cyc | .rank | .gsz | .time | .ctxn => true
  | _ => false

def GCsr.wf (write : Bool) (p : Nat) (a : GCsr) : Bool :=
  !(write && a.csr.readOnly) &&
  Need.ok { rgx := [!a.x.direct], imx := immWords 4 (w64 a.csr.addr) } p
def VBin.wf (p : Nat) (a : VBin) : Bool :=
  zIdxDirect a.z &&
  Need.ok { rgx := [!idxDirect a.x, !idxDirect a.y], thr := a.z.isSome, fmx := a.fmt.isSome, prd := a.prd.isSome } p
def VUn.wf (p : Nat) (a : VUn) : Bool :=
  Need.ok { rgx := [!idxDirect a.x, !idxDirect a.y], fmx := a.fmt.isSome, prd := a.prd.isSome } p
def VTri.wf (p : Nat) (a : VTri) : Bool :=
  idxDirect a.z &&
  Need.ok { rgx := [!idxDirect a.x, !idxDirect a.y], thr := true, fmx := a.fmt.isSome, prd := a.prd.isSome } p
def PBin.wf (p : Nat) (a : PBin) : Bool :=
  zIdxDirect a.z && Need.ok { rgx := [!idxDirect a.x, !idxDirect a.y], thr := a.z.isSome } p
def PUn.wf (p : Nat) (a : PUn) : Bool := Need.ok { rgx := [!idxDirect a.x, !idxDirect a.y] } p
def PSet.wf (p : Nat) (a : PSet) : Bool := Need.ok { rgx := [!idxDirect a.x, !a.y.direct] } p
def PCount.wf (p : Nat) (a : PCount) : Bool := Need.ok { rgx := [!a.x.direct, !idxDirect a.y] } p
def VMem.wf (r : OrdRule) (p : Nat) (a : VMem) : Bool :=
  r.okOpt a.ord && zDirect a.z &&
  Need.ok { rgx := [!idxDirect a.x, !a.y.direct], thr := a.z.isSome, ord := a.ord.isSome, fmx := a.fmt.isSome,
            prd := a.prd.isSome, imx := immWords 0 a.imm } p
def VGather.wf (r : OrdRule) (p : Nat) (a : VGather) : Bool :=
  r.okOpt a.ord && zIdxDirect a.z &&
  Need.ok { rgx := [!idxDirect a.x, !a.y.direct], thr := a.z.isSome, ord := a.ord.isSome, fmx := a.fmt.isSome,
            prd := a.prd.isSome, imx := immWords 0 a.imm } p
def VRed.wf (p : Nat) (a : VRed) : Bool :=
  zDirect a.z &&
  Need.ok { rgx := [!a.x.direct, !idxDirect a.y], thr := a.z.isSome, fmx := a.fmt.isSome, prd := a.prd.isSome } p
def VExt.wf (p : Nat) (a : VExt) : Bool :=
  zDirect a.z && Need.ok { rgx := [!a.x.direct, !idxDirect a.y], thr := a.z.isSome, fmx := a.fmt.isSome } p
def VBcst.wf (p : Nat) (a : VBcst) : Bool :=
  zDirect a.z &&
  Need.ok { rgx := [!idxDirect a.x, !a.y.direct], thr := a.z.isSome, fmx := a.fmt.isSome, prd := a.prd.isSome } p
def VSlide.wf (p : Nat) (a : VSlide) : Bool :=
  match a.src with
  | .own d => Need.ok { rgx := [!idxDirect a.x, !d.direct], fmx := a.fmt.isSome, prd := a.prd.isSome } p
  | .other y d => d.direct &&
    Need.ok { rgx := [!idxDirect a.x, !idxDirect y], thr := true, fmx := a.fmt.isSome, prd := a.prd.isSome } p
def VSet.wf (p : Nat) (a : VSet) : Bool := Need.ok { rgx := [!a.x.direct, !a.y.direct], fmx := a.fmt.isSome } p
def VLen.wf (p : Nat) (a : VLen) : Bool := Need.ok { rgx := [!a.x.direct], fmx := a.fmt.isSome } p
def VIota.wf (p : Nat) (a : VIota) : Bool := Need.ok { rgx := [!idxDirect a.x], fmx := a.fmt.isSome } p
def IOne.wf (p : Nat) (a : IOne) : Bool := Need.ok { rgx := [!idxDirect a.x] } p
def II.wf (p : Nat) (a : II) : Bool := Need.ok { rgx := [!idxDirect a.x, !idxDirect a.y] } p
/-- MMAM: no RGX reaches field X, and THR supplies Z (R186). -/
def II.wfMmam (p : Nat) (a : II) : Bool := idxDirect a.y && Need.ok { rgx := [!idxDirect a.x], thr := true } p
def ITri.wf (p : Nat) (a : ITri) : Bool :=
  idxDirect a.z && Need.ok { rgx := [!idxDirect a.x, !idxDirect a.y], thr := true } p
def IIG.wf (p : Nat) (a : IIG) : Bool :=
  a.z.direct && Need.ok { rgx := [!idxDirect a.x, !idxDirect a.y], thr := true } p
/-- MRFN: X and Y are even (R175). -/
def IIG.wfEven (p : Nat) (a : IIG) : Bool := decide (a.x.val % 2 = 0) && decide (a.y.val % 2 = 0) && a.wf p
def IG.wf (p : Nat) (a : IG) : Bool := Need.ok { rgx := [!idxDirect a.x, !a.y.direct] } p
def IGG.wf (p : Nat) (a : IGG) : Bool :=
  zDirect a.z && Need.ok { rgx := [!idxDirect a.x, !a.y.direct], thr := a.z.isSome } p
def TAdv.wf (p : Nat) (a : TAdv) : Bool :=
  zDirect a.z && Need.ok { rgx := [!idxDirect a.x, !a.y.direct], thr := a.z.isSome, imx := immWords 0 a.imm } p
def AZero.wf (p : Nat) (a : AZero) : Bool := Need.ok { rgx := [!idxDirect a.x] } p
def AMem.wf (r : OrdRule) (p : Nat) (a : AMem) : Bool :=
  r.okOpt a.ord && zDirect a.z &&
  Need.ok { rgx := [!idxDirect a.x, !a.y.direct], thr := a.z.isSome, ord := a.ord.isSome, imx := immWords 0 a.imm } p
def MChol.wf (p : Nat) (a : MChol) : Bool :=
  zDirect a.z && Need.ok { rgx := [!idxDirect a.x], thr := a.z.isSome } p
def MBin.wf (p : Nat) (a : MBin) : Bool :=
  zIdxDirect a.z && Need.ok { rgx := [!idxDirect a.x, !idxDirect a.y], thr := a.z.isSome, prd := a.prd.isSome } p
def MTri.wf (p : Nat) (a : MTri) : Bool :=
  idxDirect a.z && Need.ok { rgx := [!idxDirect a.x, !idxDirect a.y], thr := true, prd := a.prd.isSome } p
def MUn.wf (p : Nat) (a : MUn) : Bool := Need.ok { rgx := [!idxDirect a.x, !idxDirect a.y], prd := a.prd.isSome } p
/-- MCOL: for MEAN and SAMPLE, Z is `g0` (R74, R196). -/
def MCol.wf (p : Nat) (a : MCol) : Bool :=
  (match a.z with
   | none => true
   | some (.mean, z) => z == .g 0
   | some (.sample, z) => z == .g 0
   | some (_, z) => z.direct) &&
  Need.ok { rgx := [!idxDirect a.x, !idxDirect a.y], thr := a.z.isSome, prd := a.prd.isSome } p
def MSum.wf (p : Nat) (a : MSum) : Bool :=
  zDirect a.z && Need.ok { rgx := [!a.x.direct, !idxDirect a.y], thr := a.z.isSome, prd := a.prd.isSome } p
def MChk.wf (p : Nat) (a : MChk) : Bool := Need.ok { rgx := [!a.x.direct, !idxDirect a.y], prd := a.prd.isSome } p
def Target.direct : Target → Bool
  | .label _ => true
  | .reg z => z.direct
def Target.isReg : Target → Bool
  | .label _ => false
  | .reg _ => true
/-- IMX words of a target: at least one for a label (R232). -/
def Target.imx : Target → Nat
  | .label off => max 1 (immWords 0 off)
  | .reg _ => 0
def Spawn.wf (p : Nat) (a : Spawn) : Bool :=
  a.target.direct && Need.ok { rgx := [!a.x.direct], thr := a.target.isReg, imx := a.target.imx } p
def Spawn2.wf (q : PairRule) (p : Nat) (a : Spawn2) : Bool :=
  q.ok a.y && a.target.direct &&
  Need.ok { rgx := [!a.x.direct, !a.y.direct], thr := a.target.isReg, imx := a.target.imx } p
def UOrd.wf (r : OrdRule) (p : Nat) (a : UOrd) : Bool := r.okOpt a.ord && Need.ok { ord := a.ord.isSome } p
def GOrd.wf (r : OrdRule) (p : Nat) (a : GOrd) : Bool :=
  r.okOpt a.ord && Need.ok { rgx := [!a.x.direct], ord := a.ord.isSome } p
def GBinO.wf (r : OrdRule) (p : Nat) (a : GBinO) : Bool :=
  r.okOpt a.ord && zDirect a.z &&
  Need.ok { rgx := [!a.x.direct, !a.y.direct], thr := a.z.isSome, ord := a.ord.isSome } p
/-- An atomic; FMX is not applicable to ACAS2 (R318). -/
def Atom.wf (q : PairRule) (fmx : Bool) (p : Nat) (a : Atom) : Bool :=
  q.ok a.x && OrdRule.okOpt .any a.ord && a.z.direct && (fmx || a.fmt.isNone) &&
  Need.ok { rgx := [!a.x.direct, !a.y.direct], thr := true, ord := a.ord.isSome, fmx := a.fmt.isSome,
            imx := immWords 0 a.imm } p

/-- The page an instruction stands on costs a PAG prefix word on pages 1 to 8 (R75). An event is no encoding. -/
def Instr.wf : Instr → Bool
  | .add a => a.wf 0
  | .sub a => a.wf 0
  | .and a => a.wf 0
  | .or a => a.wf 0
  | .xor a => a.wf 0
  | .shl a => a.wf 0
  | .shr a => a.wf 0
  | .sra a => a.wf 0
  | .mul a => a.wf 0
  | .mulh a => a.wf 0
  | .mulhn a => a.wf 0
  | .min a => a.wf 0
  | .max a => a.wf 0
  | .minn a => a.wf 0
  | .maxn a => a.wf 0
  | .not a => a.wf 0
  | .mov a => a.wf 0
  | .sxw a => a.wf 0
  | .zxw a => a.wf 0
  | .sxb a => a.wf 0
  | .sxh a => a.wf 0
  | .clz a => a.wf 0
  | .popc a => a.wf 0
  | .rev a => a.wf 0
  | .movi a => a.wf 0
  | .addi a => a.wf 0
  | .shli a => a.wf 0
  | .shri a => a.wf 0
  | .srai a => a.wf 0
  | .rori a => a.wf 0
  | .ceq a => a.wf 0
  | .cne a => a.wf 0
  | .clt a => a.wf 0
  | .cge a => a.wf 0
  | .cltn a => a.wf 0
  | .cgen a => a.wf 0
  | .tst a => a.wf 0
  | .bnz a => a.wf 0
  | .bz a => a.wf 0
  | .jr a => a.wf 0
  | .callr a => a.wf 0
  | .ret => true
  | .j a => a.wf 0
  | .call a => a.wf 0
  | .ldb a => a.wf .load .single 0
  | .ldh a => a.wf .load .single 0
  | .ldw a => a.wf .load .single 0
  | .ldd a => a.wf .load .single 0
  | .ldbs a => a.wf .load .single 0
  | .ldhs a => a.wf .load .single 0
  | .ldws a => a.wf .load .single 0
  | .ldq a => a.wf .load .pair 0
  | .stb a => a.wf .store .single 0
  | .sth a => a.wf .store .single 0
  | .stw a => a.wf .store .single 0
  | .std a => a.wf .store .single 0
  | .stq a => a.wf .store .pair 0
  | .selnz a => a.wf 0
  | .selz a => a.wf 0
  | .lea1 a => a.wf 0
  | .lea2 a => a.wf 0
  | .lea4 a => a.wf 0
  | .lea8 a => a.wf 0
  | .lea16 a => a.wf 0
  | .nop => true
  | .yield => true
  | .trapf => true
  | .flagr a => a.wf 0
  | .flagc a => a.wf 0
  | .sysc a => a.wf 0
  | .bkpt a => a.wf 0
  | .rdc a => a.wf false 0
  | .wrc a => a.wf true 0
  | .tmark a => a.wf 0
  | .div a => a.wf 1
  | .divn a => a.wf 1
  | .rem a => a.wf 1
  | .remn a => a.wf 1
  | .bfx a => a.wf 1
  | .bfxn a => a.wf 1
  | .bfi a => a.wf 1
  | .rol a => a.wf 1
  | .ror a => a.wf 1
  | .ctz a => a.wf 1
  | .fadd a => a.wf 1
  | .fsub a => a.wf 1
  | .fmul a => a.wf 1
  | .fdiv a => a.wf 1
  | .fmin a => a.wf 1
  | .fmax a => a.wf 1
  | .fsqrt a => a.wf 1
  | .fabs a => a.wf 1
  | .fma a => a.wf 1
  | .fms a => a.wf 1
  | .fnma a => a.wf 1
  | .fneg a => a.wf 1
  | .feq a => a.wf 1
  | .flt a => a.wf 1
  | .fle a => a.wf 1
  | .funo a => a.wf 1
  | .cvtif a => a.wf 1
  | .cvtfi a => a.wf 1
  | .cvtfb a => a.wf 1
  | .cvtbf a => a.wf 1
  | .cvtfh a => a.wf 1
  | .cvthf a => a.wf 1
  | .vadd a => a.wf 1
  | .vsub a => a.wf 1
  | .vmul a => a.wf 1
  | .vmin a => a.wf 1
  | .vmax a => a.wf 1
  | .vand a => a.wf 1
  | .vor a => a.wf 1
  | .vxor a => a.wf 1
  | .vfma a => a.wf 1
  | .vfms a => a.wf 1
  | .vabs a => a.wf 1
  | .vneg a => a.wf 1
  | .vshl a => a.wf 1
  | .vshr a => a.wf 1
  | .vsra a => a.wf 1
  | .vdiv a => a.wf 1
  | .vceq a => a.wf 1
  | .vcne a => a.wf 1
  | .vclt a => a.wf 1
  | .vcle a => a.wf 1
  | .vcgt a => a.wf 1
  | .vcge a => a.wf 1
  | .pand a => a.wf 1
  | .por a => a.wf 1
  | .pxor a => a.wf 1
  | .pnot a => a.wf 1
  | .pset a => a.wf 1
  | .pcnt a => a.wf 1
  | .pfirst a => a.wf 1
  | .vld a => a.wf .load 1
  | .vst a => a.wf .store 1
  | .vlds a => a.wf .load 1
  | .vsts a => a.wf .store 1
  | .vgath a => a.wf .load 1
  | .vscat a => a.wf .store 1
  | .vldb a => a.wf .load 1
  | .vrsum a => a.wf 1
  | .vrmax a => a.wf 1
  | .vrmin a => a.wf 1
  | .vext a => a.wf 1
  | .vbcst a => a.wf 1
  | .vsel a => a.wf 1
  | .vperm a => a.wf 1
  | .vslide a => a.wf 1
  | .vcvt a => a.wf 1
  | .vpack a => a.wf 1
  | .vunpk a => a.wf 1
  | .vqds a => a.wf 1
  | .vexp a => a.wf 1
  | .vrcp a => a.wf 1
  | .vrsq a => a.wf 1
  | .verf a => a.wf 1
  | .vsett a => a.wf 1
  | .vlen a => a.wf 1
  | .viota a => a.wf 1
  | .mma a => a.wf 1
  | .mmaz a => a.wf 1
  | .mmah a => a.wf 1
  | .mmazh a => a.wf 1
  | .aacq a => a.wf 1
  | .arel => true
  | .azero a => a.wf 1
  | .aload a => a.wf .load 1
  | .astore a => a.wf .store 1
  | .arowv a => a.wf 1
  | .avrow a => a.wf 1
  | .ascale a => a.wf 1
  | .tset a => a.wf 1
  | .tget a => a.wf 1
  | .tadv a => a.wf 1
  | .tshape a => a.wf 1
  | .mwait a => a.wf 1
  | .mstat a => a.wf 1
  | .mchol a => a.wf 1
  | .mtrsl a => a.wf 1
  | .mtrsu a => a.wf 1
  | .mrfn a => a.wfEven 1
  | .madd a => a.wf 1
  | .msub a => a.wf 1
  | .mmul a => a.wf 1
  | .mscl a => a.wf 1
  | .maff a => a.wf 1
  | .mneg a => a.wf 1
  | .mrelu a => a.wf 1
  | .mexp a => a.wf 1
  | .msig a => a.wf 1
  | .msqr a => a.wf 1
  | .mmk a => a.wf 1
  | .mmean a => a.wf 1
  | .mvar a => a.wf 1
  | .mcol a => a.wf 1
  | .msum a => a.wf 1
  | .mchk a => a.wf 1
  | .mmam a => a.wfMmam 1
  | .mastm a => a.wf .store 1
  | .maldm a => a.wf .load 1
  | .spawn a => a.wf 1
  | .spawna a => a.wf .single 1
  | .spawnf a => a.wf .pair 1
  | .sync => true
  | .syncq a => a.wf 1
  | .syncc a => a.wf 1
  | .falloc a => a.wf 1
  | .ffree a => a.wf 1
  | .jinit a => a.wf .counter 1
  | .jadd a => a.wf .counter .single 1
  | .pub a => a.wf 1
  | .tname a => a.wf 1
  | .tdrop a => a.wf 1
  | .tend => true
  | .tabort a => a.wf 1
  | .rlaunch a => a.wf 1
  | .rwait a => a.wf 1
  | .rquery a => a.wf 1
  | .gbar a => a.wf .any 1
  | .gbara a => a.wf .release 1
  | .gbarw a => a.wf .acquire 1
  | .grank a => a.wf 1
  | .gsize a => a.wf 1
  | .donate a => a.wf .release 1
  | .aadd a => a.wf .single true 1
  | .aand a => a.wf .single true 1
  | .aor a => a.wf .single true 1
  | .axor a => a.wf .single true 1
  | .amin a => a.wf .single true 1
  | .amax a => a.wf .single true 1
  | .aswp a => a.wf .single true 1
  | .acas a => a.wf .pair true 1
  | .acas2 a => a.wf .quad false 1
  | .abinc a => a.wf .single true 1
  | .abdec a => a.wf .single true 1
  | .afadd a => a.wf .single true 1
  | .amadd a => a.wf .single true 1
  | .fence a => a.wf .fence 1
  | .fencee a => a.wf .fence 1
  | .flush a => a.wf .bare 1
  | .inval a => a.wf .bare 1
  | .pref a => a.wf .prefetch 1
  | .tbmc => true
  | .binit a => a.wf .orderless .single 1
  | .barr a => a.wf .release .single 1
  | .bwait a => a.wf .acquire .single 1
  | .bexp a => a.wf .orderless .single 1
  | .btest a => a.wf .acquire .single 1
  | .copy a => a.wf .release .single 1
  | .ctset a => a.wf .absent .single 1
  | .cwm a => a.wf .acquire .single 1
  | .cwait a => a.wf .acquire .single 1
  | .tfpin a => a.wf 1
  | .tfrel a => a.wf 1
  | .eret => true
  | .halt => true
  | .repart a => a.wf 1
  | .ctxsave a => a.wf 1
  | .ctxload a => a.wf 1
  | .purge a => a.wf 1
  | .tlbinv a => a.wf 1
  | .gangBarrierWake _ _ => true
  | .barrierWake _ => true
  | .packageReset _ => true
  | .powerOnBoot _ _ => true
  | .loadReply _ => true
  | .storePerform _ => true
  | .pageWalk _ => true
  | .homeRecall _ _ _ => true
  | .lineEviction _ _ _ _ => true
  | .networkMessageDelivery _ => true
  | .matrixStart _ => true
  | .matrixComplete _ => true
  | .bankTransferComplete _ => true
  | .pairClearDone _ _ => true
  | .huntRound _ => true
  | .take _ _ => true
  | .stealReply _ => true
  | .tileMoveComplete _ => true
  | .thiefReoffer _ => true
  | .counterReoffer _ => true
  | .jinc _ => true
  | .jdec _ => true
  | .jdead _ => true
  | .jaddn _ _ => true
  | .jsus _ => true
  | .jcall _ => true
  | .jcas _ => true
  | .jmark _ => true
  | .resumeContinuation _ => true
  | .taskDeath _ => true
  | .discard _ _ => true
  | .preemptionRequest _ _ _ => true
  | .preemptDeadline _ => true
  | .evict _ => true
  | .resumeEvicted _ => true
  | .waitlistExamine _ => true
  | .imageLoaded _ _ => true
  | .rootRelease _ _ => true
  | .regionEnd _ _ => true
  | .doorbell _ _ _ => true
  | .queueRestart _ _ => true
  | .distributorSelect _ => true
  | .nopPacket _ _ => true
  | .launch _ _ => true
  | .signal _ _ => true
  | .wait _ _ => true
  | .indirect _ _ => true
  | .link _ _ => true
  | .barrier _ _ => true
  | .badpkt _ _ => true
  | .transferComplete _ _ => true
  | .followOnHandoff _ => true
  | .crossTrigger _ _ => true
  | .inspectorHalt _ _ => true
  | .inspectorResume _ _ => true
  | .inspectorStep _ => true
  | .idataRead _ => true
  | .idataWrite _ _ => true
  | .idignReset _ => true
  | .hscarveWrite _ _ _ => true
  | .crateWrite _ _ _ => true
  | .registerWrite _ _ _ => true
  | .fragmentHop _ => true
  | .fragmentArrival _ => true
  | .slotTimeout _ _ => true
  | .messagePerform _ => true
  | .sack _ => true
  | .sackReceive _ _ _ => true
  | .ack _ _ => true
  | .retxTimeout _ _ => true
  | .skip _ _ => true
  | .laneFailure _ _ _ => true
  | .retrainDone _ _ => true
  | .keyInstall _ _ _ => true
  | .donreq _ _ => true
  | .barrowTake _ => true
  | .remoteCounterOp _ _ => true
  | .attest _ _ => true
  | .keyload _ _ _ => true
  | .keyevict _ _ => true
  | .slice _ _ => true
  | .pwrcap _ _ => true
  | .events _ => true
  | .slicePrepare _ _ => true
  | .sliceAnswer _ _ _ _ => true
  | .sliceAbort _ _ => true
  | .sliceTstart _ _ => true
  | .sliceGraceExpiry _ _ => true
  | .sliceReport _ _ _ _ => true
  | .sliceStart _ _ => true
  | .sliceAbandon _ _ => true
  | .sliceNoAnswer _ _ _ => true
  | .hostSnoop _ _ => true
  | .carterBeat _ => true
  | .hscarveDone _ _ => true
  | .timeSync _ _ => true
  | .hdmAccess _ _ _ => true

end Sys2Proof
end

