-- ==== Sys2Proof/Decode.lean ====
section
/-! DEFINITION. The decoder (R67 to R83), total on any words, refusing by the REASON and WORD of Table 03-4, and after it
the encoder in the assembler's order of prefix words (R85). -/

namespace Sys2Proof

/-- An illegal encoding: REASON and WORD of Table 03-4. -/
structure Illop where
  reason : Nat
  word : Nat
  deriving DecidableEq, Repr

/-- Bits [15:11] of a word (Table 03-1). -/
def majOf (w : Word16) : Nat := w.toNat / 2 ^ 11
/-- KIND of a prefix word (Table 03-2). -/
def kindOf (w : Word16) : Nat := w.toNat / 2 ^ 8 % 8
/-- Payload of a prefix word (Table 03-2). -/
def payloadOf (w : Word16) : Nat := w.toNat % 2 ^ 8
/-- A word whose bits [15:11] are 11111 is a prefix word (R67). -/
def isPfx (w : Word16) : Bool := majOf w == 31

/-- The payload of the first prefix word of a kind, and its index. -/
def findKind (k : Nat) : Nat → List Word16 → Option (Nat × Nat)
  | _, [] => none
  | i, w :: ws => if kindOf w = k then some (payloadOf w, i) else findKind k (i + 1) ws

/-- What the next word does to a decoding that has read the prefix words `ps` (R79): one more prefix word, the base word,
or an illegal word. -/
inductive ScanStep
  | more (ps : List Word16)
  | base (ps : List Word16) (w : Word16)
  | bad (e : Illop)
  deriving DecidableEq, Repr

def scanStep (ps : List Word16) (w : Word16) : ScanStep :=
  if isPfx w then
    if ps.length = 4 then .bad ⟨1, 4⟩
    else if kindOf w = 7 then .bad ⟨2, ps.length⟩
    else if kindOf w ≠ 0 ∧ (findKind (kindOf w) 0 ps).isSome then .bad ⟨3, ps.length⟩
    else .more (ps ++ [w])
  else .base ps w

/-- The words of one instruction: its prefix words in order and its base word. -/
structure Raw where
  ps : List Word16
  base : Word16
  deriving DecidableEq, Repr

namespace Raw

def kind (r : Raw) (k : Nat) : Option Nat := (findKind k 0 r.ps).map (·.1)
/-- X, Y and FN of the base word (Table 03-1). -/
def x (r : Raw) : Nat := r.base.toNat / 2 ^ 7 % 16
def y (r : Raw) : Nat := r.base.toNat / 2 ^ 3 % 16
def fn (r : Raw) : Nat := r.base.toNat % 8
def maj (r : Raw) : Nat := majOf r.base
/-- The payloads of the IMX prefix words in address order (R72). -/
def imx (r : Raw) : List Nat := (r.ps.filter (fun w => kindOf w = 0)).map payloadOf
/-- RGX: the index it supplies for field X, or for field Y (R73). -/
def rgxX (r : Raw) : Option Nat :=
  match r.kind 1 with
  | some p => if p < 128 then some p else none
  | none => none
def rgxY (r : Raw) : Option Nat :=
  match r.kind 1 with
  | some p => if p < 128 then none else some (p - 128)
  | none => none
/-- THR: the code of Z, and the FN extension (R74). -/
def z (r : Raw) : Option Nat := (r.kind 2).map (· / 16)
def ext (r : Raw) : Nat :=
  match r.kind 2 with
  | some p => p % 16
  | none => 0
/-- The page (R75). -/
def page (r : Raw) : Nat := (r.kind 3).getD 0

/-- The 4-bit code of a G-class operand (R69). -/
def gCode (c : Nat) : GReg :=
  if c < 8 then .o (Fin.ofNat 8 c) else if c = 8 then .lat else .g (Fin.ofNat 128 (c - 9))

def xG (r : Raw) : GReg :=
  match r.rgxX with
  | some i => .g (Fin.ofNat 128 i)
  | none => gCode r.x
def yG (r : Raw) : GReg :=
  match r.rgxY with
  | some i => .g (Fin.ofNat 128 i)
  | none => gCode r.y
def xI (r : Raw) : Idx := Fin.ofNat 128 (r.rgxX.getD r.x)
def yI (r : Raw) : Idx := Fin.ofNat 128 (r.rgxY.getD r.y)
def zG (r : Raw) : Option GReg := r.z.map gCode
def zI (r : Raw) : Option Idx := r.z.map (Fin.ofNat 128 ·)
def zG! (r : Raw) : GReg := gCode (r.z.getD 0)
def zI! (r : Raw) : Idx := Fin.ofNat 128 (r.z.getD 0)

/-- A string of `n` bits with value `v`, sign-extended to 64 bits; the empty string is 0 (R72). -/
def signExtend (n v : Nat) : Word :=
  if n = 0 then 0
  else if v < 2 ^ (n - 1) then BitVec.ofNat 64 v
  else BitVec.ofInt 64 ((v : Int) - (2 : Int) ^ n)

/-- The immediate of R72 with `b` base bits of value `v`. -/
def imm (r : Raw) (b v : Nat) : Word :=
  signExtend (8 * r.imx.length + b) (r.imx.foldl (fun a p => a * 256 + p) 0 * 2 ^ b + v)

def scopeOf : Nat → Scope
  | 0 => .th | 1 => .st | 2 => .ac | 3 => .ha | 4 => .pk | _ => .sy
def orderOf : Nat → MemOrder
  | 0 => .none | 1 => .acq | 2 => .rel | _ => .ar
def policyOf : Nat → Policy
  | 0 => .page | 1 => .nal | 2 => .keep | _ => .wt
/-- The ORD payload (Table 03-3, R76). -/
def ordOf (p : Nat) : OrdQ := ⟨scopeOf (p / 32), orderOf (p / 8 % 4), p / 4 % 2 == 1, policyOf (p % 4)⟩
def ord (r : Raw) : Option OrdQ := (r.kind 4).map ordOf

/-- The format codes of Table 02-1. -/
def fmtOf : Nat → Fmt
  | 0 => .i8 | 1 => .i16 | 2 => .i32 | 3 => .i64 | 4 => .n8 | 5 => .n16 | 6 => .n32 | 7 => .n64
  | 8 => .fp32 | 9 => .bf16 | 10 => .fp16 | 11 => .e4m3 | 12 => .e5m2 | 13 => .ds8 | 14 => .fa56 | _ => .m64
def fmt (r : Raw) : Option Fmt := (r.kind 5).map (fun p => fmtOf (p / 16))
def prd (r : Raw) : Option Prd := (r.kind 6).map (fun p => ⟨Fin.ofNat 8 (p / 32), p / 16 % 2 == 1⟩)

end Raw

/-- The encoding shapes of Table 03-5, each with the instruction that its operands make. -/
inductive Row
  | gbin (mk : GBin → Instr)
  | gun (mk : GUn → Instr)
  | gone (mk : GOne → Instr)
  | gtri (mk : GTri → Instr)
  | gimm (mk : GImm → Instr)
  | gshift (mk : GShift → Instr)
  | unit (i : Instr)
  | joff (mk : JOff → Instr)
  | mem (r : OrdRule) (q : PairRule) (mk : GMem → Instr)
  | lea (mk : GLea → Instr)
  | num (mk : Num8 → Instr)
  | csr (write : Bool) (mk : GCsr → Instr)
  | vbin (mk : VBin → Instr)
  | vun (mk : VUn → Instr)
  | vcmp (mk : VTri → Instr)
  | pbin (mk : PBin → Instr)
  | pun (mk : PUn → Instr)
  | pset (mk : PSet → Instr)
  | pcnt (mk : PCount → Instr)
  | vmem (r : OrdRule) (mk : VMem → Instr)
  | vgs (r : OrdRule) (mk : VGather → Instr)
  | vred (mk : VRed → Instr)
  | vext (mk : VExt → Instr)
  | vbcst (mk : VBcst → Instr)
  | vslide (mk : VSlide → Instr)
  | vset (mk : VSet → Instr)
  | vlen (mk : VLen → Instr)
  | viota (mk : VIota → Instr)
  | itri (mk : ITri → Instr)
  | azero (mk : AZero → Instr)
  | amem (r : OrdRule) (mk : AMem → Instr)
  | iig (mk : IIG → Instr)
  | ig (mk : IG → Instr)
  | igg (mk : IGG → Instr)
  | tadv (mk : TAdv → Instr)
  | mchol (mk : MChol → Instr)
  | ii (mk : II → Instr)
  | mrfn (mk : IIG → Instr)
  | mbin (mk : MBin → Instr)
  | mtri (mk : MTri → Instr)
  | mun (mk : MUn → Instr)
  | mcol (mk : MCol → Instr)
  | msum (mk : MSum → Instr)
  | mchk (mk : MChk → Instr)
  | mmam (mk : II → Instr)
  | pmem (r : OrdRule) (mk : PMem → Instr)
  | spawn (mk : Spawn → Instr)
  | spawn2 (q : PairRule) (mk : Spawn2 → Instr)
  | uord (r : OrdRule) (mk : UOrd → Instr)
  | gord (r : OrdRule) (mk : GOrd → Instr)
  | gbino (r : OrdRule) (mk : GBinO → Instr)
  | atom (q : PairRule) (fmxOk : Bool) (mk : Atom → Instr)
  | ymem (r : OrdRule) (mk : YMem → Instr)
  | ione (mk : IOne → Instr)

/-- How THR applies: not, optionally, or required (R70, R80). -/
inductive ThrUse
  | no | opt | req
  deriving DecidableEq, Repr

/-- What a field of the base word holds: an operand that RGX may widen, bits that it may not, or nothing (R69, R73). -/
inductive FieldUse
  | reg | bits | unused
  deriving DecidableEq, Repr

/-- The applicable prefix words of a shape (the Prefixes column of Table 03-5) and its fields' use. -/
structure Rules where
  x : FieldUse := .unused
  y : FieldUse := .unused
  thr : ThrUse := .no
  imxMin : Nat := 0
  imxMax : Nat := 0
  ord : OrdRule := .absent
  fmx : Bool := false
  prd : Bool := false

/-- The rules of a shape; `thr` tells whether THR is present (on the SPAWN family, IMX gives the label and THR excludes it). -/
def Row.rules (thr : Bool) : Row → Rules
  | .gbin _ => { x := .reg, y := .reg, thr := .opt }
  | .gun _ => { x := .reg, y := .reg }
  | .gone _ => { x := .reg }
  | .gtri _ => { x := .reg, y := .reg, thr := .req }
  | .gimm _ => { x := .reg, y := .bits, imxMax := 4 }
  | .gshift _ => { x := .reg, y := .bits, imxMax := 1 }
  | .unit _ => {}
  | .joff _ => { x := .bits, y := .bits, imxMax := 4 }
  | .mem r _ _ => { x := .reg, y := .reg, thr := .opt, imxMax := 4, ord := r }
  | .lea _ => { x := .reg, y := .reg, thr := .opt, imxMax := 4 }
  | .num _ => { x := .bits, y := .bits }
  | .csr _ _ => { x := .reg, y := .bits, imxMax := 4 }
  | .vbin _ => { x := .reg, y := .reg, thr := .opt, fmx := true, prd := true }
  | .vun _ => { x := .reg, y := .reg, fmx := true, prd := true }
  | .vcmp _ => { x := .reg, y := .reg, thr := .req, fmx := true, prd := true }
  | .pbin _ => { x := .reg, y := .reg, thr := .opt }
  | .pun _ => { x := .reg, y := .reg }
  | .pset _ => { x := .reg, y := .reg }
  | .pcnt _ => { x := .reg, y := .reg }
  | .vmem r _ => { x := .reg, y := .reg, thr := .opt, imxMax := 4, ord := r, fmx := true, prd := true }
  | .vgs r _ => { x := .reg, y := .reg, thr := .opt, imxMax := 4, ord := r, fmx := true, prd := true }
  | .vred _ => { x := .reg, y := .reg, thr := .opt, fmx := true, prd := true }
  | .vext _ => { x := .reg, y := .reg, thr := .opt, fmx := true }
  | .vbcst _ => { x := .reg, y := .reg, thr := .opt, fmx := true, prd := true }
  | .vslide _ => { x := .reg, y := .reg, thr := .opt, fmx := true, prd := true }
  | .vset _ => { x := .reg, y := .reg, fmx := true }
  | .vlen _ => { x := .reg, fmx := true }
  | .viota _ => { x := .reg, fmx := true }
  | .itri _ => { x := .reg, y := .reg, thr := .req }
  | .azero _ => { x := .reg, y := .bits }
  | .amem r _ => { x := .reg, y := .reg, thr := .opt, imxMax := 4, ord := r }
  | .iig _ => { x := .reg, y := .reg, thr := .req }
  | .ig _ => { x := .reg, y := .reg }
  | .igg _ => { x := .reg, y := .reg, thr := .opt }
  | .tadv _ => { x := .reg, y := .reg, thr := .opt, imxMax := 4 }
  | .mchol _ => { x := .reg, thr := .opt }
  | .ii _ => { x := .reg, y := .reg }
  | .mrfn _ => { x := .reg, y := .reg, thr := .req }
  | .mbin _ => { x := .reg, y := .reg, thr := .opt, prd := true }
  | .mtri _ => { x := .reg, y := .reg, thr := .req, prd := true }
  | .mun _ => { x := .reg, y := .reg, prd := true }
  | .mcol _ => { x := .reg, y := .reg, thr := .opt, prd := true }
  | .msum _ => { x := .reg, y := .reg, thr := .opt, prd := true }
  | .mchk _ => { x := .reg, y := .reg, prd := true }
  | .mmam _ => { y := .reg, thr := .req }
  | .pmem r _ => { y := .reg, thr := .opt, imxMax := 4, ord := r }
  | .spawn _ => { x := .reg, thr := .opt, imxMin := if thr then 0 else 1, imxMax := if thr then 0 else 4 }
  | .spawn2 _ _ => { x := .reg, y := .reg, thr := .opt, imxMin := if thr then 0 else 1, imxMax := if thr then 0 else 4 }
  | .uord r _ => { ord := r }
  | .gord r _ => { x := .reg, ord := r }
  | .gbino r _ => { x := .reg, y := .reg, thr := .opt, ord := r }
  | .atom _ f _ => { x := .reg, y := .reg, thr := .req, imxMax := 4, ord := .any, fmx := f }
  | .ymem r _ => { y := .reg, imxMax := 4, ord := r }
  | .ione _ => { x := .reg }

/-- The rules of the base word beyond unused fields: even and quad registers (R115, R175, R232, R319), the mode of AZERO. -/
def Row.baseOk (r : Raw) : Row → Bool
  | .mem _ q _ => q.ok r.xG
  | .spawn2 q _ => q.ok r.yG
  | .atom q _ _ => q.ok r.xG
  | .azero _ => decide (r.y < 2)
  | .mrfn _ => decide (r.xI.val % 2 = 0) && decide (r.yI.val % 2 = 0)
  | _ => true

/-- A field required zero is zero: an unused field, and the copy of a field that RGX supplies (R69, R73). -/
def fieldOk (u : FieldUse) (rgx : Bool) (v : Nat) : Bool :=
  match u with
  | .reg => !rgx || v == 0
  | .bits => true
  | .unused => v == 0

/-- Prefix word `w` may stand on an instruction with the rules `u` (R79, REASON 7); `nth` counts the IMX words before it. -/
def applicable (u : Rules) (pageBits : Nat) (nth : Nat) (w : Word16) : Bool :=
  match kindOf w with
  | 0 => decide (nth < u.imxMax)
  | 1 => if payloadOf w < 128 then u.x == .reg else u.y == .reg
  | 2 => u.thr != .no
  | 3 => decide (0 < pageBits)
  | 4 => u.ord != .absent
  | 5 => u.fmx
  | 6 => u.prd
  | _ => false

/-- The index of the first prefix word that is not applicable. -/
def firstBad (u : Rules) (pg : Nat) : Nat → Nat → List Word16 → Option Nat
  | _, _, [] => none
  | i, nth, w :: ws =>
    if applicable u pg nth w then firstBad u pg (i + 1) (if kindOf w = 0 then nth + 1 else nth) ws else some i

/-- The RES0 payload bits of a prefix word are zero (R71, R74, R76, R81). MCOL alone has an FN extension: MEAN and SAMPLE need
Z to be `g0`, code 9. -/
def payloadOk (row : Row) (u : Rules) (w : Word16) : Bool :=
  let p := payloadOf w
  match kindOf w with
  | 0 => match row with
    | .gshift _ => decide (p < 2)
    | _ => true
  | 2 => match row with
    | .mcol _ => decide (p % 16 < 4) && (decide (p % 4 = 1 ∨ p % 4 = 2) || p / 16 == 9)
    | _ => p % 16 == 0
  | 4 => decide (p / 32 < 6) && u.ord.ok (Raw.ordOf p)
  | 5 => p % 16 == 0
  | 6 => p % 16 == 0
  | _ => true

def firstRes0 (row : Row) (u : Rules) : Nat → List Word16 → Option Nat
  | _, [] => none
  | i, w :: ws => if payloadOk row u w then firstRes0 row u (i + 1) ws else some i

/-- The CSR an RDC or WRC names (R129): assigned, and writable for WRC. -/
def csrTable : List Csr :=
  [.flags, .ten, .rmode, .vt, .vl, .fmtw, .sclp, .mmode, .mrho, .mseed, .ttag, .framep, .loc, .tbm, .cyc, .rank, .gsz, .time,
   .status, .epc, .ecause, .einfo, .eva, .tvec, .gwin, .vwin, .rcbp, .ptbr, .liveb, .keyt, .sscratch, .frec,
   .ctxn, .bgate, .haltg, .tracec]
def csrAt (v : Word) : Option Csr := csrTable.find? (fun c => w64 c.addr == v)

/-- The operands of the words in a shape that accepts them; `none` for a CSR address that names no register. -/
def Row.build (r : Raw) : Row → Option Instr
  | .gbin mk => some (mk ⟨r.xG, r.yG, r.zG⟩)
  | .gun mk => some (mk ⟨r.xG, r.yG⟩)
  | .gone mk => some (mk ⟨r.xG⟩)
  | .gtri mk => some (mk ⟨r.xG, r.yG, r.zG!⟩)
  | .gimm mk => some (mk ⟨r.xG, r.imm 7 (r.y * 8 + r.fn)⟩)
  | .gshift mk => some (mk ⟨r.xG, Fin.ofNat 64 (r.imx.headD 0 % 2 * 32 + r.fn % 2 * 16 + r.y)⟩)
  | .unit i => some i
  | .joff mk => some (mk ⟨r.imm 11 (r.x * 128 + r.y * 8 + r.fn)⟩)
  | .mem _ _ mk => some (mk ⟨r.xG, r.yG, r.zG, r.imm 0 0, r.ord⟩)
  | .lea mk => some (mk ⟨r.xG, r.yG, r.zG, r.imm 0 0⟩)
  | .num mk => some (mk ⟨BitVec.ofNat 8 (r.x * 16 + r.y)⟩)
  | .csr write mk =>
    match csrAt (r.imm 4 r.y) with
    | some c => if write && c.readOnly then none else some (mk ⟨r.xG, c⟩)
    | none => none
  | .vbin mk => some (mk ⟨r.xI, r.yI, r.zI, r.fmt, r.prd⟩)
  | .vun mk => some (mk ⟨r.xI, r.yI, r.fmt, r.prd⟩)
  | .vcmp mk => some (mk ⟨r.xI, r.yI, r.zI!, r.fmt, r.prd⟩)
  | .pbin mk => some (mk ⟨r.xI, r.yI, r.zI⟩)
  | .pun mk => some (mk ⟨r.xI, r.yI⟩)
  | .pset mk => some (mk ⟨r.xI, r.yG⟩)
  | .pcnt mk => some (mk ⟨r.xG, r.yI⟩)
  | .vmem _ mk => some (mk ⟨r.xI, r.yG, r.zG, r.imm 0 0, r.ord, r.fmt, r.prd⟩)
  | .vgs _ mk => some (mk ⟨r.xI, r.yG, r.zI, r.imm 0 0, r.ord, r.fmt, r.prd⟩)
  | .vred mk => some (mk ⟨r.xG, r.yI, r.zG, r.fmt, r.prd⟩)
  | .vext mk => some (mk ⟨r.xG, r.yI, r.zG, r.fmt⟩)
  | .vbcst mk => some (mk ⟨r.xI, r.yG, r.zG, r.fmt, r.prd⟩)
  | .vslide mk => some (mk ⟨r.xI, match r.zG with
      | none => .own r.yG
      | some d => .other r.yI d, r.fmt, r.prd⟩)
  | .vset mk => some (mk ⟨r.xG, r.yG, r.fmt⟩)
  | .vlen mk => some (mk ⟨r.xG, r.fmt⟩)
  | .viota mk => some (mk ⟨r.xI, r.fmt⟩)
  | .itri mk => some (mk ⟨r.xI, r.yI, r.zI!⟩)
  | .azero mk => some (mk ⟨r.xI, r.y == 1⟩)
  | .amem _ mk => some (mk ⟨r.xI, r.yG, r.zG, r.imm 0 0, r.ord⟩)
  | .iig mk => some (mk ⟨r.xI, r.yI, r.zG!⟩)
  | .ig mk => some (mk ⟨r.xI, r.yG⟩)
  | .igg mk => some (mk ⟨r.xI, r.yG, r.zG⟩)
  | .tadv mk => some (mk ⟨r.xI, r.yG, r.zG, r.imm 0 0⟩)
  | .mchol mk => some (mk ⟨r.xI, r.zG⟩)
  | .ii mk => some (mk ⟨r.xI, r.yI⟩)
  | .mrfn mk => some (mk ⟨r.xI, r.yI, r.zG!⟩)
  | .mbin mk => some (mk ⟨r.xI, r.yI, r.zI, r.prd⟩)
  | .mtri mk => some (mk ⟨r.xI, r.yI, r.zI!, r.prd⟩)
  | .mun mk => some (mk ⟨r.xI, r.yI, r.prd⟩)
  | .mcol mk => some (mk ⟨r.xI, r.yI, r.zG.map (fun z => ((match r.ext % 4 with
      | 0 => .mean
      | 1 => .upper
      | 2 => .lower
      | _ => .sample : ColMode), z)), r.prd⟩)
  | .msum mk => some (mk ⟨r.xG, r.yI, r.zG, r.prd⟩)
  | .mchk mk => some (mk ⟨r.xG, r.yI, r.prd⟩)
  | .mmam mk => some (mk ⟨r.yI, r.zI!⟩)
  | .pmem _ mk => some (mk ⟨r.yG, r.zG, r.imm 0 0, r.ord⟩)
  | .spawn mk => some (mk ⟨r.xG, match r.zG with
      | none => .label (r.imm 0 0)
      | some z => .reg z⟩)
  | .spawn2 _ mk => some (mk ⟨r.xG, r.yG, match r.zG with
      | none => .label (r.imm 0 0)
      | some z => .reg z⟩)
  | .uord _ mk => some (mk ⟨r.ord⟩)
  | .gord _ mk => some (mk ⟨r.xG, r.ord⟩)
  | .gbino _ mk => some (mk ⟨r.xG, r.yG, r.zG, r.ord⟩)
  | .atom _ _ mk => some (mk ⟨r.xG, r.yG, r.zG!, r.imm 0 0, r.ord, r.fmt⟩)
  | .ymem _ mk => some (mk ⟨r.yG, r.imm 0 0, r.ord⟩)
  | .ione mk => some (mk ⟨r.xI⟩)

/-- Table 03-5, page 0: the majors from 0 upward, each a list over FN from 0 upward. -/
def opcodePage0 : List (List Row) :=
  [
    [.gbin .add, .gbin .sub, .gbin .and, .gbin .or, .gbin .xor, .gbin .shl, .gbin .shr, .gbin .sra],
    [.gbin .mul, .gbin .mulh, .gbin .mulhn, .gbin .min, .gbin .max, .gbin .minn, .gbin .maxn, .gun .not],
    [.gun .mov, .gun .sxw, .gun .zxw, .gun .sxb, .gun .sxh, .gun .clz, .gun .popc, .gun .rev],
    [.gimm .movi, .gimm .movi, .gimm .movi, .gimm .movi, .gimm .movi, .gimm .movi, .gimm .movi, .gimm .movi],
    [.gimm .addi, .gimm .addi, .gimm .addi, .gimm .addi, .gimm .addi, .gimm .addi, .gimm .addi, .gimm .addi],
    [.gshift .shli, .gshift .shli, .gshift .shri, .gshift .shri, .gshift .srai, .gshift .srai, .gshift .rori, .gshift .rori],
    [.gbin .ceq, .gbin .cne, .gbin .clt, .gbin .cge, .gbin .cltn, .gbin .cgen, .gbin .tst],
    [.gimm .bnz, .gimm .bnz, .gimm .bnz, .gimm .bnz, .gimm .bnz, .gimm .bnz, .gimm .bnz, .gimm .bnz],
    [.gimm .bz, .gimm .bz, .gimm .bz, .gimm .bz, .gimm .bz, .gimm .bz, .gimm .bz, .gimm .bz],
    [.gone .jr, .gone .callr, .unit .ret],
    [.joff .j, .joff .j, .joff .j, .joff .j, .joff .j, .joff .j, .joff .j, .joff .j],
    [.joff .call, .joff .call, .joff .call, .joff .call, .joff .call, .joff .call, .joff .call, .joff .call],
    [.mem .load .single .ldb, .mem .load .single .ldh, .mem .load .single .ldw, .mem .load .single .ldd, .mem .load .single .ldbs, .mem .load .single .ldhs, .mem .load .single .ldws, .mem .load .pair .ldq],
    [.mem .store .single .stb, .mem .store .single .sth, .mem .store .single .stw, .mem .store .single .std, .mem .store .pair .stq],
    [.gtri .selnz, .gtri .selz],
    [.lea .lea1, .lea .lea2, .lea .lea4, .lea .lea8, .lea .lea16],
    [.unit .nop, .unit .yield, .unit .trapf, .gone .flagr, .gone .flagc, .num .sysc, .num .bkpt],
    [.csr false .rdc, .csr true .wrc, .gone .tmark]]

/-- Table 03-5, page 1: the majors from 0 upward, each a list over FN from 0 upward. -/
def opcodePage1 : List (List Row) :=
  [
    [.gbin .div, .gbin .divn, .gbin .rem, .gbin .remn],
    [.gbin .bfx, .gbin .bfxn, .gbin .bfi, .gbin .rol, .gbin .ror, .gun .ctz],
    [.gbin .fadd, .gbin .fsub, .gbin .fmul, .gbin .fdiv, .gbin .fmin, .gbin .fmax, .gun .fsqrt, .gun .fabs],
    [.gtri .fma, .gtri .fms, .gtri .fnma, .gun .fneg],
    [.gbin .feq, .gbin .flt, .gbin .fle, .gbin .funo],
    [.gun .cvtif, .gun .cvtfi, .gun .cvtfb, .gun .cvtbf, .gun .cvtfh, .gun .cvthf]]

/-- Table 03-5, page 2: the majors from 0 upward, each a list over FN from 0 upward. -/
def opcodePage2 : List (List Row) :=
  [
    [.vbin .vadd, .vbin .vsub, .vbin .vmul, .vbin .vmin, .vbin .vmax, .vbin .vand, .vbin .vor, .vbin .vxor],
    [.vbin .vfma, .vbin .vfms, .vun .vabs, .vun .vneg, .vbin .vshl, .vbin .vshr, .vbin .vsra, .vbin .vdiv],
    [.vcmp .vceq, .vcmp .vcne, .vcmp .vclt, .vcmp .vcle, .vcmp .vcgt, .vcmp .vcge],
    [.pbin .pand, .pbin .por, .pbin .pxor, .pun .pnot, .pset .pset, .pcnt .pcnt, .pcnt .pfirst],
    [.vmem .load .vld, .vmem .store .vst, .vmem .load .vlds, .vmem .store .vsts, .vgs .load .vgath, .vgs .store .vscat, .vmem .load .vldb],
    [.vred .vrsum, .vred .vrmax, .vred .vrmin, .vext .vext, .vbcst .vbcst, .vbin .vsel, .vbin .vperm, .vslide .vslide],
    [.vun .vcvt, .vun .vpack, .vun .vunpk, .vun .vqds, .vun .vexp, .vun .vrcp, .vun .vrsq, .vun .verf],
    [.vset .vsett, .vlen .vlen, .viota .viota]]

/-- Table 03-5, page 3: the majors from 0 upward, each a list over FN from 0 upward. -/
def opcodePage3 : List (List Row) :=
  [
    [.itri .mma, .itri .mmaz, .itri .mmah, .itri .mmazh],
    [.gone .aacq, .unit .arel, .azero .azero, .amem .load .aload, .amem .store .astore, .iig .arowv, .iig .avrow, .ig .ascale],
    [.igg .tset, .igg .tget, .tadv .tadv, .igg .tshape],
    [.gone .mwait, .gone .mstat],
    [.mchol .mchol, .ii .mtrsl, .ii .mtrsu, .mrfn .mrfn]]

/-- Table 03-5, page 4: the majors from 0 upward, each a list over FN from 0 upward. -/
def opcodePage4 : List (List Row) :=
  [
    [.mbin .madd, .mbin .msub, .mbin .mmul, .mtri .mscl, .mtri .maff, .mun .mneg],
    [.mun .mrelu, .mun .mexp, .mun .msig, .mun .msqr],
    [.mbin .mmk, .mun .mmean, .mun .mvar, .mcol .mcol, .msum .msum, .mchk .mchk],
    [.mmam .mmam, .pmem .store .mastm, .pmem .load .maldm]]

/-- Table 03-5, page 5: the majors from 0 upward, each a list over FN from 0 upward. -/
def opcodePage5 : List (List Row) :=
  [
    [.spawn .spawn, .spawn2 .single .spawna, .spawn2 .pair .spawnf],
    [.unit .sync, .gone .syncq, .gone .syncc],
    [.gun .falloc, .gone .ffree, .pmem .counter .jinit, .mem .counter .single .jadd, .gun .pub, .ig .tname, .gone .tdrop],
    [.unit .tend, .gone .tabort],
    [.gbin .rlaunch, .gone .rwait, .gun .rquery],
    [.uord .any .gbar, .gord .release .gbara, .gord .acquire .gbarw, .gone .grank, .gone .gsize],
    [.gbino .release .donate]]

/-- Table 03-5, page 6: the majors from 0 upward, each a list over FN from 0 upward. -/
noncomputable def opcodePage6 : List (List Row) :=
  [
    [.atom .single true .aadd, .atom .single true .aand, .atom .single true .aor, .atom .single true .axor, .atom .single true .amin, .atom .single true .amax, .atom .single true .aswp, .atom .pair true .acas],
    [.atom .quad false .acas2, .atom .single true .abinc, .atom .single true .abdec, .atom .single true .afadd, .atom .single true .amadd],
    [.uord .fence .fence, .uord .fence .fencee, .ymem .bare .flush, .ymem .bare .inval, .ymem .prefetch .pref, .unit .tbmc],
    [.mem .orderless .single .binit, .mem .release .single .barr, .mem .acquire .single .bwait, .mem .orderless .single .bexp, .mem .acquire .single .btest]]

/-- Table 03-5, page 7: the majors from 0 upward, each a list over FN from 0 upward. -/
noncomputable def opcodePage7 : List (List Row) :=
  [
    [.mem .release .single .copy, .mem .absent .single .ctset, .mem .acquire .single .cwm, .mem .acquire .single .cwait],
    [.ione .tfpin, .ione .tfrel]]

/-- Table 03-5, page 8: the majors from 0 upward, each a list over FN from 0 upward. -/
noncomputable def opcodePage8 : List (List Row) :=
  [
    [.unit .eret, .unit .halt, .gone .repart, .gun .ctxsave, .gone .ctxload, .gun .purge, .gun .tlbinv]]

/-- Table 03-5. -/
noncomputable def opcodePage : Nat → List (List Row)
  | 0 => opcodePage0
  | 1 => opcodePage1
  | 2 => opcodePage2
  | 3 => opcodePage3
  | 4 => opcodePage4
  | 5 => opcodePage5
  | 6 => opcodePage6
  | 7 => opcodePage7
  | 8 => opcodePage8
  | _ => []

/-- The checks of R79 on the words of one instruction, in its order, and the instruction they name. -/
noncomputable def decodeRaw (r : Raw) : Except Illop Instr :=
  let n := r.ps.length
  match findKind 3 0 r.ps with
  | some (pg, i) => if pg = 0 ∨ 8 < pg then .error ⟨4, i⟩ else decodeAt pg n
  | none => decodeAt 0 n
where
  decodeAt (pg n : Nat) : Except Illop Instr :=
    match (opcodePage pg)[r.maj]? with
    | none => .error ⟨5, n⟩
    | some fns =>
      match fns[r.fn]? with
      | none => .error ⟨6, n⟩
      | some row => decodeRow pg n row
  decodeRow (pg n : Nat) (row : Row) : Except Illop Instr :=
    let u := row.rules r.z.isSome
    match firstBad u pg 0 0 r.ps with
    | some i => .error ⟨7, i⟩
    | none =>
      if (u.thr = .req ∧ r.z.isNone) ∨ r.imx.length < u.imxMin then .error ⟨9, n⟩
      else match firstRes0 row u 0 r.ps with
        | some i => .error ⟨8, i⟩
        | none =>
          if fieldOk u.x r.rgxX.isSome r.x && fieldOk u.y r.rgxY.isSome r.y && row.baseOk r then
            match row.build r with
            | some i => .ok i
            | none => .error ⟨10, n⟩
          else .error ⟨8, n⟩

/-- What decoding a list of words gives: an instruction and how many words it took, an illegal encoding, or too few words. -/
inductive Decoded
  | instr (i : Instr) (words : Nat)
  | illegal (e : Illop)
  | short
  deriving DecidableEq, Repr

/-- Decode from the words at the PC (R79). -/
noncomputable def decodeFrom (ps : List Word16) : List Word16 → Decoded
  | [] => .short
  | w :: ws =>
    match scanStep ps w with
    | .more ps' => decodeFrom ps' ws
    | .bad e => .illegal e
    | .base ps' b =>
      match decodeRaw ⟨ps', b⟩ with
      | .ok i => .instr i (ps'.length + 1)
      | .error e => .illegal e

noncomputable def decode (ws : List Word16) : Decoded := decodeFrom [] ws

/-- A word pair or word of spec/opcode_table.json as the hardware's words, first word first: the table writes the page's
prefix word above the base word, so an upper half that is a prefix word while the lower is none comes first; the words above
are zeros. -/
def tableWords (nbits w : Nat) : List Word16 :=
  let lo : Word16 := BitVec.ofNat 16 w
  let hi : Word16 := BitVec.ofNat 16 (w / 2 ^ 16)
  if nbits ≤ 16 then [lo, 0, 0, 0, 0]
  else if isPfx hi && !isPfx lo then [hi, lo, 0, 0, 0]
  else [lo, hi, 0, 0, 0]

noncomputable def decodeTableWord (nbits w : Nat) : Option Instr :=
  match decode (tableWords nbits w) with
  | .instr i _ => some i
  | _ => none

/-! The encoder. -/

/-- The parts of an encoding: the base word's place in Table 03-5, its fields, and the payloads of its prefix words. -/
structure Parts where
  page : Nat
  maj : Nat
  fn : Nat
  x : Nat := 0
  y : Nat := 0
  thr : Option Nat := none
  rgx : Option Nat := none
  ord : Option Nat := none
  fmx : Option Nat := none
  prd : Option Nat := none
  imx : List Nat := []

/-- A prefix word (Table 03-2). -/
def pfxWord (kind payload : Nat) : Word16 := BitVec.ofNat 16 (31 * 2 ^ 11 + kind * 2 ^ 8 + payload)

def optWord (kind : Nat) : Option Nat → List Word16
  | none => []
  | some p => [pfxWord kind p]

/-- The prefix words in the order PAG, THR, RGX, ORD, FMX, PRD, IMX (R85), then the base word. -/
def Parts.words (e : Parts) : List Word16 :=
  optWord 3 (if e.page = 0 then none else some e.page) ++ optWord 2 e.thr ++ optWord 1 e.rgx ++ optWord 4 e.ord ++
  optWord 5 e.fmx ++ optWord 6 e.prd ++ e.imx.map (pfxWord 0) ++
  [BitVec.ofNat 16 (e.maj * 2 ^ 11 + e.x * 2 ^ 7 + e.y * 2 ^ 3 + e.fn)]

/-- The direct code of a G register, 0 where RGX supplies it (R69, R73). -/
def GReg.code : GReg → Nat
  | .o i => i.val
  | .lat => 8
  | .g i => if i.val < 7 then i.val + 9 else 0
def GReg.index : GReg → Nat
  | .g i => i.val
  | _ => 0
/-- The RGX payload of the field that needs one: bit 7 names Y (Table 03-3). -/
def rgxOf (xNeeds : Bool) (x : Nat) (yNeeds : Bool) (y : Nat) : Option Nat :=
  if xNeeds then some x else if yNeeds then some (128 + y) else none
def rgxGG (x y : GReg) : Option Nat := rgxOf (!x.direct) x.index (!y.direct) y.index
def rgxG (x : GReg) : Option Nat := rgxOf (!x.direct) x.index false 0
def rgxYG (y : GReg) : Option Nat := rgxOf false 0 (!y.direct) y.index
def rgxII (x y : Idx) : Option Nat := rgxOf (!idxDirect x) x.val (!idxDirect y) y.val
def rgxI (x : Idx) : Option Nat := rgxOf (!idxDirect x) x.val false 0
def rgxIG (x : Idx) (y : GReg) : Option Nat := rgxOf (!idxDirect x) x.val (!y.direct) y.index
def rgxGI (x : GReg) (y : Idx) : Option Nat := rgxOf (!x.direct) x.index (!idxDirect y) y.val
def idxCode (i : Idx) : Nat := if idxDirect i then i.val else 0
def thrG (z : Option GReg) : Option Nat := z.map (fun z => z.code * 16)
def thrI (z : Option Idx) : Option Nat := z.map (fun z => z.val * 16)

def Scope.code : Scope → Nat
  | .th => 0 | .st => 1 | .ac => 2 | .ha => 3 | .pk => 4 | .sy => 5
def MemOrder.code : MemOrder → Nat
  | .none => 0 | .acq => 1 | .rel => 2 | .ar => 3
def Policy.code : Policy → Nat
  | .page => 0 | .nal => 1 | .keep => 2 | .wt => 3
def OrdQ.code (q : OrdQ) : Nat := q.scope.code * 32 + q.order.code * 8 + q.eng.toNat * 4 + q.policy.code
def Fmt.code : Fmt → Nat
  | .i8 => 0 | .i16 => 1 | .i32 => 2 | .i64 => 3 | .n8 => 4 | .n16 => 5 | .n32 => 6 | .n64 => 7
  | .fp32 => 8 | .bf16 => 9 | .fp16 => 10 | .e4m3 => 11 | .e5m2 => 12 | .ds8 => 13 | .fa56 => 14 | .m64 => 15
def ordPart (q : Option OrdQ) : Option Nat := q.map OrdQ.code
def fmxPart (f : Option Fmt) : Option Nat := f.map (fun f => f.code * 16)
def prdPart (p : Option Prd) : Option Nat := p.map (fun p => p.p.val * 32 + p.inv.toNat * 16)
def ColMode.code : ColMode → Nat
  | .mean => 0 | .upper => 1 | .lower => 2 | .sample => 3

/-- The low `8 n + b` bits of an immediate. -/
def immBits (n b : Nat) (v : Word) : Nat := v.toNat % 2 ^ (8 * n + b)
/-- The payloads of `n` IMX words, the most significant first, and the base bits (R72). -/
def immPayloads (n b : Nat) (v : Word) : List Nat :=
  (List.range n).map (fun k => immBits n b v / 2 ^ (b + 8 * (n - 1 - k)) % 256)
def immBase (n b : Nat) (v : Word) : Nat := immBits n b v % 2 ^ b
def immPart (v : Word) : List Nat := immPayloads (immWords 0 v) 0 v

def GBin.parts (p m f : Nat) (a : GBin) : Parts :=
  { page := p, maj := m, fn := f, x := a.x.code, y := a.y.code, thr := thrG a.z, rgx := rgxGG a.x a.y }
def GUn.parts (p m f : Nat) (a : GUn) : Parts :=
  { page := p, maj := m, fn := f, x := a.x.code, y := a.y.code, rgx := rgxGG a.x a.y }
def GOne.parts (p m f : Nat) (a : GOne) : Parts :=
  { page := p, maj := m, fn := f, x := a.x.code, rgx := rgxG a.x }
def GTri.parts (p m f : Nat) (a : GTri) : Parts :=
  { page := p, maj := m, fn := f, x := a.x.code, y := a.y.code, thr := thrG (some a.z), rgx := rgxGG a.x a.y }
def GImm.parts (p m _f : Nat) (a : GImm) : Parts :=
  let n := immWords 7 a.imm
  { page := p, maj := m, fn := immBase n 7 a.imm % 8, x := a.x.code, y := immBase n 7 a.imm / 8, rgx := rgxG a.x,
    imx := immPayloads n 7 a.imm }
def GShift.parts (p m f : Nat) (a : GShift) : Parts :=
  { page := p, maj := m, fn := f * 2 + a.amount.val / 16 % 2, x := a.x.code, y := a.amount.val % 16, rgx := rgxG a.x,
    imx := if a.amount.val < 32 then [] else [1] }
def JOff.parts (p m _f : Nat) (a : JOff) : Parts :=
  let n := immWords 11 a.off
  let b := immBase n 11 a.off
  { page := p, maj := m, fn := b % 8, x := b / 128, y := b / 8 % 16, imx := immPayloads n 11 a.off }
def GMem.parts (p m f : Nat) (a : GMem) : Parts :=
  { page := p, maj := m, fn := f, x := a.x.code, y := a.y.code, thr := thrG a.z, rgx := rgxGG a.x a.y, ord := ordPart a.ord,
    imx := immPart a.imm }
def PMem.parts (p m f : Nat) (a : PMem) : Parts :=
  { page := p, maj := m, fn := f, y := a.y.code, thr := thrG a.z, rgx := rgxYG a.y, ord := ordPart a.ord,
    imx := immPart a.imm }
def YMem.parts (p m f : Nat) (a : YMem) : Parts :=
  { page := p, maj := m, fn := f, y := a.y.code, rgx := rgxYG a.y, ord := ordPart a.ord, imx := immPart a.imm }
def GLea.parts (p m f : Nat) (a : GLea) : Parts :=
  { page := p, maj := m, fn := f, x := a.x.code, y := a.y.code, thr := thrG a.z, rgx := rgxGG a.x a.y, imx := immPart a.imm }
def Num8.parts (p m f : Nat) (a : Num8) : Parts :=
  { page := p, maj := m, fn := f, x := a.n.toNat / 16, y := a.n.toNat % 16 }
def GCsr.parts (p m f : Nat) (a : GCsr) : Parts :=
  let v := w64 a.csr.addr
  let n := immWords 4 v
  { page := p, maj := m, fn := f, x := a.x.code, y := immBase n 4 v, rgx := rgxG a.x, imx := immPayloads n 4 v }
def VBin.parts (p m f : Nat) (a : VBin) : Parts :=
  { page := p, maj := m, fn := f, x := idxCode a.x, y := idxCode a.y, thr := thrI a.z, rgx := rgxII a.x a.y,
    fmx := fmxPart a.fmt, prd := prdPart a.prd }
def VUn.parts (p m f : Nat) (a : VUn) : Parts :=
  { page := p, maj := m, fn := f, x := idxCode a.x, y := idxCode a.y, rgx := rgxII a.x a.y, fmx := fmxPart a.fmt,
    prd := prdPart a.prd }
def VTri.parts (p m f : Nat) (a : VTri) : Parts :=
  { page := p, maj := m, fn := f, x := idxCode a.x, y := idxCode a.y, thr := thrI (some a.z), rgx := rgxII a.x a.y,
    fmx := fmxPart a.fmt, prd := prdPart a.prd }
def PBin.parts (p m f : Nat) (a : PBin) : Parts :=
  { page := p, maj := m, fn := f, x := idxCode a.x, y := idxCode a.y, thr := thrI a.z, rgx := rgxII a.x a.y }
def PUn.parts (p m f : Nat) (a : PUn) : Parts :=
  { page := p, maj := m, fn := f, x := idxCode a.x, y := idxCode a.y, rgx := rgxII a.x a.y }
def PSet.parts (p m f : Nat) (a : PSet) : Parts :=
  { page := p, maj := m, fn := f, x := idxCode a.x, y := a.y.code, rgx := rgxIG a.x a.y }
def PCount.parts (p m f : Nat) (a : PCount) : Parts :=
  { page := p, maj := m, fn := f, x := a.x.code, y := idxCode a.y, rgx := rgxGI a.x a.y }
def VMem.parts (p m f : Nat) (a : VMem) : Parts :=
  { page := p, maj := m, fn := f, x := idxCode a.x, y := a.y.code, thr := thrG a.z, rgx := rgxIG a.x a.y, ord := ordPart a.ord,
    fmx := fmxPart a.fmt, prd := prdPart a.prd, imx := immPart a.imm }
def VGather.parts (p m f : Nat) (a : VGather) : Parts :=
  { page := p, maj := m, fn := f, x := idxCode a.x, y := a.y.code, thr := thrI a.z, rgx := rgxIG a.x a.y, ord := ordPart a.ord,
    fmx := fmxPart a.fmt, prd := prdPart a.prd, imx := immPart a.imm }
def VRed.parts (p m f : Nat) (a : VRed) : Parts :=
  { page := p, maj := m, fn := f, x := a.x.code, y := idxCode a.y, thr := thrG a.z, rgx := rgxGI a.x a.y, fmx := fmxPart a.fmt,
    prd := prdPart a.prd }
def VExt.parts (p m f : Nat) (a : VExt) : Parts :=
  { page := p, maj := m, fn := f, x := a.x.code, y := idxCode a.y, thr := thrG a.z, rgx := rgxGI a.x a.y, fmx := fmxPart a.fmt }
def VBcst.parts (p m f : Nat) (a : VBcst) : Parts :=
  { page := p, maj := m, fn := f, x := idxCode a.x, y := a.y.code, thr := thrG a.z, rgx := rgxIG a.x a.y, fmx := fmxPart a.fmt,
    prd := prdPart a.prd }
def VSlide.parts (p m f : Nat) (a : VSlide) : Parts :=
  match a.src with
  | .own d =>
    { page := p, maj := m, fn := f, x := idxCode a.x, y := d.code, rgx := rgxIG a.x d, fmx := fmxPart a.fmt, prd := prdPart a.prd }
  | .other y d =>
    { page := p, maj := m, fn := f, x := idxCode a.x, y := idxCode y, thr := thrG (some d), rgx := rgxII a.x y,
      fmx := fmxPart a.fmt, prd := prdPart a.prd }
def VSet.parts (p m f : Nat) (a : VSet) : Parts :=
  { page := p, maj := m, fn := f, x := a.x.code, y := a.y.code, rgx := rgxGG a.x a.y, fmx := fmxPart a.fmt }
def VLen.parts (p m f : Nat) (a : VLen) : Parts :=
  { page := p, maj := m, fn := f, x := a.x.code, rgx := rgxG a.x, fmx := fmxPart a.fmt }
def VIota.parts (p m f : Nat) (a : VIota) : Parts :=
  { page := p, maj := m, fn := f, x := idxCode a.x, rgx := rgxI a.x, fmx := fmxPart a.fmt }
def IOne.parts (p m f : Nat) (a : IOne) : Parts :=
  { page := p, maj := m, fn := f, x := idxCode a.x, rgx := rgxI a.x }
def II.parts (p m f : Nat) (a : II) : Parts :=
  { page := p, maj := m, fn := f, x := idxCode a.x, y := idxCode a.y, rgx := rgxII a.x a.y }
/-- MMAM: its two tiles stand in the fields Y and Z (R186). -/
def II.partsMmam (p m f : Nat) (a : II) : Parts :=
  { page := p, maj := m, fn := f, y := idxCode a.x, thr := thrI (some a.y), rgx := rgxOf false 0 (!idxDirect a.x) a.x.val }
def ITri.parts (p m f : Nat) (a : ITri) : Parts :=
  { page := p, maj := m, fn := f, x := idxCode a.x, y := idxCode a.y, thr := thrI (some a.z), rgx := rgxII a.x a.y }
def IIG.parts (p m f : Nat) (a : IIG) : Parts :=
  { page := p, maj := m, fn := f, x := idxCode a.x, y := idxCode a.y, thr := thrG (some a.z), rgx := rgxII a.x a.y }
def IG.parts (p m f : Nat) (a : IG) : Parts :=
  { page := p, maj := m, fn := f, x := idxCode a.x, y := a.y.code, rgx := rgxIG a.x a.y }
def IGG.parts (p m f : Nat) (a : IGG) : Parts :=
  { page := p, maj := m, fn := f, x := idxCode a.x, y := a.y.code, thr := thrG a.z, rgx := rgxIG a.x a.y }
def TAdv.parts (p m f : Nat) (a : TAdv) : Parts :=
  { page := p, maj := m, fn := f, x := idxCode a.x, y := a.y.code, thr := thrG a.z, rgx := rgxIG a.x a.y, imx := immPart a.imm }
def AZero.parts (p m f : Nat) (a : AZero) : Parts :=
  { page := p, maj := m, fn := f, x := idxCode a.x, y := a.q56.toNat, rgx := rgxI a.x }
def AMem.parts (p m f : Nat) (a : AMem) : Parts :=
  { page := p, maj := m, fn := f, x := idxCode a.x, y := a.y.code, thr := thrG a.z, rgx := rgxIG a.x a.y, ord := ordPart a.ord,
    imx := immPart a.imm }
def MChol.parts (p m f : Nat) (a : MChol) : Parts :=
  { page := p, maj := m, fn := f, x := idxCode a.x, thr := thrG a.z, rgx := rgxI a.x }
def MBin.parts (p m f : Nat) (a : MBin) : Parts :=
  { page := p, maj := m, fn := f, x := idxCode a.x, y := idxCode a.y, thr := thrI a.z, rgx := rgxII a.x a.y, prd := prdPart a.prd }
def MTri.parts (p m f : Nat) (a : MTri) : Parts :=
  { page := p, maj := m, fn := f, x := idxCode a.x, y := idxCode a.y, thr := thrI (some a.z), rgx := rgxII a.x a.y,
    prd := prdPart a.prd }
def MUn.parts (p m f : Nat) (a : MUn) : Parts :=
  { page := p, maj := m, fn := f, x := idxCode a.x, y := idxCode a.y, rgx := rgxII a.x a.y, prd := prdPart a.prd }
def MCol.parts (p m f : Nat) (a : MCol) : Parts :=
  { page := p, maj := m, fn := f, x := idxCode a.x, y := idxCode a.y, thr := a.z.map (fun z => z.2.code * 16 + z.1.code),
    rgx := rgxII a.x a.y, prd := prdPart a.prd }
def MSum.parts (p m f : Nat) (a : MSum) : Parts :=
  { page := p, maj := m, fn := f, x := a.x.code, y := idxCode a.y, thr := thrG a.z, rgx := rgxGI a.x a.y, prd := prdPart a.prd }
def MChk.parts (p m f : Nat) (a : MChk) : Parts :=
  { page := p, maj := m, fn := f, x := a.x.code, y := idxCode a.y, rgx := rgxGI a.x a.y, prd := prdPart a.prd }
def Target.thr : Target → Option Nat
  | .label _ => none
  | .reg z => some (z.code * 16)
def Target.payloads : Target → List Nat
  | .label off => immPayloads (max 1 (immWords 0 off)) 0 off
  | .reg _ => []
def Spawn.parts (p m f : Nat) (a : Spawn) : Parts :=
  { page := p, maj := m, fn := f, x := a.x.code, thr := a.target.thr, rgx := rgxG a.x, imx := a.target.payloads }
def Spawn2.parts (p m f : Nat) (a : Spawn2) : Parts :=
  { page := p, maj := m, fn := f, x := a.x.code, y := a.y.code, thr := a.target.thr, rgx := rgxGG a.x a.y,
    imx := a.target.payloads }
def UOrd.parts (p m f : Nat) (a : UOrd) : Parts := { page := p, maj := m, fn := f, ord := ordPart a.ord }
def GOrd.parts (p m f : Nat) (a : GOrd) : Parts :=
  { page := p, maj := m, fn := f, x := a.x.code, rgx := rgxG a.x, ord := ordPart a.ord }
def GBinO.parts (p m f : Nat) (a : GBinO) : Parts :=
  { page := p, maj := m, fn := f, x := a.x.code, y := a.y.code, thr := thrG a.z, rgx := rgxGG a.x a.y, ord := ordPart a.ord }
def Atom.parts (p m f : Nat) (a : Atom) : Parts :=
  { page := p, maj := m, fn := f, x := a.x.code, y := a.y.code, thr := thrG (some a.z), rgx := rgxGG a.x a.y,
    ord := ordPart a.ord, fmx := fmxPart a.fmt, imx := immPart a.imm }

/-- The parts of an instruction's encoding: page, major and FN of Table 03-5 with its operands; an event has none. -/
def Instr.parts : Instr → Option Parts
  | .add a => some (a.parts 0 0 0)
  | .sub a => some (a.parts 0 0 1)
  | .and a => some (a.parts 0 0 2)
  | .or a => some (a.parts 0 0 3)
  | .xor a => some (a.parts 0 0 4)
  | .shl a => some (a.parts 0 0 5)
  | .shr a => some (a.parts 0 0 6)
  | .sra a => some (a.parts 0 0 7)
  | .mul a => some (a.parts 0 1 0)
  | .mulh a => some (a.parts 0 1 1)
  | .mulhn a => some (a.parts 0 1 2)
  | .min a => some (a.parts 0 1 3)
  | .max a => some (a.parts 0 1 4)
  | .minn a => some (a.parts 0 1 5)
  | .maxn a => some (a.parts 0 1 6)
  | .not a => some (a.parts 0 1 7)
  | .mov a => some (a.parts 0 2 0)
  | .sxw a => some (a.parts 0 2 1)
  | .zxw a => some (a.parts 0 2 2)
  | .sxb a => some (a.parts 0 2 3)
  | .sxh a => some (a.parts 0 2 4)
  | .clz a => some (a.parts 0 2 5)
  | .popc a => some (a.parts 0 2 6)
  | .rev a => some (a.parts 0 2 7)
  | .movi a => some (a.parts 0 3 0)
  | .addi a => some (a.parts 0 4 0)
  | .shli a => some (a.parts 0 5 0)
  | .shri a => some (a.parts 0 5 1)
  | .srai a => some (a.parts 0 5 2)
  | .rori a => some (a.parts 0 5 3)
  | .ceq a => some (a.parts 0 6 0)
  | .cne a => some (a.parts 0 6 1)
  | .clt a => some (a.parts 0 6 2)
  | .cge a => some (a.parts 0 6 3)
  | .cltn a => some (a.parts 0 6 4)
  | .cgen a => some (a.parts 0 6 5)
  | .tst a => some (a.parts 0 6 6)
  | .bnz a => some (a.parts 0 7 0)
  | .bz a => some (a.parts 0 8 0)
  | .jr a => some (a.parts 0 9 0)
  | .callr a => some (a.parts 0 9 1)
  | .ret => some { page := 0, maj := 9, fn := 2 }
  | .j a => some (a.parts 0 10 0)
  | .call a => some (a.parts 0 11 0)
  | .ldb a => some (a.parts 0 12 0)
  | .ldh a => some (a.parts 0 12 1)
  | .ldw a => some (a.parts 0 12 2)
  | .ldd a => some (a.parts 0 12 3)
  | .ldbs a => some (a.parts 0 12 4)
  | .ldhs a => some (a.parts 0 12 5)
  | .ldws a => some (a.parts 0 12 6)
  | .ldq a => some (a.parts 0 12 7)
  | .stb a => some (a.parts 0 13 0)
  | .sth a => some (a.parts 0 13 1)
  | .stw a => some (a.parts 0 13 2)
  | .std a => some (a.parts 0 13 3)
  | .stq a => some (a.parts 0 13 4)
  | .selnz a => some (a.parts 0 14 0)
  | .selz a => some (a.parts 0 14 1)
  | .lea1 a => some (a.parts 0 15 0)
  | .lea2 a => some (a.parts 0 15 1)
  | .lea4 a => some (a.parts 0 15 2)
  | .lea8 a => some (a.parts 0 15 3)
  | .lea16 a => some (a.parts 0 15 4)
  | .nop => some { page := 0, maj := 16, fn := 0 }
  | .yield => some { page := 0, maj := 16, fn := 1 }
  | .trapf => some { page := 0, maj := 16, fn := 2 }
  | .flagr a => some (a.parts 0 16 3)
  | .flagc a => some (a.parts 0 16 4)
  | .sysc a => some (a.parts 0 16 5)
  | .bkpt a => some (a.parts 0 16 6)
  | .rdc a => some (a.parts 0 17 0)
  | .wrc a => some (a.parts 0 17 1)
  | .tmark a => some (a.parts 0 17 2)
  | .div a => some (a.parts 1 0 0)
  | .divn a => some (a.parts 1 0 1)
  | .rem a => some (a.parts 1 0 2)
  | .remn a => some (a.parts 1 0 3)
  | .bfx a => some (a.parts 1 1 0)
  | .bfxn a => some (a.parts 1 1 1)
  | .bfi a => some (a.parts 1 1 2)
  | .rol a => some (a.parts 1 1 3)
  | .ror a => some (a.parts 1 1 4)
  | .ctz a => some (a.parts 1 1 5)
  | .fadd a => some (a.parts 1 2 0)
  | .fsub a => some (a.parts 1 2 1)
  | .fmul a => some (a.parts 1 2 2)
  | .fdiv a => some (a.parts 1 2 3)
  | .fmin a => some (a.parts 1 2 4)
  | .fmax a => some (a.parts 1 2 5)
  | .fsqrt a => some (a.parts 1 2 6)
  | .fabs a => some (a.parts 1 2 7)
  | .fma a => some (a.parts 1 3 0)
  | .fms a => some (a.parts 1 3 1)
  | .fnma a => some (a.parts 1 3 2)
  | .fneg a => some (a.parts 1 3 3)
  | .feq a => some (a.parts 1 4 0)
  | .flt a => some (a.parts 1 4 1)
  | .fle a => some (a.parts 1 4 2)
  | .funo a => some (a.parts 1 4 3)
  | .cvtif a => some (a.parts 1 5 0)
  | .cvtfi a => some (a.parts 1 5 1)
  | .cvtfb a => some (a.parts 1 5 2)
  | .cvtbf a => some (a.parts 1 5 3)
  | .cvtfh a => some (a.parts 1 5 4)
  | .cvthf a => some (a.parts 1 5 5)
  | .vadd a => some (a.parts 2 0 0)
  | .vsub a => some (a.parts 2 0 1)
  | .vmul a => some (a.parts 2 0 2)
  | .vmin a => some (a.parts 2 0 3)
  | .vmax a => some (a.parts 2 0 4)
  | .vand a => some (a.parts 2 0 5)
  | .vor a => some (a.parts 2 0 6)
  | .vxor a => some (a.parts 2 0 7)
  | .vfma a => some (a.parts 2 1 0)
  | .vfms a => some (a.parts 2 1 1)
  | .vabs a => some (a.parts 2 1 2)
  | .vneg a => some (a.parts 2 1 3)
  | .vshl a => some (a.parts 2 1 4)
  | .vshr a => some (a.parts 2 1 5)
  | .vsra a => some (a.parts 2 1 6)
  | .vdiv a => some (a.parts 2 1 7)
  | .vceq a => some (a.parts 2 2 0)
  | .vcne a => some (a.parts 2 2 1)
  | .vclt a => some (a.parts 2 2 2)
  | .vcle a => some (a.parts 2 2 3)
  | .vcgt a => some (a.parts 2 2 4)
  | .vcge a => some (a.parts 2 2 5)
  | .pand a => some (a.parts 2 3 0)
  | .por a => some (a.parts 2 3 1)
  | .pxor a => some (a.parts 2 3 2)
  | .pnot a => some (a.parts 2 3 3)
  | .pset a => some (a.parts 2 3 4)
  | .pcnt a => some (a.parts 2 3 5)
  | .pfirst a => some (a.parts 2 3 6)
  | .vld a => some (a.parts 2 4 0)
  | .vst a => some (a.parts 2 4 1)
  | .vlds a => some (a.parts 2 4 2)
  | .vsts a => some (a.parts 2 4 3)
  | .vgath a => some (a.parts 2 4 4)
  | .vscat a => some (a.parts 2 4 5)
  | .vldb a => some (a.parts 2 4 6)
  | .vrsum a => some (a.parts 2 5 0)
  | .vrmax a => some (a.parts 2 5 1)
  | .vrmin a => some (a.parts 2 5 2)
  | .vext a => some (a.parts 2 5 3)
  | .vbcst a => some (a.parts 2 5 4)
  | .vsel a => some (a.parts 2 5 5)
  | .vperm a => some (a.parts 2 5 6)
  | .vslide a => some (a.parts 2 5 7)
  | .vcvt a => some (a.parts 2 6 0)
  | .vpack a => some (a.parts 2 6 1)
  | .vunpk a => some (a.parts 2 6 2)
  | .vqds a => some (a.parts 2 6 3)
  | .vexp a => some (a.parts 2 6 4)
  | .vrcp a => some (a.parts 2 6 5)
  | .vrsq a => some (a.parts 2 6 6)
  | .verf a => some (a.parts 2 6 7)
  | .vsett a => some (a.parts 2 7 0)
  | .vlen a => some (a.parts 2 7 1)
  | .viota a => some (a.parts 2 7 2)
  | .mma a => some (a.parts 3 0 0)
  | .mmaz a => some (a.parts 3 0 1)
  | .mmah a => some (a.parts 3 0 2)
  | .mmazh a => some (a.parts 3 0 3)
  | .aacq a => some (a.parts 3 1 0)
  | .arel => some { page := 3, maj := 1, fn := 1 }
  | .azero a => some (a.parts 3 1 2)
  | .aload a => some (a.parts 3 1 3)
  | .astore a => some (a.parts 3 1 4)
  | .arowv a => some (a.parts 3 1 5)
  | .avrow a => some (a.parts 3 1 6)
  | .ascale a => some (a.parts 3 1 7)
  | .tset a => some (a.parts 3 2 0)
  | .tget a => some (a.parts 3 2 1)
  | .tadv a => some (a.parts 3 2 2)
  | .tshape a => some (a.parts 3 2 3)
  | .mwait a => some (a.parts 3 3 0)
  | .mstat a => some (a.parts 3 3 1)
  | .mchol a => some (a.parts 3 4 0)
  | .mtrsl a => some (a.parts 3 4 1)
  | .mtrsu a => some (a.parts 3 4 2)
  | .mrfn a => some (a.parts 3 4 3)
  | .madd a => some (a.parts 4 0 0)
  | .msub a => some (a.parts 4 0 1)
  | .mmul a => some (a.parts 4 0 2)
  | .mscl a => some (a.parts 4 0 3)
  | .maff a => some (a.parts 4 0 4)
  | .mneg a => some (a.parts 4 0 5)
  | .mrelu a => some (a.parts 4 1 0)
  | .mexp a => some (a.parts 4 1 1)
  | .msig a => some (a.parts 4 1 2)
  | .msqr a => some (a.parts 4 1 3)
  | .mmk a => some (a.parts 4 2 0)
  | .mmean a => some (a.parts 4 2 1)
  | .mvar a => some (a.parts 4 2 2)
  | .mcol a => some (a.parts 4 2 3)
  | .msum a => some (a.parts 4 2 4)
  | .mchk a => some (a.parts 4 2 5)
  | .mmam a => some (a.partsMmam 4 3 0)
  | .mastm a => some (a.parts 4 3 1)
  | .maldm a => some (a.parts 4 3 2)
  | .spawn a => some (a.parts 5 0 0)
  | .spawna a => some (a.parts 5 0 1)
  | .spawnf a => some (a.parts 5 0 2)
  | .sync => some { page := 5, maj := 1, fn := 0 }
  | .syncq a => some (a.parts 5 1 1)
  | .syncc a => some (a.parts 5 1 2)
  | .falloc a => some (a.parts 5 2 0)
  | .ffree a => some (a.parts 5 2 1)
  | .jinit a => some (a.parts 5 2 2)
  | .jadd a => some (a.parts 5 2 3)
  | .pub a => some (a.parts 5 2 4)
  | .tname a => some (a.parts 5 2 5)
  | .tdrop a => some (a.parts 5 2 6)
  | .tend => some { page := 5, maj := 3, fn := 0 }
  | .tabort a => some (a.parts 5 3 1)
  | .rlaunch a => some (a.parts 5 4 0)
  | .rwait a => some (a.parts 5 4 1)
  | .rquery a => some (a.parts 5 4 2)
  | .gbar a => some (a.parts 5 5 0)
  | .gbara a => some (a.parts 5 5 1)
  | .gbarw a => some (a.parts 5 5 2)
  | .grank a => some (a.parts 5 5 3)
  | .gsize a => some (a.parts 5 5 4)
  | .donate a => some (a.parts 5 6 0)
  | .aadd a => some (a.parts 6 0 0)
  | .aand a => some (a.parts 6 0 1)
  | .aor a => some (a.parts 6 0 2)
  | .axor a => some (a.parts 6 0 3)
  | .amin a => some (a.parts 6 0 4)
  | .amax a => some (a.parts 6 0 5)
  | .aswp a => some (a.parts 6 0 6)
  | .acas a => some (a.parts 6 0 7)
  | .acas2 a => some (a.parts 6 1 0)
  | .abinc a => some (a.parts 6 1 1)
  | .abdec a => some (a.parts 6 1 2)
  | .afadd a => some (a.parts 6 1 3)
  | .amadd a => some (a.parts 6 1 4)
  | .fence a => some (a.parts 6 2 0)
  | .fencee a => some (a.parts 6 2 1)
  | .flush a => some (a.parts 6 2 2)
  | .inval a => some (a.parts 6 2 3)
  | .pref a => some (a.parts 6 2 4)
  | .tbmc => some { page := 6, maj := 2, fn := 5 }
  | .binit a => some (a.parts 6 3 0)
  | .barr a => some (a.parts 6 3 1)
  | .bwait a => some (a.parts 6 3 2)
  | .bexp a => some (a.parts 6 3 3)
  | .btest a => some (a.parts 6 3 4)
  | .copy a => some (a.parts 7 0 0)
  | .ctset a => some (a.parts 7 0 1)
  | .cwm a => some (a.parts 7 0 2)
  | .cwait a => some (a.parts 7 0 3)
  | .tfpin a => some (a.parts 7 1 0)
  | .tfrel a => some (a.parts 7 1 1)
  | .eret => some { page := 8, maj := 0, fn := 0 }
  | .halt => some { page := 8, maj := 0, fn := 1 }
  | .repart a => some (a.parts 8 0 2)
  | .ctxsave a => some (a.parts 8 0 3)
  | .ctxload a => some (a.parts 8 0 4)
  | .purge a => some (a.parts 8 0 5)
  | .tlbinv a => some (a.parts 8 0 6)
  | .gangBarrierWake _ _ => none
  | .barrierWake _ => none
  | .packageReset _ => none
  | .powerOnBoot _ _ => none
  | .loadReply _ => none
  | .storePerform _ => none
  | .pageWalk _ => none
  | .homeRecall _ _ _ => none
  | .lineEviction _ _ _ _ => none
  | .networkMessageDelivery _ => none
  | .matrixStart _ => none
  | .matrixComplete _ => none
  | .bankTransferComplete _ => none
  | .pairClearDone _ _ => none
  | .huntRound _ => none
  | .take _ _ => none
  | .stealReply _ => none
  | .tileMoveComplete _ => none
  | .thiefReoffer _ => none
  | .counterReoffer _ => none
  | .jinc _ => none
  | .jdec _ => none
  | .jdead _ => none
  | .jaddn _ _ => none
  | .jsus _ => none
  | .jcall _ => none
  | .jcas _ => none
  | .jmark _ => none
  | .resumeContinuation _ => none
  | .taskDeath _ => none
  | .discard _ _ => none
  | .preemptionRequest _ _ _ => none
  | .preemptDeadline _ => none
  | .evict _ => none
  | .resumeEvicted _ => none
  | .waitlistExamine _ => none
  | .imageLoaded _ _ => none
  | .rootRelease _ _ => none
  | .regionEnd _ _ => none
  | .doorbell _ _ _ => none
  | .queueRestart _ _ => none
  | .distributorSelect _ => none
  | .nopPacket _ _ => none
  | .launch _ _ => none
  | .signal _ _ => none
  | .wait _ _ => none
  | .indirect _ _ => none
  | .link _ _ => none
  | .barrier _ _ => none
  | .badpkt _ _ => none
  | .transferComplete _ _ => none
  | .followOnHandoff _ => none
  | .crossTrigger _ _ => none
  | .inspectorHalt _ _ => none
  | .inspectorResume _ _ => none
  | .inspectorStep _ => none
  | .idataRead _ => none
  | .idataWrite _ _ => none
  | .idignReset _ => none
  | .hscarveWrite _ _ _ => none
  | .crateWrite _ _ _ => none
  | .registerWrite _ _ _ => none
  | .fragmentHop _ => none
  | .fragmentArrival _ => none
  | .slotTimeout _ _ => none
  | .messagePerform _ => none
  | .sack _ => none
  | .sackReceive _ _ _ => none
  | .ack _ _ => none
  | .retxTimeout _ _ => none
  | .skip _ _ => none
  | .laneFailure _ _ _ => none
  | .retrainDone _ _ => none
  | .keyInstall _ _ _ => none
  | .donreq _ _ => none
  | .barrowTake _ => none
  | .remoteCounterOp _ _ => none
  | .attest _ _ => none
  | .keyload _ _ _ => none
  | .keyevict _ _ => none
  | .slice _ _ => none
  | .pwrcap _ _ => none
  | .events _ => none
  | .slicePrepare _ _ => none
  | .sliceAnswer _ _ _ _ => none
  | .sliceAbort _ _ => none
  | .sliceTstart _ _ => none
  | .sliceGraceExpiry _ _ => none
  | .sliceReport _ _ _ _ => none
  | .sliceStart _ _ => none
  | .sliceAbandon _ _ => none
  | .sliceNoAnswer _ _ _ => none
  | .hostSnoop _ _ => none
  | .carterBeat _ => none
  | .hscarveDone _ _ => none
  | .timeSync _ _ => none
  | .hdmAccess _ _ _ => none

/-- The words of a well-formed instruction (R85); an event has none. -/
def encode (i : Instr) : List Word16 :=
  match i.parts with
  | some e => e.words
  | none => []

end Sys2Proof
end

