-- ==== Sys2Proof/Config.lean ====
section
/-! DEFINITION. What the spec leaves open: free values, constants without a body, so that no proof can know one.
Each is applied to the operands it depends on, or to the step counter `State.tick`. -/

namespace Sys2Proof.Config

/-- CYC of a stall at a step (R24): cycle counts are not modelled, so the value is free (log entry 5). -/
opaque freeCyc : Nat → Nat → BitVec 64
/-- TIME of a package at a step, before the package's offset (R24, R436): free (log entry 5). -/
opaque freeTime : Nat → Nat → BitVec 64
/-- Where a first-fit search for a frame starts in the pool, at a step (R228): free (log entry 6). -/
opaque freeFrame : Nat → Nat
/-- Where a first-fit search for a counter slot starts, at a step (R228): free (log entry 6). -/
opaque freeSlot : Nat → Nat
/-- Modes and store-out scales of a pair restored from a save area, which holds only its cells (R171), at a step (log entry 15). -/
opaque freePair : Nat → BitVec 66
/-- The reply tag that an eviction trailer names for an outstanding load (Table 18-7), at a step (log entry 21). -/
opaque replyTag : Nat → Nat
/-- The key under which a line whose key id has been evicted is written back (R302): key id, step (log entry 7). -/
opaque lostKey : Nat → Nat → Nat
/-- Which of the lines that may go leaves a full cache set (Table 13-1), at a step, for a line (log entry 36). -/
opaque freeVictim : Nat → Nat → Nat
/-- Whether an element that a command or a bank load reads while others may store to it is read as it was at the start (R161, R167), at a
step, for an address (log entry 50). -/
opaque readsEarly : Nat → Nat → Bool
/-- The signature of an ATTEST report over its other fields (R445; log entry 8). -/
opaque attestSignature : List Nat → Nat
/-- The identity certificate chain of a package's Veram (R445; log entry 8). -/
opaque identityChain : Nat → List Nat
/-- The key that a wrapped key unwraps to, the data key and the tweak key of XTS (R302, Table 22-4; log entry 8). -/
opaque unwrapKey : Nat → Nat
/-- What a device behind a device page answers to a load, at a step (R298, R322; log entry 9). -/
opaque deviceRead : Nat → Nat → Nat → Nat
/-- The payload of a message of the message network, which the spec does not lay out (R400), at a step, by type (log entry 10). -/
opaque messagePayload : Nat → Nat → List (BitVec 8)
/-- The identifier that Veram gives a link direction (R424): package, port (log entry 23). -/
opaque linkId : Nat → Nat → Nat
/-- A remote read by a Carter is lost beyond recovery (R339), at a step, for an address (log entry 24). -/
opaque readLost : Nat → Nat → Bool
/-- What the accesses between the halls of one package have added to a counter of Table 21-6, at a step, by hall and counter; the spec
does not lay out their messages (R405; log entry 13). -/
opaque cachedTraffic : Nat → Nat → Nat → Nat

end Sys2Proof.Config
end

