-- ==== Sys2Proof/Machine/Sparse.lean ====
section
/-! DEFINITION. Sparse tables: lists of key and value with strictly rising keys. `get` gives the default for an unlisted key.
`put` lists a value; `set` keeps the canonical form in which no listed value is the default, so equal tables are equal lists. -/

namespace Sys2Proof

/-- What a table holds for key `n`; `d` where nothing is listed. -/
def Store.get {α : Type} (d : α) : List (Nat × α) → Nat → α
  | [], _ => d
  | (k, v) :: r, n => if n = k then v else Store.get d r n

/-- List value `v` for key `n`. -/
def Store.put {α : Type} : List (Nat × α) → Nat → α → List (Nat × α)
  | [], n, v => [(n, v)]
  | (k, w) :: r, n, v =>
    if n < k then (n, v) :: (k, w) :: r else if n = k then (n, v) :: r else (k, w) :: Store.put r n v

/-- Take the entry of key `n` out. -/
def Store.del {α : Type} : List (Nat × α) → Nat → List (Nat × α)
  | [], _ => []
  | (k, w) :: r, n => if n = k then Store.del r n else (k, w) :: Store.del r n

/-- Write value `v` for key `n`, listing nothing where `v` is the default `d`. -/
def Store.set {α : Type} [DecidableEq α] (d : α) (m : List (Nat × α)) (n : Nat) (v : α) : List (Nat × α) :=
  if v = d then Store.del m n else Store.put m n v

/-- The keys rise strictly, each above `lo`. -/
def Store.rising {α : Type} : Option Nat → List (Nat × α) → Bool
  | _, [] => true
  | none, (k, _) :: r => Store.rising (some k) r
  | some lo, (k, _) :: r => decide (lo < k) && Store.rising (some k) r

/-- The canonical form: rising keys and no value that equals the default. -/
def Store.canonical {α : Type} [DecidableEq α] (d : α) (m : List (Nat × α)) : Bool :=
  Store.rising none m && m.all (fun e => decide (e.2 ≠ d))

end Sys2Proof
end

