-- ==== Sys2Proof/Machine/State.lean ====
section
/-! DEFINITION. The state of the machine as plain data, what can stop it, and the state after reset.

Units are named by numbers that hold for all packages: package p; hall 4p + h; arcade 64p + a (a by R249); stall
512p + s (s is WHERE[14:6], R25); context 64 · stall + c. A table lists only what differs from its reset record. -/

namespace Sys2Proof.Machine

/-- Why an instruction has no meaning. -/
inductive Refusal
  /-- Raised by an arm of `exec` that has no meaning yet; safe. -/
  | notModelled (mnemonic : String)
  deriving DecidableEq, Repr

/-- Why the machine stops. -/
inductive Fault
  /-- Raised where the schedule names a context, unit or packet that does not exist; no instruction raises it; safe. -/
  | noSuchUnit
  deriving DecidableEq, Repr

/-- The states of a context (Table 09-2). -/
inductive CtxState
  | idle | run | wmem | wmsg | halt
  deriving DecidableEq, Repr

/-- A translation as the TLB holds it (R300, R302): the address space, the page, its frame, permissions, type and key id. -/
structure Tlb where
  asid : Nat
  vbase : Nat
  size : Nat
  pbase : Nat
  level : Nat
  w : Bool
  x : Bool
  u : Bool
  mtype : Nat
  near : Bool
  key : Nat
  deriving DecidableEq, Repr

/-- Where a physical address is stored and how accesses reach it (Table 13-1, Table 13-3). -/
structure Place where
  pa : Nat
  /-- cached in L1 and L2: a normal page of the own package's DRAM, or of host memory -/
  cached : Bool
  /-- a NEAR page: never held as a visitor copy (R292) -/
  near : Bool
  key : Nat
  mtype : Nat
  deriving DecidableEq, Repr

/-- A store that has issued and is not yet performed (R309). -/
structure QStore where
  va : Nat
  place : Place
  bytes : List Byte
  rel : Bool
  scope : Scope
  policy : Policy
  /-- an element of a vector store into another package: the step that issued it and its 128-byte block (R447) -/
  block : Option (Nat × Nat)
  deriving DecidableEq, Repr

/-- A continuation entry of a deque or an overflow queue (Table 10-1). -/
structure Entry where
  rpc : Nat
  frame : Nat
  nt : Nat
  aff : Nat
  spilled : Bool
  deriving DecidableEq, Repr

/-- Where the reply of a load or request is written (R113, R139, R161, R317). -/
inductive Dest
  | scalar (x : GReg) (size : Nat) (signed : Bool)
  | pair (x : GReg)
  | vector (x : Nat) (size : Nat) (active : List Nat) (bcast : Bool)
  | value (x : GReg)
  | pairValue (x : GReg)
  /-- the image of a template slot, and whether it was written (R337) -/
  | template (x : GReg) (slot : Nat)
  | nothing
  deriving DecidableEq, Repr

/-- What a context in WMEM or WMSG waits for (R212, R213). -/
inductive Wait
  | none
  /-- the reply to a load or request: its destination, its bytes, the flags it raises -/
  | reply (dest : Dest) (bytes : List Byte) (flags : BitVec 11)
  /-- a page walk, after which the instruction issues again (R301) -/
  | walk
  /-- a line that a Carter has taken (R348), after which the instruction issues again: the arcade, the key id, the 64-byte line -/
  | line (arcade key line : Nat)
  /-- the completion of the zero-length read of a `.sy` release (R441), after which the instruction issues again -/
  | hostRead
  /-- a free place in a channel's queue (R338), after which the COPY is offered again -/
  | slot (arcade ch : Nat)
  /-- an answer over the fabric (R417): the address, the stream and number of the request, the acquire the access makes -/
  | remote (dest : Dest) (va stream seq : Nat) (acq : Option Scope)
  /-- a vector load whose elements come from other packages: register, element size, the answers still out (stream, number, first
  address, elements with their offsets in the block), the elements that are there -/
  | gather (x size : Nat) (parts : List (Nat × Nat × Nat × List (Nat × Nat))) (got : List (Nat × List Byte)) (acq : Option Scope)
  /-- the answer to a DONATE (R429): its result register, the counter it raised, the stream and number of the request -/
  | donate (x : GReg) (counter stream seq : Nat)
  /-- a release store to another package, held in RUN until its bytes are performed there (R312); at `.sy` it reports a loss -/
  | posted (sy : Bool)
  /-- a solver to complete: the context stays in RUN and issues nothing (R175) -/
  | solver
  /-- the gang barrier's phase to change (R259) -/
  | gang (phase : Bool) (acq : Option (Scope × Bool))
  /-- a barrier object's phase to differ (R344) -/
  | object (pa va : Nat) (phase : Bool) (x : GReg) (acq : Option (Scope × Bool))
  /-- a channel's watermark (R341) -/
  | channel (ch : Nat) (va : Nat) (id : Nat) (x : GReg) (acq : Option (Scope × Bool))
  /-- the end of a region (R263) -/
  | region (rcb : Nat) (x : GReg)
  /-- the wake that a barrier in another arcade has sent (R259, R344): what its instruction writes, and the acquire it makes -/
  | woken (x : Option GReg) (value : Word) (acq : Option (Scope × Bool))
  /-- a free accumulator pair for a restored task (R237, R378, R385); the address of the saved pair, the PC to go on at -/
  | pair (saved : Nat) (pc : Nat)
  /-- YIELD with a request pending (R124) -/
  | yield
  /-- the instruction's message is on its way to the arcade where it acts; the context stays in RUN and issues nothing (R227, R303) -/
  | visit
  /-- the reply to a counter operation that has acted, sent at a step: the context stays in RUN and issues nothing; the register that the
  reply brings a value for (R227, R393) -/
  | answer (sent : Nat) (value : Option (GReg × Word))
  deriving DecidableEq, Repr

/-- A pre-emption request (R372, R374): its source, whether its deadline has passed, whether PREEMPT was raised for it. -/
structure Request where
  source : Nat
  deadline : Bool
  passed : Bool
  raised : Bool
  slid : Nat
  deriving DecidableEq, Repr

/-- A death that is being performed (R366), with what its record holds (Table 18-5). -/
structure Death where
  cause : Nat
  einfo : Word
  eva : Word
  async : Bool
  dbl : Bool
  notrap : Bool
  purged : Bool
  abort : Bool
  detail : Word
  /-- FRAME reason 8 at TEND: no counter operation follows (R366) -/
  atTend : Bool
  /-- the purge of the task's region (R369): no record and no notice -/
  quiet : Bool
  /-- how far R366 has come: 0 begun, 1 the stores are taken, 2 the record is written, 3 JMARK is made -/
  stage : Nat
  /-- at the purge: the stores discarded, TBM, TIME -/
  stores : List QStore
  tbm : BitVec 51
  time : Word
  /-- the PC its record names: the next instruction not issued (Table 18-5) -/
  next : BitVec 57
  deriving DecidableEq, Repr

/-- A frame that FALLOC, a launch or a Barrow take allocated (R228, R375): its address, size, region, counter's physical address, and
whether FALLOC allocated it. -/
structure Frame where
  addr : Nat
  size : Nat
  rcb : Nat
  counter : Nat
  falloc : Bool
  deriving DecidableEq, Repr

/-- What a hunting context has in hand (R241, R243, R430). -/
structure Hunt where
  /-- the region it serves -/
  rcb : Nat
  /-- rounds begun since the hunt began (R242) -/
  round : Nat
  /-- consecutive empty rounds (R241) -/
  empty : Nat
  /-- B, latched when the first round begins (R242) -/
  latched : Nat
  /-- victims of the present round that are still to be probed, the one being probed first: level, and the stall, or at level 1
  the start index -/
  victims : List (Nat × Nat)
  /-- a take is on its way -/
  asked : Bool
  /-- an entry taken and not yet resumed, the level it came from, the scope of the take, the victim's arcade -/
  got : Option (Entry × Nat × Scope × Nat)
  /-- an entry it cannot run and cannot return yet (R236) -/
  kept : Option Entry
  /-- the named tiles still to be moved (R244) -/
  moving : Bool
  /-- the free scratchpad quota that its TAKE carries (R243) -/
  quota : Nat
  /-- a Barrow entry whose HEAD this take has advanced, and the frame it has for it (R430) -/
  donated : Option (DonationRequest × Frame)
  deriving DecidableEq, Repr

/-- One barrel context (Table 01-1, Tables 01-4 and 01-5) with what the device keeps for it. -/
structure Ctx where
  st : CtxState
  /-- the state a HALT returns to (R391) -/
  back : CtxState
  /-- halted by its stall's group or by a HALT of its own (R384, R391) -/
  halted : Bool
  /-- a STEP of the Inspector is under way: after one instruction the context halts again (R396) -/
  stepping : Bool
  /-- the instruction at the PC waits at issue (R209) -/
  waited : Bool
  /-- the counter of a SYNC that has saved its task and has its JSUS still to make (R237) -/
  saved : Option Nat
  pc : BitVec 57
  /-- the length in bytes of the instruction at the PC, once it is decoded (R67) -/
  len : Nat
  o : List (Nat × Word)
  p : List (Nat × Word128)
  t : List (Nat × Word128)
  lat : Word
  flags : BitVec 11
  ten : BitVec 11
  vl : BitVec 8
  /-- FMTW, with RMODE, MMODE and VT in it (R25) -/
  fmtw : BitVec 16
  sclp : Word
  mrho : BitVec 32
  mseed : Word
  ttag : BitVec 32
  framep : Word
  tbm : BitVec 51
  rank : Word
  gsz : Word
  /-- STATUS: PL, PPL, INTRAP -/
  pl : Bool
  ppl : Bool
  intrap : Bool
  epc : Word
  ecause : Word
  einfo : Word
  eva : Word
  tvec : Word
  gsize : Nat
  gbase : Nat
  vsize : Nat
  vbase : Nat
  rcbp : Word
  ptbr : Word
  liveb : Word
  keyt : Word
  sscratch : Word
  frec : Word
  /-- the running task: parent frame, own and parent's counter, parent's tag, ROOT, named tiles (R220, R231) -/
  pframe : Word
  ownjc : Word
  parjc : Word
  ptag : BitVec 32
  root : Bool
  nt : Nat
  storeQ : List QStore
  wait : Wait
  /-- translations already made for the instruction at the PC -/
  walked : List Tlb
  /-- the addresses whose walk is asked for: the page and how the access is made (R301) -/
  missed : Option (Nat × Nat × Bool)
  deque : List Entry
  /-- entries left in the deque when the context was freed from a region, with that region (log entry 55) -/
  strays : List (Nat × Entry)
  request : Option Request
  /-- requests that came while one was pending (R372) -/
  also : List Request
  hunt : Option Hunt
  dying : Option Death
  /-- the frame of a continuation this context holds a RESUME for (R225) -/
  holding : Option Nat
  /-- posted stores to other packages and the host not yet acknowledged (R293) -/
  posted : Nat
  /-- messages of the context that wait in its hall for room in their stream (R418) -/
  stuck : Nat
  /-- the last host address written (R441) -/
  hostAddr : Option Nat
  /-- a zero-length read that the device makes for a release is out (R441) -/
  hostRead : Bool
  /-- the scope at which the stores that the context's releases cover are visible (R304); none before a release -/
  covered : Option Scope
  /-- lost posted stores and the first lost package (R421) -/
  lost : Nat
  lostPkg : Nat
  /-- CYC[63:28] of the context's previous log record (R398) -/
  logTime : Nat
  deriving DecidableEq, Repr

/-- Context `c` of a stall after package reset (R33, R35, Tables 01-2 to 01-6). The PC and what the device keeps for a
context that runs no task: log entry 1. -/
def Ctx.reset (c : Nat) : Ctx where
  st := .idle
  back := .run
  halted := false
  stepping := false
  waited := false
  saved := none
  pc := 0
  len := 2
  o := []
  p := []
  t := []
  lat := 0
  flags := 0
  ten := 0x283
  vl := 32
  fmtw := 0x0888
  sclp := 0
  mrho := 0
  mseed := 0
  ttag := 0
  framep := 0
  tbm := 0
  rank := 0
  gsz := 1
  pl := true
  ppl := false
  intrap := false
  epc := 0
  ecause := 0
  einfo := 0
  eva := 0
  tvec := 0
  gsize := 32
  gbase := 32 * c
  vsize := 16
  vbase := 16 * c
  rcbp := 0
  ptbr := 0
  liveb := 0
  keyt := 0
  sscratch := 0
  frec := 0
  pframe := 0
  ownjc := 0
  parjc := 0
  ptag := 0
  root := false
  nt := 0
  storeQ := []
  wait := .none
  walked := []
  missed := none
  deque := []
  strays := []
  request := none
  also := []
  hunt := none
  dying := none
  holding := none
  posted := 0
  stuck := 0
  hostAddr := none
  hostRead := false
  covered := none
  lost := 0
  lostPkg := 0
  logTime := 0

/-- A matrix command (R164, R175, R202). -/
inductive CmdKind
  | mma (zero : Bool)
  | mmam
  | chol
  | trsl
  | trsu
  | rfn
  deriving DecidableEq, Repr

/-- A command of a stall's matrix unit (R166): whose it is, its operands as checked at issue. -/
structure Cmd where
  /-- when it was accepted -/
  seq : Nat
  kind : CmdKind
  high : Bool
  /-- the context that counts it (R173): the issuer, or the holder for a follow-on -/
  ctx : Nat
  pair : Nat
  bank : Nat
  a : Word128
  b : Word128
  /-- MRFN: the second tiles; its tolerance and cap word (R178) -/
  a2 : Word128
  b2 : Word128
  zval : Word
  /-- SCLP at issue (R155) -/
  sclp : Word
  /-- where MCHOL and MRFN write their result (R175) -/
  dest : Option GReg
  trans : List Tlb
  /-- what its reads, list by list, would have found at its acceptance: each element is read then or at completion (R167) -/
  early : List (List Nat)
  deriving DecidableEq, Repr

/-- An accumulator pair (R158): its holder, its banks' modes (true: q56) and store-out scales. -/
structure Pair where
  holder : Option Nat
  clearing : Bool
  q0 : Bool
  q1 : Bool
  scale0 : BitVec 32
  scale1 : BitVec 32
  deriving DecidableEq, Repr

def Pair.reset : Pair := ⟨none, false, false, false, 0x3F800000, 0x3F800000⟩

/-- A bank transfer in progress (R161, R203): ALOAD of one bank, or MALDM of both, the words it reads. -/
structure Transfer where
  ctx : Nat
  pair : Nat
  bank : Nat
  both : Bool
  va : Nat
  stride : Nat
  trans : List Tlb
  /-- the words as they were at issue; all are read then when the load acquires (R161, R312) -/
  early : List Nat
  acquires : Bool
  deriving DecidableEq, Repr

/-- An entry of a stall's wake table (R378): the evicted task's frame and region, its address space, what it waits for, whether that
has come. -/
structure WakeEntry where
  frame : Nat
  rcbp : Nat
  tag : BitVec 32
  ptbr : Word
  keyt : Word
  wait : Wait
  ready : Bool
  /-- the length of the blocking instruction -/
  len : Nat
  /-- the save slots of a load's destination registers, where they are live -/
  slots : List (Option Nat)
  /-- the value a completed wait writes, and the acquire it makes -/
  value : Word
  acq : Option (Scope × Bool)
  /-- the package at which the load was lost (R421) -/
  loss : Option Nat
  deriving DecidableEq, Repr

/-- The TEXT of a role that a launch has put into a stall's instruction cache (R256). -/
structure Text where
  asid : Nat
  va : Nat
  bytes : List Byte
  deriving DecidableEq, Repr

/-- A stall: configuration registers, accumulators, matrix unit, L1 epoch, TLB, Haggler, wake table. -/
structure Stall where
  ctxn : Nat
  bgate : BitVec 17
  /-- gated banks: main file 0-7, vector file 8-15, each with whether it keeps its contents (R216, R217) -/
  gated : List (Nat × Bool)
  haltg : BitVec 10
  tracec : Word
  halted : Bool
  pairs : List (Nat × Pair)
  /-- accumulator cells: 8192 · pair + 4096 · bank + 64 i + j (R58) -/
  acc : List (Nat × BitVec 56)
  low : List Cmd
  high : List Cmd
  running : Option Cmd
  /-- a command that has freed the unit and whose cells are not yet final (R170) -/
  closing : List Cmd
  highStarts : Nat
  transfers : List Transfer
  l1Epoch : Nat
  /-- least recently used first (R300) -/
  tlb : List Tlb
  lfsr : BitVec 16
  taskCounter : Nat
  victim : Nat
  wake : List WakeEntry
  /-- the instruction cache as launches have filled it, the latest first (R256) -/
  texts : List Text
  /-- issue pointers of the S and V ports, and whether the priority bit names S (R210) -/
  sPtr : Nat
  vPtr : Nat
  sFirst : Bool
  /-- the port of the instruction that issues, and its pointer as it was before: a wait at issue keeps it -/
  ptrV : Bool
  ptrOld : Nat
  deriving DecidableEq, Repr

/-- Stall `s` (its number in the package) after package reset (R33, R210, R219, R242; Table 01-5; log entry 1). -/
def Stall.reset (s : Nat) : Stall where
  ctxn := 64
  bgate := 0x10000
  gated := []
  haltg := 0
  tracec := 0
  halted := false
  pairs := []
  acc := []
  low := []
  high := []
  running := none
  closing := []
  highStarts := 0
  transfers := []
  l1Epoch := 0
  tlb := []
  lfsr := BitVec.ofNat 16 (s + 1)
  taskCounter := 1
  victim := 0
  wake := []
  texts := []
  sPtr := 63
  vPtr := 63
  sFirst := true
  ptrV := false
  ptrOld := 63

/-- A copy template (Table 16-1) as read at acceptance. -/
structure Template where
  src : Nat
  dst : Nat
  ext0 : Nat
  ext1 : Nat
  ext2 : Nat
  sstr1 : Int
  dstr1 : Int
  sstr2 : Int
  dstr2 : Int
  bar : Nat
  foff : Nat
  scope : Nat
  arr : Nat
  high : Bool
  fv : Bool
  deriving DecidableEq, Repr

/-- An accepted transfer (R334, R338): its template, its translations, the barrier object's address. -/
structure CarterJob where
  id : Nat
  tpl : Template
  srcTrans : List Tlb
  dstTrans : List Tlb
  bar : Option Nat
  ctx : Nat
  /-- the beats still to move (R339): source address, destination address, bytes -/
  beats : List (Nat × Nat × Nat)
  /-- lines taken Owned at acceptance and not yet returned: key id, 64-byte line (R348) -/
  lines : List (Nat × Nat)
  /-- bytes written to those lines: key id, address, bytes -/
  pending : List (Nat × Nat × List Byte)
  derr : Bool
  deriving DecidableEq, Repr

/-- A Carter channel (R334, R340, Table 16-5). -/
structure Channel where
  next : Nat
  watermark : Nat
  derr : Bool
  last : Nat
  queue : List CarterJob
  deriving DecidableEq, Repr

def Channel.reset : Channel := ⟨1, 0, false, 0, []⟩

/-- A follow-on: its channel, its block's offset, its class (R346); parked against an object's phase. -/
structure FollowOn where
  ch : Nat
  foff : Nat
  high : Bool
  object : Nat
  phase : Bool
  deriving DecidableEq, Repr

/-- One turn of the machine that the schedule asks for: a context issues, a context in HALT issues one instruction and halts again
(R396), or an event happens. -/
inductive Turn
  | issue (ctx : Nat)
  | step (ctx : Nat)
  | event (e : Event)
  deriving DecidableEq, Repr

/-- What a message of the message network does when its interface delivers it. -/
inductive Effect
  | none
  | event (e : Event)
  /-- an instruction, or an event of the device, acts in the arcade as its message is delivered: it takes its turn (R224, R303) -/
  | visit (t : Turn)
  /-- the reply to a counter operation that a context made at a step (R227) -/
  | answer (ctx sent : Nat)
  /-- a context is woken at an object or at its gang's barrier (R344, R259) -/
  | wake (ctx : Nat)
  /-- a transfer of channel `ch` of arcade `ak` arrives on an object of another arcade (R334, R351): its bytes and arrivals -/
  | arrive (pa bytes arrs ak ch : Nat)
  /-- a beat of a named-tile move lands: its bytes at `dst`; the last one of a move completes it for its thief (R244, R400) -/
  | tile (dst : Nat) (last : Option Nat)
  /-- the wake of an evicted task reaches its stall's wake table (R379) -/
  | ready (tag : Nat)
  deriving DecidableEq, Repr

/-- A message of the message network (R303, R400): the stall it is for, its sender's tag and stall, its type, its payload. -/
structure Message where
  dst : Option Nat
  tag : Nat
  src : Nat
  kind : Nat
  payload : List Byte
  act : Effect
  deriving DecidableEq, Repr

/-- A move of named tiles that channel 15 of a Carter makes for a thief (R244, R333): the beats still to move, each from, to, bytes. -/
structure TileMove where
  thief : Nat
  beats : List (Nat × Nat × Nat)
  deriving DecidableEq, Repr

/-- A pin-table entry: descriptor bits [97:0], the region, the count (R350). -/
structure Pin where
  desc : Nat
  rcb : Nat
  count : Nat
  /-- the lines pinned in the hall's L2: key id and 128-byte line -/
  lines : List (Nat × Nat)
  deriving DecidableEq, Repr

/-- A granule of the device area: the region and the task it is allocated for, and the tile slot (R287). -/
structure Granule where
  rcb : Nat
  tag : Nat
  slot : Nat
  deriving DecidableEq, Repr

/-- An arcade: counter slots in use, return buffer, Carter, tile fetch unit, Inspector, network interface. -/
structure Arcade where
  /-- counter slots given out: slot, frame -/
  slots : List (Nat × Nat)
  /-- what a counter with S = 1 suspends, by slot: the continuation and its region (Table 10-2) -/
  suspended : List (Nat × Entry × Nat)
  /-- continuations a counter bank could not hand on: entry and region (R236) -/
  returns : List (Entry × Nat)
  channels : List (Nat × Channel)
  /-- the moves that wait in channel 15, the one it makes first (R333) -/
  moves : List TileMove
  lastServed : Nat
  /-- the channels that have moved a beat in the present cycle (R333) -/
  cycle : List Nat
  parked : List FollowOn
  handed : List FollowOn
  /-- follow-on commands that passed their checks and wait for a slot in the class queue of a stall (R347) -/
  passed : List (Nat × Cmd)
  granules : List (Nat × Granule)
  pins : List Pin
  /-- Inspector: BVALID, BSTALL, BCTX, IBPC, ISEL, IDATA (Table 19-3) -/
  bvalid : Bool
  bstall : Nat
  bctx : Nat
  ibpc : Nat
  istalls : Nat
  isel : BitVec 24
  /-- the contexts that a STEP has named and that have not yet been stepped (R396) -/
  steps : List Nat
  idata : Word
  dig : Word
  count : Word
  inbox : List Message
  deriving DecidableEq, Repr

def Arcade.reset : Arcade where
  slots := []
  suspended := []
  returns := []
  channels := []
  moves := []
  lastServed := 0
  cycle := []
  parked := []
  handed := []
  passed := []
  granules := []
  pins := []
  bvalid := false
  bstall := 0
  bctx := 0
  ibpc := 0
  istalls := 0
  isel := 0
  steps := []
  idata := 0
  dig := 0xCBF29CE484222325
  count := 0
  inbox := []

/-- A CRATE register (Table 21-1). -/
structure Crate where
  timeout : Nat
  retry : Nat
  thresh : Nat
  bk : Nat
  bm : Nat
  bf : Nat
  sk : Nat
  sm : Nat
  sf : Nat
  deriving DecidableEq, Repr

def Crate.reset : Crate := ⟨512, 3, 64, 7, 1, 1, 0, 1, 0⟩

/-- A carved way (Table 13-4b): OWNER, ERR, EN, and whether its write-back is still under way. -/
structure Carve where
  owner : Nat
  err : Bool
  en : Bool
  pending : Bool
  deriving DecidableEq, Repr

def Carve.reset : Carve := ⟨0, false, false, false⟩

/-- A stripe decode slot (R415): stream, number, stripe, the parameters of its code, the fragments it holds. -/
structure Slot where
  stream : Nat
  seq : Nat
  stripe : Nat
  k : Nat
  m : Nat
  f : Nat
  frags : List (Nat × List Byte)
  deriving DecidableEq, Repr

/-- The hall counters of Table 21-6. -/
structure HallCounters where
  decoded : Word
  recon : Word
  late : Word
  dup : Word
  stale : Word
  slotdrop : Word
  retx : Word
  skipped : Word
  lostp : Word
  deriving DecidableEq, Repr

/-- A missed translation in a hall's walk queue (R301). -/
structure WalkRequest where
  ctx : Nat
  va : Nat
  kind : Nat
  user : Bool
  deriving DecidableEq, Repr

/-- A hall: visitor epoch, walk queue, carved ways, PDEAD, CRATE registers, decode slots, counters. -/
structure Hall where
  epoch : Nat
  walks : List WalkRequest
  carve : List (Nat × Carve)
  pdead : Nat
  crate : List (Nat × Crate)
  slots : List Slot
  counters : HallCounters
  deriving DecidableEq, Repr

def Hall.reset : Hall where
  epoch := 0
  walks := []
  carve := []
  pdead := 131072
  crate := []
  slots := []
  counters := ⟨0, 0, 0, 0, 0, 0, 0, 0, 0⟩

/-- What a message between halls is (R417 to R421, R429, R431). -/
inductive Body
  /-- a thread access, which its header names (R447); the key id of its address, the context it is for, and the stores it makes as the
  context issued them -/
  | access (key ctx : Nat) (stores : List QStore)
  /-- a message of the message network for an arcade of another hall of the package (R405) -/
  | network (arcade : Nat) (m : Message)
  /-- a message of Veram to Veram of another package, which causes an event there (R437) -/
  | control (e : Event)
  /-- the remote counter operation of a context's task (R431) -/
  | counter (pa : Nat) (dead : Bool) (ctx : Option Nat)
  | donate (ctx : Nat)
  /-- the answer to request `seq` of the opposite stream of class `cls` -/
  | answer (cls seq : Nat) (flags : BitVec 11)
  | ack (cls seq : Nat)
  | sack (stream base bits : Nat)
  | skip (stream seq : Nat)
  deriving DecidableEq, Repr

/-- A message between halls (R405): its sender's tag, its body, and the bytes it carries. -/
structure FabricMessage where
  seq : Nat
  tag : Nat
  body : Body
  bytes : List Byte
  deriving DecidableEq, Repr

/-- A message a source keeps until it is acknowledged (R418, R420): how often it was sent, with which code. -/
structure Sent where
  msg : FabricMessage
  sends : Nat
  k : Nat
  m : Nat
  f : Nat
  deriving DecidableEq, Repr

/-- A message at its destination, with the stripes decoded so far (R416). -/
structure Arriving where
  msg : FabricMessage
  stripes : List (Nat × List Byte)
  total : Nat
  length : Nat
  /-- the latest sending of the message that a decoded stripe belongs to (R419, R420) -/
  send : Nat
  deriving DecidableEq, Repr

/-- A request that was answered, and the answer as sent (R419). -/
structure Saved where
  request : FabricMessage
  reply : Sent
  deriving DecidableEq, Repr

/-- A stream (R405): the source's next number and unacknowledged messages; at the destination the lowest number not yet
performed or skipped, the later numbers that are skipped, the messages arriving, the answers given (R419). -/
structure Stream where
  next : Nat
  sent : List Sent
  /-- messages that wait for room among the unacknowledged ones (R418) -/
  waiting : List FabricMessage
  low : Nat
  done : List Nat
  arriving : List Arriving
  answers : List Saved
  /-- inside the filter, the sending of a request that was answered last: number, sending (R419) -/
  seen : List (Nat × Nat)
  /-- numbers performed or skipped that no SACK has named yet (R418) -/
  unsent : List Nat
  deriving DecidableEq, Repr

def Stream.reset : Stream := ⟨1, [], [], 1, [], [], [], [], []⟩

/-- A fragment packet on its way (Table 21-2): its stream and place, its bytes, where it stands and how many hops it has made. -/
structure Packet where
  stream : Nat
  seq : Nat
  stripe : Nat
  frag : Nat
  k : Nat
  m : Nat
  f : Nat
  /-- FSZ, PCLS and the RES0 bits of its header flit (Table 21-2) -/
  fsz : Nat
  pcls : Nat
  res0 : Nat
  length : Nat
  tag : Nat
  body : Body
  data : List Byte
  /-- the sending of its message that it belongs to, from 1 (R420) -/
  send : Nat
  /-- the number of path classes at the source (R412) -/
  classes : Nat
  /-- the package it stands in, and the port whose input buffer holds it (none: at injection) -/
  pkg : Nat
  port : Option Nat
  hop : Nat
  /-- the detour hop of path classes 2 and 3 has been made (R412) -/
  detoured : Bool
  /-- the hall of its package that it stands in, on the base die (R413) -/
  hall : Nat
  deriving DecidableEq, Repr

/-- A Geluk port (Table 21-6) with the state of its transmitting and receiving direction (R423 to R425). -/
structure Port where
  authf : Nat
  retrains : Nat
  keyexh : Bool
  kep : Bool
  state : Nat
  width : Nat
  lanes : Nat
  /-- transmitter: the counter value of the next flit, the key in use, the pending key -/
  txCount : Nat
  key : Nat
  pending : Option Nat
  /-- receiver: the least counter value it accepts, its key, the pending key, the epoch of its key -/
  rxMin : Nat
  rxKey : Nat
  rxPending : Option Nat
  rxKep : Bool
  deriving DecidableEq, Repr

/-- A region admitted in a package: its resolved control block and its progress (R248, R250, R255 to R259). -/
structure Region where
  /-- the virtual address of the RCB -/
  rcb : Nat
  /-- where the RCB lies, as translated at admission -/
  place : Place
  /-- the 32 words of the RCB with every group resolved (Table 11-1, R250) -/
  words : List Nat
  /-- the physical address of the completion counter, 0 for none -/
  donejc : Nat
  /-- ST of Table 11-2: 1 waiting, 2 loading, 3 running -/
  st : Nat
  /-- TIME when it entered the wait list (R269) -/
  since : Nat
  /-- held by a slice (R435) -/
  held : Bool
  /-- the contexts bound, each with the RCBP it had before -/
  bound : List (Nat × Word)
  /-- contexts that were bound and have been freed -/
  former : List Nat
  /-- the arcades of the rectangle that hold their image (R256) -/
  loaded : List Nat
  left : Nat
  casr : Nat
  /-- the RCB of the nearest ancestor that is still admitted, 0 for none: the parent until it ends (R251) -/
  up : Nat
  /-- the acquire with which its roots start: the join scope of the region that launched it (R262) -/
  acq : Option Scope
  /-- it has ended up to step 3 of R258, with this CODE; its completion counter cannot be reached yet (R236) -/
  ending : Option Nat
  /-- tasks begun and not yet ended or dead (R258) -/
  live : Nat
  abort : Bool
  /-- the gang barrier: its phase and the arrivals still expected (R259) -/
  phase : Bool
  expected : Nat
  /-- scratchpad bytes in use by arcade (R251) -/
  quota : List (Nat × Nat)
  deriving DecidableEq, Repr

/-- A slice at its coordinator, or as a named package holds it (R435 to R438). -/
structure Slice where
  desc : SliceDescriptor
  coordinator : Nat
  /-- phase of Table 22-2 -/
  phase : Nat
  ready : List Nat
  refused : List Nat
  evicted : List Nat
  late : List Nat
  /-- outgoing contexts a named package still waits for -/
  waiting : List Nat
  /-- bindings to restore on ABANDON: context and RCBP -/
  rebind : List (Nat × Word)
  deriving DecidableEq, Repr

/-- A queue of the Crier (R264, R266): the nesting of INDIRECT buffers (address, remaining count), unfinished launches, and the
packet in hand. -/
structure CrierQueue where
  nest : List (Nat × Nat)
  launches : List Nat
  deriving DecidableEq, Repr

/-- An event of Veram's log (Table 22-4). -/
inductive LogEvent
  | keyExh (port : Nat)
  | machineCheck (source : Nat)
  | donUnder (counter : Nat)
  | sliceAbandon (slid : Nat) (late : List Nat)
  | lossEvent (count : Nat)
  | sigFault (rcb : Nat)
  deriving DecidableEq, Repr

/-- A package: fabric registers, Barrow, Crier, regions, frames, Veram, host attachment. -/
structure Package where
  /-- GCFG (Table 21-3) -/
  zsize : Nat
  ysize : Nat
  pm1 : Nat
  recov : Bool
  ports : List (Nat × Port)
  /-- Barrow registers (Table 22-1) -/
  brwbase : Nat
  brwen : Bool
  brwcap : Nat
  brwhead : Nat
  brwtail : Nat
  fulls : Nat
  donunder : Nat
  hbase : Word
  crqt : Word
  queues : List (Nat × CrierQueue)
  lastQueue : Nat
  regions : List Region
  waitlist : List Nat
  frames : List Frame
  /-- DRAM key ids loaded, with the key's identity (R302) -/
  keys : List (Nat × Nat)
  m0 : BitVec 512
  m1 : BitVec 512
  m2 : BitVec 512
  m3 : BitVec 512
  /-- security versions of the images loaded, in order, and the fused minima, by step of the boot chain (R443) -/
  svns : List (Nat × Nat)
  minSvns : List (Nat × Nat)
  booted : Bool
  bootError : Nat
  log : List LogEvent
  /-- what the last mailbox command returned -/
  mailbox : List Nat
  /-- the input words of the mailbox, by number from 1 (log entry 105) -/
  mailboxIn : List (Nat × Nat)
  events : List LogEvent
  pwrcap : Nat
  slices : List Slice
  timeOffset : Int
  /-- what a host read or AtomicOp through BAR2 returned (R439) -/
  hdm : List Byte
  /-- MSI-X messages sent to the host: the queues that halted (R266) -/
  interrupts : List Nat
  /-- tags of tasks that are over while posted stores of theirs are under way to other packages (R421) -/
  ended : List Nat
  deriving DecidableEq, Repr

/-- A package after reset (Tables 21-3, 22-1; R444; log entry 1). -/
def Package.reset : Package where
  zsize := 1
  ysize := 1
  pm1 := 3
  recov := false
  ports := []
  brwbase := 0
  brwen := false
  brwcap := 16
  brwhead := 0
  brwtail := 0
  fulls := 0
  donunder := 0
  hbase := 0
  crqt := 0
  queues := []
  lastQueue := 255
  regions := []
  waitlist := []
  frames := []
  keys := []
  m0 := 0
  m1 := 0
  m2 := 0
  m3 := 0
  svns := []
  minSvns := []
  booted := false
  bootError := 0
  log := []
  mailbox := []
  mailboxIn := []
  events := []
  pwrcap := 2200
  slices := []
  timeOffset := 0
  hdm := []
  interrupts := []
  ended := []

/-- A line of an L1 (R281, R282, R283). -/
structure Line where
  owned : Bool
  data : BitVec 512
  dirty : BitVec 64
  /-- bytes in error (R364) -/
  poison : BitVec 64
  wtag : Nat
  epoch : Nat
  keep : Bool
  near : Bool
  /-- the visitor epoch of the hall when the clean bytes were last filled (log entry 121) -/
  vepoch : Nat
  deriving DecidableEq, Repr

/-- A line of a hall's L2 (R288): the home copy in the line's home hall, a visitor copy in another. -/
structure L2Line where
  data : BitVec 1024
  dirty : BitVec 128
  /-- bytes in error (R364) -/
  poison : BitVec 128
  epoch : Nat
  /-- the way of its slice that holds it (R289) -/
  way : Nat
  /-- replaced last within its set (Table 13-3) -/
  keep : Bool
  deriving DecidableEq, Repr

/-- The whole machine. `mem` holds each byte at its home: DRAM, scratchpads, TCMs, hall SRAM, host space (Table 13-5). -/
structure State where
  mem : List Host.Cell
  /-- main files: 2048 · stall + entry -/
  gfile : List (Nat × Word)
  /-- vector files: 1024 · stall + entry -/
  vfile : List (Nat × VWord)
  ctxs : List (Nat × Ctx)
  stalls : List (Nat × Stall)
  arcades : List (Nat × Arcade)
  halls : List (Nat × Hall)
  pkgs : List (Nat × Package)
  /-- L1 lines: (stall · 2048 + key id) · 2⁵⁰ + line number (pa / 64) -/
  l1 : List (Nat × Line)
  /-- L2 lines: (hall · 2048 + key id) · 2⁴⁹ + line number (pa / 128) -/
  l2 : List (Nat × L2Line)
  /-- the key under which each 128-byte unit of DRAM was last written, plus 1; 0 for plaintext (R302) -/
  unitKey : List (Nat × Nat)
  /-- bytes marked poisoned (R364) -/
  poison : List (Nat × Bool)
  streams : List (Nat × Stream)
  packets : List Packet
  /-- instructions and events of the device whose message an arcade has delivered and that act there now: the turn, the arcade -/
  visits : List (Turn × Nat)
  /-- the schedule: turns asked for, first first (log entry 4) -/
  sched : List Turn
  /-- events that the machine's own steps have made due, oldest first -/
  due : List Event
  /-- the context whose instruction is running -/
  cur : Nat
  /-- counts steps; free values are applied to it -/
  tick : Nat
  deriving DecidableEq, Repr

/-- The machine right after reset (R33): every table as its reset record says, memory with nothing listed, every context idle. -/
def State.reset : State where
  mem := []
  gfile := []
  vfile := []
  ctxs := []
  stalls := []
  arcades := []
  halls := []
  pkgs := []
  l1 := []
  l2 := []
  unitKey := []
  poison := []
  streams := []
  packets := []
  visits := []
  sched := []
  due := []
  cur := 0
  tick := 0

end Sys2Proof.Machine
end

