-- ==== Sys2Proof/Machine/Ops.lean ====
section
/-! DEFINITION. Named operations over the state: where units stand, their records, registers, taking a trap and returning
from one. -/

namespace Sys2Proof.Machine

/-! Geometry (R2, R25, R249). -/

def ctxStall (c : Nat) : Nat := c / 64
def stallPkg (k : Nat) : Nat := k / 512
def ctxPkg (c : Nat) : Nat := stallPkg (ctxStall c)
/-- The hall of a stall: bits [8:7] of the stall number (R25). -/
def stallHall (k : Nat) : Nat := k / 512 * 4 + k % 512 / 128
def ctxHall (c : Nat) : Nat := stallHall (ctxStall c)
/-- The arcade at position `pos` of hall `h` of a package (R249). -/
def arcadeAt (h pos : Nat) : Nat := 8 * (4 * (h / 2) + pos / 4) + (4 * (h % 2) + pos % 4)
def stallArcade (k : Nat) : Nat := k / 512 * 64 + arcadeAt (k % 512 / 128) (k % 128 / 8)
def ctxArcade (c : Nat) : Nat := stallArcade (ctxStall c)
/-- The hall of arcade `a` of the grid, and its position there (R249). -/
def gridHall (a : Nat) : Nat := 2 * (a / 8 / 4) + a % 8 / 4
def gridPos (a : Nat) : Nat := 4 * (a / 8 % 4) + a % 8 % 4
def arcadePkg (ak : Nat) : Nat := ak / 64
def arcadeHall (ak : Nat) : Nat := ak / 64 * 4 + gridHall (ak % 64)
/-- Stall `i` of an arcade. -/
def arcadeStall (ak i : Nat) : Nat := ak / 64 * 512 + gridHall (ak % 64) * 128 + gridPos (ak % 64) * 8 + i
def arcadeStalls (ak : Nat) : List Nat := (List.range 8).map (arcadeStall ak)
def hallPkg (hk : Nat) : Nat := hk / 4
def hallArcades (hk : Nat) : List Nat := (List.range 16).map (fun p => hk / 4 * 64 + arcadeAt (hk % 4) p)
def hallStalls (hk : Nat) : List Nat := (List.range 128).map (fun i => hk / 4 * 512 + hk % 4 * 128 + i)
def pkgHalls (p : Nat) : List Nat := (List.range 4).map (fun h => 4 * p + h)

/-- The scope joining two contexts' places, given as arcades and stalls (R306). -/
def joinStalls (k1 k2 : Nat) : Scope :=
  if k1 = k2 then .st
  else if stallArcade k1 = stallArcade k2 then .ac
  else if stallHall k1 = stallHall k2 then .ha
  else if stallPkg k1 = stallPkg k2 then .pk else .sy
/-- The scope joining a stall and an arcade. -/
def joinArcade (k ak : Nat) : Scope :=
  if stallArcade k = ak then .ac
  else if stallHall k = arcadeHall ak then .ha
  else if stallPkg k = arcadePkg ak then .pk else .sy

/-- Scope `a` reaches no further than `b` (Table 14-1). -/
def Scope.le (a b : Scope) : Bool := decide (a.code ≤ b.code)
def Scope.join (a b : Scope) : Scope := if Scope.le a b then b else a

/-! Records. A table that lists nothing for a unit holds its reset record. -/

def State.ctx (s : State) (c : Nat) : Ctx := Store.get (Ctx.reset (c % 64)) s.ctxs c
def State.setCtx (s : State) (c : Nat) (v : Ctx) : State := { s with ctxs := Store.put s.ctxs c v }
def State.updCtx (s : State) (c : Nat) (f : Ctx → Ctx) : State := s.setCtx c (f (s.ctx c))
/-- The context whose instruction runs. -/
def State.me (s : State) : Ctx := s.ctx s.cur
def State.upd (s : State) (f : Ctx → Ctx) : State := s.updCtx s.cur f
def State.stall (s : State) (k : Nat) : Stall := Store.get (Stall.reset (k % 512)) s.stalls k
def State.setStall (s : State) (k : Nat) (v : Stall) : State := { s with stalls := Store.put s.stalls k v }
def State.updStall (s : State) (k : Nat) (f : Stall → Stall) : State := s.setStall k (f (s.stall k))
/-- The stall of the context whose instruction runs. -/
def State.myStall (s : State) : Stall := s.stall (ctxStall s.cur)
def State.updMyStall (s : State) (f : Stall → Stall) : State := s.updStall (ctxStall s.cur) f
def State.arcade (s : State) (a : Nat) : Arcade := Store.get Arcade.reset s.arcades a
def State.updArcade (s : State) (a : Nat) (f : Arcade → Arcade) : State :=
  { s with arcades := Store.put s.arcades a (f (s.arcade a)) }
def State.hall (s : State) (h : Nat) : Hall := Store.get Hall.reset s.halls h
def State.updHall (s : State) (h : Nat) (f : Hall → Hall) : State :=
  { s with halls := Store.put s.halls h (f (s.hall h)) }
def State.pkg (s : State) (p : Nat) : Package := Store.get Package.reset s.pkgs p
def State.updPkg (s : State) (p : Nat) (f : Package → Package) : State :=
  { s with pkgs := Store.put s.pkgs p (f (s.pkg p)) }
def State.stream (s : State) (k : Nat) : Stream := Store.get Stream.reset s.streams k
def State.updStream (s : State) (k : Nat) (f : Stream → Stream) : State :=
  { s with streams := Store.put s.streams k (f (s.stream k)) }
def Stall.pair (k : Stall) (i : Nat) : Pair := Store.get Pair.reset k.pairs i
def Stall.setPair (k : Stall) (i : Nat) (v : Pair) : Stall := { k with pairs := Store.put k.pairs i v }
def Arcade.channel (a : Arcade) (i : Nat) : Channel := Store.get Channel.reset a.channels i
def Arcade.updChannel (a : Arcade) (i : Nat) (f : Channel → Channel) : Arcade :=
  { a with channels := Store.put a.channels i (f (a.channel i)) }
def Hall.crateOf (h : Hall) (c : Nat) : Crate := Store.get Crate.reset h.crate c
def Hall.carveOf (h : Hall) (k : Nat) : Carve := Store.get Carve.reset h.carve k
/-- A Geluk port after reset (Table 21-6). -/
def Port.reset : Port := ⟨0, 0, false, false, 0, 0, 4, 0, 0, none, 0, 0, none, false⟩
/-- A port that the cabling of R411 leaves unconnected: at an end of the mesh, or of a ring of one chassis. -/
def unconnected (pkg q ysize zsize : Nat) : Bool :=
  let x := pkg / 2 % 4
  let d := q / 4
  (d == 2 && x == 3) || (d == 3 && x == 0) || (d / 2 == 2 && ysize == 1) || (d / 2 == 3 && zsize == 1)
/-- A port as GCFG cables it now: unconnected it is in STATE 3; one that GCFG has just connected is up. -/
def State.port (s : State) (p q : Nat) : Port :=
  let v := Store.get Port.reset (s.pkg p).ports q
  { v with state := if unconnected p q (s.pkg p).ysize (s.pkg p).zsize then 3 else if v.state = 3 then 0 else v.state }
def State.updPort (s : State) (p q : Nat) (f : Port → Port) : State :=
  s.updPkg p (fun k => { k with ports := Store.put k.ports q (f (s.port p q)) })

/-- An event becomes due: it happens in a later step, after those already due. -/
def State.cause (s : State) (e : Event) : State := { s with due := s.due ++ [e] }
/-- An event becomes due unless it already is. -/
def State.causeOnce (s : State) (e : Event) : State := if s.due.contains e then s else s.cause e
/-- An event happens in the next step. -/
def State.next (s : State) (e : Event) : State := { s with sched := .event e :: s.sched }

/-! Registers (R12 to R23). -/

/-- The main-file entry of `g i` of a context (R12). -/
def gEntry (c : Nat) (v : Ctx) (i : Nat) : Nat := 2048 * ctxStall c + (v.gbase + i) % 2048
/-- The vector-file entry of `v i` of a context (R19). -/
def vEntry (c : Nat) (v : Ctx) (i : Nat) : Nat := 1024 * ctxStall c + (v.vbase + i) % 1024

/-- What a context reads from a G-class operand: `g0` reads zero (R14). -/
def State.readG (s : State) (c : Nat) : GReg → Word
  | .o i => Store.get 0 (s.ctx c).o i.val
  | .lat => (s.ctx c).lat
  | .g i => if i.val = 0 then 0 else Store.get 0 s.gfile (gEntry c (s.ctx c) i.val)

/-- Write a G-class register but not `lat`: a write to `g0` is discarded (R14), and `lat` as a destination receives the
result (R18). -/
def State.putG (s : State) (c : Nat) (r : GReg) (w : Word) : State :=
  match r with
  | .o i => s.updCtx c (fun v => { v with o := Store.set 0 v.o i.val w })
  | .lat => s.updCtx c (fun v => { v with lat := w })
  | .g i => if i.val = 0 then s else { s with gfile := Store.set 0 s.gfile (gEntry c (s.ctx c) i.val) w }

/-- Write a result to a G-class destination and to `lat` (R17). -/
def State.writeG (s : State) (c : Nat) (r : GReg) (w : Word) : State :=
  (s.putG c r w).updCtx c (fun v => { v with lat := w })

def State.readV (s : State) (c i : Nat) : VWord := Store.get 0 s.vfile (vEntry c (s.ctx c) i)
def State.writeV (s : State) (c i : Nat) (w : VWord) : State :=
  { s with vfile := Store.set 0 s.vfile (vEntry c (s.ctx c) i) w }
def Ctx.pred (v : Ctx) (i : Nat) : Word128 := Store.get 0 v.p i
def Ctx.setPred (v : Ctx) (i : Nat) (w : Word128) : Ctx := { v with p := Store.set 0 v.p i w }
def Ctx.tile (v : Ctx) (i : Nat) : Word128 := Store.get 0 v.t i
def Ctx.setTile (v : Ctx) (i : Nat) (w : Word128) : Ctx := { v with t := Store.set 0 v.t i w }

/-- The running context's registers. -/
def State.g (s : State) (r : GReg) : Word := s.readG s.cur r
def State.v (s : State) (i : Idx) : VWord := s.readV s.cur i.val

/-- The next register of a pair (R115). -/
def GReg.succ (n : Nat) : GReg → GReg
  | .o i => .o (Fin.ofNat 8 (i.val + n))
  | .lat => .lat
  | .g i => .g (Fin.ofNat 128 (i.val + n))

/-- OR conditions into FLAGS (R66). -/
def State.raise (s : State) (c : Nat) (f : BitVec 11) : State := s.updCtx c (fun v => { v with flags := v.flags ||| f })

/-- The PC of the next instruction: PC plus the instruction's length (R36, R67). -/
def Ctx.nextPc (v : Ctx) : BitVec 57 := v.pc + BitVec.ofNat 57 v.len
def Ctx.advance (v : Ctx) : Ctx := { v with pc := v.nextPc, walked := [], missed := none, saved := none }
def State.advance (s : State) : State := s.upd Ctx.advance
/-- The running context's instruction waits at issue: it has not issued, and the pointer of its port keeps its place (R209, R210). -/
def State.stay (s : State) : State :=
  (s.upd (fun w => { w with waited := true })).updMyStall (fun k =>
    if k.ptrV then { k with vPtr := k.ptrOld } else { k with sPtr := k.ptrOld })
/-- The next instruction of a context that has not issued (R364, Table 18-5): the one behind an instruction that has issued and waits. -/
def Ctx.unissuedPc (v : Ctx) : BitVec 57 :=
  if v.saved.isSome then v.nextPc
  else match v.wait with
  | .none | .answer _ _ | .solver => v.pc
  | .pair _ pc => BitVec.ofNat 57 pc
  | .walk => if (v.missed.map (·.2.1)) == some 2 then v.pc else v.nextPc
  | _ => v.nextPc
/-- The PC goes to a target. -/
def State.goto (s : State) (t : BitVec 57) : State := s.upd (fun v => { v with pc := t, walked := [], missed := none, saved := none })

/-! Traps (R359 to R363). -/

/-- The causes of Table 18-1. -/
inductive Cause
  | illop | illcombo | reglim | priv | align | page | prot | key | ecc | floss | fetch | arith | sysc | bkpt | quota | frame
  | preempt
  deriving DecidableEq, Repr

def Cause.code : Cause → Nat
  | .illop => 0x01 | .illcombo => 0x02 | .reglim => 0x03 | .priv => 0x04 | .align => 0x05 | .page => 0x10 | .prot => 0x11
  | .key => 0x12 | .ecc => 0x13 | .floss => 0x14 | .fetch => 0x15 | .arith => 0x20 | .sysc => 0x30 | .bkpt => 0x31
  | .quota => 0x40 | .frame => 0x41 | .preempt => 0x50

/-- A trap to take: its cause, EINFO and EVA (Table 18-2). -/
structure Trap where
  cause : Cause
  einfo : Nat
  eva : Nat
  deriving DecidableEq, Repr

/-- A context can take a trap: TVEC is not 0 and INTRAP is 0 (R359). -/
def Ctx.canTrap (v : Ctx) : Bool := v.tvec != 0 && !v.intrap

/-- Taking a trap (R359): EPC, ECAUSE, EINFO and EVA written, PPL ← PL, PL ← 1, INTRAP ← 1, PC ← TVEC. -/
def Ctx.takeTrap (v : Ctx) (t : Trap) : Ctx :=
  { v with
    epc := BitVec.zeroExtend 64 v.pc
    ecause := w64 t.cause.code
    einfo := w64 t.einfo
    eva := w64 t.eva
    ppl := v.pl
    pl := true
    intrap := true
    pc := BitVec.truncate 57 v.tvec
    walked := []
    missed := none
    saved := none }

/-- Returning from a trap (R383): PL ← PPL, INTRAP ← 0, PC ← EPC. -/
def Ctx.eret (v : Ctx) : Ctx :=
  { v with pl := v.ppl, intrap := false, pc := BitVec.truncate 57 v.epc, walked := [], missed := none, saved := none }

/-- The death of a task whose trap cannot be taken (R360): NOTRAP when TVEC is 0, DBL when INTRAP is 1. -/
def Ctx.trapDeath (v : Ctx) (t : Trap) : Death :=
  { cause := t.cause.code, einfo := w64 t.einfo, eva := w64 t.eva, async := false, dbl := v.intrap, notrap := v.tvec == 0,
    purged := false, abort := false, detail := 0, atTend := false, quiet := false, stage := 0, stores := [], tbm := 0, time := 0,
    next := v.pc }

/-- The context begins to die: it issues no more, and the purge of R366 follows as TASK_DEATH. -/
def State.beginDeath (s : State) (c : Nat) (d : Death) : State :=
  if (s.ctx c).dying.isSome then s
  else (s.updCtx c (fun v => { v with dying := some d })).next (.taskDeath c)

/-- Take a trap on a context, or kill its task where the trap cannot be taken (R359, R360). -/
def State.trap (s : State) (c : Nat) (t : Trap) : State :=
  if (s.ctx c).canTrap then s.updCtx c (fun v => v.takeTrap t)
  else s.beginDeath c ((s.ctx c).trapDeath t)

/-- How an instruction stops short of its effect: it traps; it misses the TLB and waits for a walk (address, KIND, user level);
it waits at issue for events, unchanged; it waits in WMEM, unchanged, for what `w` names (R348); or its message, of a type of R400,
leaves for the arcade where it acts, and the context waits in RUN (R227). -/
inductive Stop
  | trap (t : Trap)
  | miss (va kind : Nat) (user : Bool)
  | wait (es : List Event)
  | held (w : Wait) (e : Event)
  | visit (arcade kind : Nat)
  deriving DecidableEq, Repr

/-- The classes of EINFO after REGLIM (Table 18-2). -/
inductive RegClass
  | g | v | p | t | a
  deriving DecidableEq, Repr
def RegClass.code : RegClass → Nat
  | .g => 0 | .v => 1 | .p => 2 | .t => 3 | .a => 4

/-- REGLIM: the index named, the operand (0 X, 1 Y, 2 Z) and its class (Table 18-2). -/
def reglim (k : RegClass) (operand index : Nat) : Trap :=
  ⟨.reglim, index % 128 + 256 * operand + 4096 * k.code, 0⟩

/-- Whether a G operand lies in the window, with `n` registers from it on (R14, R115). -/
def Ctx.okG (v : Ctx) (n : Nat) : GReg → Bool
  | .g i => decide (i.val + n ≤ v.gsize)
  | _ => true

/-- REGLIM for a G operand beyond the window (R14); a pair or quad names its first register beyond it. -/
def Ctx.checkG (v : Ctx) (operand : Nat) (r : GReg) (n : Nat := 1) : Except Stop Unit :=
  if v.okG n r then .ok ()
  else match r with
    | .g i => .error (.trap (reglim .g operand (max i.val v.gsize)))
    | _ => .ok ()
/-- REGLIM for a V or M index beyond the vector window (R19). -/
def Ctx.checkV (v : Ctx) (operand : Nat) (i : Idx) : Except Stop Unit :=
  if i.val < v.vsize then .ok () else .error (.trap (reglim .v operand i.val))
/-- REGLIM for a predicate index of 8 or more (R21). -/
def checkP (operand : Nat) (i : Idx) : Except Stop Unit :=
  if i.val < 8 then .ok () else .error (.trap (reglim .p operand i.val))
/-- REGLIM for a tile index of 8 or more (R22). -/
def checkT (operand : Nat) (i : Idx) : Except Stop Unit :=
  if i.val < 8 then .ok () else .error (.trap (reglim .t operand i.val))

/-- The accumulator pair a context holds (R158). -/
def Stall.heldBy (k : Stall) (c : Nat) : Option Nat := (List.range 4).find? (fun i => (k.pair i).holder == some c)
def State.held (s : State) (c : Nat) : Option Nat := (s.stall (ctxStall c)).heldBy c

/-- REGLIM for an accumulator name: an index above 1, or no pair held (R23). -/
def State.checkA (s : State) (operand : Nat) (i : Idx) : Except Stop Nat :=
  match s.held s.cur with
  | some p => if i.val < 2 then .ok p else .error (.trap (reglim .a operand i.val))
  | none => .error (.trap (reglim .a operand i.val))

/-- PRIV in user mode (R36). -/
def Ctx.checkPriv (v : Ctx) : Except Stop Unit := if v.pl then .ok () else .error (.trap ⟨.priv, 0, 0⟩)

/-- ILLOP with REASON and the index of the base word, which the instruction's length gives (Table 03-4). -/
def Ctx.illopBase (v : Ctx) (reason : Nat) : Stop := .trap ⟨.illop, reason + 256 * (v.len / 2 - 1), 0⟩
/-- ALIGN with KIND of Table 13-8 and the address (Table 18-2). -/
def alignTrap (kind va : Nat) : Stop := .trap ⟨.align, 2 * kind, va⟩
/-- FRAME with a reason of Table 10-8. -/
def frameTrap (reason : Nat) : Stop := .trap ⟨.frame, reason, 0⟩
/-- ILLCOMBO with the layout of Table 06-4: REASON and OPER. -/
def illcombo (reason operand : Nat) : Stop := .trap ⟨.illcombo, reason + 256 * operand, 0⟩

end Sys2Proof.Machine
end

