-- ==== Sys2Proof/Machine/Csr.lean ====
section
/-! DEFINITION. The control and status registers (R12, R13, R19, R24 to R26) and bank gating (R216, R217). -/

namespace Sys2Proof.Machine

/-- RMODE, VT and MMODE are fields of FMTW (R25). -/
def Ctx.rmode (v : Ctx) : Nat := bitsOf v.fmtw.toNat 15 14
def Ctx.mmode (v : Ctx) : Nat := bitsOf v.fmtw.toNat 13 12
def Ctx.vt (v : Ctx) : Fmt := Raw.fmtOf (bitsOf v.fmtw.toNat 11 8)
def Ctx.setFmtwField (v : Ctx) (lo n x : Nat) : Ctx :=
  { v with fmtw := BitVec.ofNat 16 (v.fmtw.toNat - v.fmtw.toNat / 2 ^ lo % 2 ^ n * 2 ^ lo + x % 2 ^ n * 2 ^ lo) }

/-! Gating: main-file banks 0 to 7, vector-file banks 8 to 15. -/

/-- A window of an existing context covers an entry of a bank. -/
def bankCovered (s : State) (k bank : Nat) : Bool :=
  (List.range (s.stall k).ctxn).any (fun i =>
    let v := s.ctx (64 * k + i)
    if bank < 8 then decide (v.gbase < 256 * bank + 256) && decide (256 * bank < v.gbase + v.gsize)
    else decide (v.vbase < 128 * (bank - 8) + 128) && decide (128 * (bank - 8) < v.vbase + v.vsize))

/-- A bank loses its power: every entry reads zero (Table 09-4). -/
def clearBank (s : State) (k bank : Nat) : State :=
  if bank < 8 then
    { s with gfile := s.gfile.filter (fun e => decide (e.1 / 2048 ≠ k ∨ e.1 % 2048 / 256 ≠ bank)) }
  else { s with vfile := s.vfile.filter (fun e => decide (e.1 / 1024 ≠ k ∨ e.1 % 1024 / 128 ≠ bank - 8)) }

/-- Banks are gated and woken as BGATE and the windows ask for (R216, R217). A bank gated without KEEP is cleared. -/
def regate (s : State) (k : Nat) : State :=
  (List.range 16).foldl (fun t bank =>
    let st := t.stall k
    let want := st.bgate.getLsbD bank && !bankCovered t k bank
    match st.gated.lookup bank, want with
    | none, true =>
      let keep := st.bgate.getLsbD 16
      let t1 := t.updStall k (fun v => { v with gated := Store.put v.gated bank keep })
      if keep then t1 else clearBank t1 k bank
    | some _, false => t.updStall k (fun v => { v with gated := Store.del v.gated bank })
    | _, _ => t) s

def gatedBits (k : Stall) (base : Nat) : Nat :=
  (List.range 8).foldl (fun a i => if (k.gated.lookup (base + i)).isSome then a + 2 ^ i else a) 0

/-- What RDC reads (Tables 01-4, 01-5; R25). CYC and TIME are free (log entry 5). -/
def readCsr (s : State) (c : Nat) (r : Csr) : Word :=
  let v := s.ctx c
  let k := s.stall (ctxStall c)
  match r with
  | .flags => BitVec.zeroExtend 64 v.flags
  | .ten => BitVec.zeroExtend 64 v.ten
  | .rmode => w64 v.rmode
  | .vt => w64 (bitsOf v.fmtw.toNat 11 8)
  | .vl => BitVec.zeroExtend 64 v.vl
  | .fmtw => BitVec.zeroExtend 64 v.fmtw
  | .sclp => v.sclp
  | .mmode => w64 v.mmode
  | .mrho => BitVec.zeroExtend 64 v.mrho
  | .mseed => v.mseed
  | .ttag => BitVec.zeroExtend 64 v.ttag
  | .framep => v.framep
  | .loc => w64 c
  | .tbm => BitVec.zeroExtend 64 v.tbm
  | .cyc => Config.freeCyc (ctxStall c) s.tick
  | .rank => v.rank
  | .gsz => v.gsz
  | .time => Config.freeTime (ctxPkg c) s.tick + BitVec.ofInt 64 (s.pkg (ctxPkg c)).timeOffset
  | .status => w64 ((if v.pl then 1 else 0) + (if v.ppl then 2 else 0) + (if v.intrap then 4 else 0))
  | .epc => v.epc
  | .ecause => v.ecause
  | .einfo => v.einfo
  | .eva => v.eva
  | .tvec => v.tvec
  | .gwin => w64 (v.gsize * 2 ^ 16 + v.gbase)
  | .vwin => w64 (v.vsize * 2 ^ 16 + v.vbase)
  | .rcbp => v.rcbp
  | .ptbr => v.ptbr
  | .liveb => v.liveb
  | .keyt => v.keyt
  | .sscratch => v.sscratch
  | .frec => v.frec
  | .ctxn => w64 k.ctxn
  | .bgate => w64 (k.bgate.toNat + gatedBits k 0 * 2 ^ 32 + gatedBits k 8 * 2 ^ 40)
  | .haltg => BitVec.zeroExtend 64 k.haltg
  | .tracec => k.tracec

/-- A value legal for GWIN (R13) with unit 8, sizes 8 to 128 and 2,048 entries; for VWIN (R19) with unit 4, sizes 4 to 64 and
1,024 entries. -/
def windowLegal (unit least most limit size base : Nat) : Bool :=
  decide (size % unit = 0) && decide (least ≤ size) && decide (size ≤ most) && decide (base % unit = 0) &&
  decide (base + size ≤ limit)

/-- What WRC writes; `none` for an illegal GWIN or VWIN value (R13, R19). RES0 bits are ignored, read-only registers keep
their value. -/
def writeCsr (s : State) (c : Nat) (r : Csr) (w : Word) : Option State :=
  let n := w.toNat
  let up (f : Ctx → Ctx) : Option State := some (s.updCtx c f)
  let st (f : Stall → Stall) : Option State := some (s.updStall (ctxStall c) f)
  match r with
  | .flags => up (fun v => { v with flags := BitVec.truncate 11 w })
  | .ten => up (fun v => { v with ten := BitVec.truncate 11 w })
  | .rmode => up (fun v => v.setFmtwField 14 2 n)
  | .vt => up (fun v => v.setFmtwField 8 4 n)
  | .mmode => up (fun v => v.setFmtwField 12 2 n)
  | .vl => up (fun v => { v with vl := BitVec.truncate 8 w })
  | .fmtw => up (fun v => { v with fmtw := BitVec.truncate 16 w })
  | .sclp => up (fun v => { v with sclp := w })
  | .mrho => up (fun v => { v with mrho := BitVec.truncate 32 w })
  | .mseed => up (fun v => { v with mseed := w })
  | .status => up (fun v => { v with pl := bitOf n 0, ppl := bitOf n 1, intrap := bitOf n 2 })
  | .epc => up (fun v => { v with epc := w })
  | .ecause => up (fun v => { v with ecause := w })
  | .einfo => up (fun v => { v with einfo := w })
  | .eva => up (fun v => { v with eva := w })
  | .tvec => up (fun v => { v with tvec := w64 (n / 2 * 2) })
  | .gwin =>
    if windowLegal 8 8 128 2048 (bitsOf n 23 16) (bitsOf n 10 0) then
      some (regate (s.updCtx c (fun v => { v with gsize := bitsOf n 23 16, gbase := bitsOf n 10 0 })) (ctxStall c))
    else none
  | .vwin =>
    if windowLegal 4 4 64 1024 (bitsOf n 22 16) (bitsOf n 9 0) then
      some (regate (s.updCtx c (fun v => { v with vsize := bitsOf n 22 16, vbase := bitsOf n 9 0 })) (ctxStall c))
    else none
  | .rcbp => up (fun v => { v with rcbp := w })
  | .ptbr => up (fun v => { v with ptbr := w64 (n % 2 ^ 56) })
  | .liveb => up (fun v => { v with liveb := w })
  | .keyt => up (fun v => { v with keyt := w })
  | .sscratch => up (fun v => { v with sscratch := w })
  | .frec => up (fun v => { v with frec := w64 (bitsOf n 56 6 * 64 + n % 2) })
  | .bgate => some (regate (s.updStall (ctxStall c) (fun k => { k with bgate := BitVec.truncate 17 w })) (ctxStall c))
  | .haltg => st (fun k => { k with haltg := BitVec.truncate 10 w })
  | .tracec => st (fun k => { k with tracec := w64 (bitsOf n 56 8 * 256 + n % 8) })
  | .ttag | .framep | .loc | .tbm | .cyc | .rank | .gsz | .time | .ctxn => some s

end Sys2Proof.Machine
end

