-- ==== Sys2Proof/Machine/Aes.lean ====
section
/-! DEFINITION. The ciphers that the spec names: AES-256, its XTS mode over one 128-byte data unit (R302), its GCM mode over a packet
(R424). Bytes stand in their order in memory; a block is 16 of them. -/

namespace Sys2Proof.Machine

/-! AES-256. -/

/-- The substitution table and its inverse, entry i in byte i. -/
def aesSboxTable : Nat :=
  0x16bb54b00f2d99416842e6bf0d89a18cdf2855cee9871e9b948ed9691198f8e19e1dc186b95735610ef6034866b53e708a8bbd4b1f74dde8c6b4a61c2e2578ba * 2 ^ 1536 +
  0x08ae7a65eaf4566ca94ed58d6d37c8e779e4959162acd3c25c2406490a3a32e0db0b5ede14b8ee4688902a22dc4f816073195d643d7ea7c41744975fec130ccd * 2 ^ 1024 +
  0xd2f3ff1021dab6bcf5389d928f40a351a89f3c507f02f94585334d43fbaaefd0cf584c4a39becb6a5bb1fc20ed00d153842fe329b3d63b52a05a6e1b1a2c8309 * 2 ^ 512 +
  0x75b227ebe28012079a059618c323c7041531d871f1e5a534ccf73f362693fdb7c072a49cafa2d4adf04759fa7dc982ca76abd7fe2b670130c56f6bf27b777c63

/-- The inverse substitution table. -/
def aesInvSboxTable : Nat :=
  0x7d0c2155631469e126d677ba7e042b17619953833cbbebc8b0f52aae4d3be0a0ef9cc9939f7ae52d0d4ab519a97f51605fec8027591012b131c7078833a8dd1f * 2 ^ 1536 +
  0xf45acd78fec0db9a2079d2c64b3e56fc1bbe18aa0e62b76f89c5291d711af1476edf751ce837f9e28535ade72274ac9673e6b4f0cecff297eadc674f4111913a * 2 ^ 1024 +
  0x6b8a130103bdafc1020f3fca8f1e2cd00645b3b80558e4f70ad3bc8c00abd890849d8da75746155edab9edfd5048706c92b6655dcc5ca4d41698688664f6f872 * 2 ^ 512 +
  0x25d18b6d49a25b76b224d92866a12e084ec3fa420b954cee3d23c2a632947b54cbe9dec444438e3487ff2f9b8239e37cfbd7f3819ea340bf38a53630d56a0952

def aesSbox (x : Nat) : Nat := aesSboxTable / 2 ^ (8 * x) % 256
def aesInvSbox (x : Nat) : Nat := aesInvSboxTable / 2 ^ (8 * x) % 256

/-- Multiplication by 2 in GF(2⁸) with the AES polynomial, and by any number below 16. -/
def aesDouble (x : Nat) : Nat := if x < 128 then 2 * x else Nat.xor (2 * x) 0x11B
def aesTimes (n x : Nat) : Nat :=
  let x2 := aesDouble x
  let x4 := aesDouble x2
  let x8 := aesDouble x4
  Nat.xor (Nat.xor (if n % 2 = 1 then x else 0) (if n / 2 % 2 = 1 then x2 else 0))
    (Nat.xor (if n / 4 % 2 = 1 then x4 else 0) (if n / 8 % 2 = 1 then x8 else 0))

def xorBytes (a b : List Nat) : List Nat := List.zipWith Nat.xor a b

/-- One more word of the key schedule, from the words so far, the latest first. -/
def aesNextWord (rcon : Nat) (ws : List (List Nat)) : List Nat :=
  let i := ws.length
  let last := ws.headD []
  let t :=
    if i % 8 = 0 then
      match (last.drop 1 ++ last.take 1).map aesSbox with
      | [] => []
      | b :: r => Nat.xor b rcon :: r
    else if i % 8 = 4 then last.map aesSbox
    else last
  xorBytes (ws.getD 7 []) t
def aesExpandFrom : Nat → Nat → List (List Nat) → List (List Nat)
  | 0, _, ws => ws
  | n + 1, rcon, ws =>
    aesExpandFrom n (if ws.length % 8 = 0 then 2 * rcon else rcon) (aesNextWord rcon ws :: ws)

/-- Groups of `n` numbers. -/
def groupsOf (n : Nat) : Nat → List Nat → List (List Nat)
  | 0, _ => []
  | k + 1, l => l.take n :: groupsOf n k (l.drop n)

/-- The 15 round keys of a 32-byte key. -/
def aesRoundKeys (key : List Nat) : List (List Nat) :=
  groupsOf 16 15 ((aesExpandFrom 52 1 (groupsOf 4 8 key).reverse).reverse.flatten)

/-- Byte (row, column) of a block is byte 4 · column + row. -/
def aesShiftRows (b : List Nat) : List Nat := (List.range 16).map (fun i => b.getD ((i + 4 * (i % 4)) % 16) 0)
def aesInvShiftRows (b : List Nat) : List Nat := (List.range 16).map (fun i => b.getD ((i + 12 * (i % 4)) % 16) 0)

/-- Each column multiplied by the circulant matrix whose first row is `m`. -/
def aesMixWith (m b : List Nat) : List Nat :=
  (List.range 16).map (fun i =>
    (List.range 4).foldl (fun a j => Nat.xor a (aesTimes (m.getD ((4 + j - i % 4) % 4) 0) (b.getD (i / 4 * 4 + j) 0))) 0)
def aesMix (b : List Nat) : List Nat := aesMixWith [2, 3, 1, 1] b
def aesInvMix (b : List Nat) : List Nat := aesMixWith [14, 11, 13, 9] b

/-- The cipher of a block under its round keys, and the inverse. -/
def aesEncrypt (rks : List (List Nat)) (b : List Nat) : List Nat :=
  match rks with
  | [] => b
  | k :: ks =>
    let b1 := ks.dropLast.foldl (fun x rk => xorBytes (aesMix (aesShiftRows (x.map aesSbox))) rk) (xorBytes b k)
    xorBytes (aesShiftRows (b1.map aesSbox)) (ks.getLastD [])
def aesDecrypt (rks : List (List Nat)) (b : List Nat) : List Nat :=
  match rks with
  | [] => b
  | k :: ks =>
    let b1 := aesInvShiftRows (xorBytes b (ks.getLastD [])) |>.map aesInvSbox
    let b2 := ks.dropLast.reverse.foldl (fun x rk => (aesInvShiftRows (aesInvMix (xorBytes x rk))).map aesInvSbox) b1
    xorBytes b2 k

/-! XTS. -/

/-- The tweak of the next block: multiplication by x in GF(2¹²⁸), bytes little-endian. -/
def xtsNext (t : Nat) : Nat := if t < 2 ^ 127 then 2 * t else Nat.xor (2 * t - 2 ^ 128) 0x87

/-- The bytes of a number, least significant first, and its value. -/
def natBytes (n : Nat) (x : Nat) : List Nat := (List.range n).map (fun i => x / 2 ^ (8 * i) % 256)
def bytesNat (l : List Nat) : Nat := l.foldr (fun b a => b + 256 * a) 0

/-- A 128-byte data unit through XTS (R302): `key` holds the two 32-byte keys, that of the data first; the tweak is the unit's number. -/
def xtsUnit (block : List (List Nat) → List Nat → List Nat) (key tweak data : Nat) : Nat :=
  let k1 := aesRoundKeys (natBytes 32 key)
  let t0 := bytesNat (aesEncrypt (aesRoundKeys (natBytes 32 (key / 2 ^ 256))) (natBytes 16 tweak))
  ((List.range 8).foldl (fun (p : Nat × Nat) i =>
    let x := data / 2 ^ (128 * i) % 2 ^ 128
    let y := Nat.xor (bytesNat (block k1 (natBytes 16 (Nat.xor x p.2)))) p.2
    (p.1 + y * 2 ^ (128 * i), xtsNext p.2)) (0, t0)).1
def xtsEncrypt (key tweak data : Nat) : Nat := xtsUnit aesEncrypt key tweak data
def xtsDecrypt (key tweak data : Nat) : Nat := xtsUnit aesDecrypt key tweak data

/-! GCM, with a 12-byte nonce. -/

/-- A block as a number, its first byte the most significant, and back. -/
def blockNat (l : List Nat) : Nat := l.foldl (fun a b => 256 * a + b) 0
def natBlock (n x : Nat) : List Nat := (natBytes n x).reverse

/-- The product in GF(2¹²⁸), the first bit of a block the coefficient of 1. -/
def gcmMul (x h : Nat) : Nat :=
  ((List.range 128).foldl (fun (p : Nat × Nat) i =>
    (if x / 2 ^ (127 - i) % 2 = 1 then Nat.xor p.1 p.2 else p.1,
     if p.2 % 2 = 1 then Nat.xor (p.2 / 2) (0xE1 * 2 ^ 120) else p.2 / 2)) (0, h)).1

/-- Bytes as blocks, the last one filled with zeros. -/
def gcmBlocks (l : List Nat) : List Nat :=
  (groupsOf 16 ((l.length + 15) / 16) (l ++ List.replicate 15 0)).map blockNat

/-- The key stream: counter blocks 2, 3, … -/
def gcmMask (rks : List (List Nat)) (nonce data : List Nat) : List Nat :=
  xorBytes data ((List.range ((data.length + 15) / 16)).flatMap (fun i => aesEncrypt rks (nonce ++ natBlock 4 (i + 2))))

/-- The tag over the additional data and the ciphertext. -/
def gcmTag (rks : List (List Nat)) (nonce aad cipher : List Nat) : List Nat :=
  let h := blockNat (aesEncrypt rks (List.replicate 16 0))
  let y := (gcmBlocks aad ++ gcmBlocks cipher ++ [8 * aad.length * 2 ^ 64 + 8 * cipher.length]).foldl
    (fun a b => gcmMul (Nat.xor a b) h) 0
  xorBytes (natBlock 16 y) (aesEncrypt rks (nonce ++ natBlock 4 1))

/-- A packet sealed: its ciphertext and tag; and opened: its plaintext, where the tag is right. -/
def gcmSeal (key : Nat) (nonce aad plain : List Nat) : List Nat × List Nat :=
  let rks := aesRoundKeys (natBytes 32 key)
  let c := gcmMask rks nonce plain
  (c, gcmTag rks nonce aad c)
def gcmOpen (key : Nat) (nonce aad cipher tag : List Nat) : Option (List Nat) :=
  let rks := aesRoundKeys (natBytes 32 key)
  if gcmTag rks nonce aad cipher = tag then some (gcmMask rks nonce cipher) else none

end Sys2Proof.Machine
end

