-- ==== Sys2Proof/Machine/Memory.lean ====
section
/-! DEFINITION. The levels of memory (R277 to R294): where a physical address is stored, the home copies, the L1 lines of the
stalls with ownership and writer tags, the visitor lines of the halls, and what a release and an acquire do to them. -/

namespace Sys2Proof.Machine

/-- The storage a physical address selects within its package (Table 13-5). -/
inductive Storage
  | dram
  | sram (hall way off : Nat)
  | scratch (arcade off : Nat)
  | tcm (stall off : Nat)
  | hallRegs (hall off : Nat)
  | aperture (arcade channel off : Nat)
  | crier (off : Nat)
  | host (off : Nat)
  | unassigned
  deriving DecidableEq, Repr

def pkgOf (pa : Nat) : Nat := pa / 2 ^ 43 % 2 ^ 13

/-- Table 13-5; units are numbered over all packages. -/
def storageOf (pa : Nat) : Storage :=
  let p := pkgOf pa
  let o := pa % 2 ^ 43
  if o < 2 ^ 39 then .dram
  else if 2 ^ 40 ≤ o ∧ o < 2 ^ 40 + 2 ^ 34 ∧ (o - 2 ^ 40) % 2 ^ 32 < 2 ^ 26 then
    .sram (p * 4 + (o - 2 ^ 40) / 2 ^ 32) ((o - 2 ^ 40) % 2 ^ 32 / 2 ^ 23) (o % 2 ^ 23)
  else if 2 ^ 41 ≤ o ∧ o < 2 ^ 41 + 2 ^ 28 then .scratch (p * 64 + (o - 2 ^ 41) / 2 ^ 22) (o % 2 ^ 22)
  else if 2 ^ 41 + 2 ^ 36 ≤ o ∧ o < 2 ^ 41 + 2 ^ 36 + 2 ^ 27 then
    .tcm (p * 512 + (o - (2 ^ 41 + 2 ^ 36)) / 2 ^ 18) (o % 2 ^ 18)
  else if 0x30000000000 ≤ o ∧ o < 0x30000000000 + 2 ^ 26 then
    .hallRegs (p * 4 + (o - 0x30000000000) / 2 ^ 24) (o % 2 ^ 24)
  else if 0x34000000000 ≤ o ∧ o < 0x34000000000 + 2 ^ 22 then
    .aperture (p * 64 + (o - 0x34000000000) / 2 ^ 16) (o / 2 ^ 12 % 16) (o % 2 ^ 12)
  else if 0x34000000000 ≤ o ∧ o < 0x38000000000 then .crier (o - 0x34000000000)
  else if 2 ^ 42 ≤ o then .host (o - 2 ^ 42)
  else .unassigned

/-- The physical base of the scratchpad of an arcade and of the TCM of a stall (Table 13-5). -/
def scratchBase (ak : Nat) : Nat := ak / 64 * 2 ^ 43 + 2 ^ 41 + ak % 64 * 2 ^ 22
def tcmBase (k : Nat) : Nat := k / 512 * 2 ^ 43 + (2 ^ 41 + 2 ^ 36) + k % 512 * 2 ^ 18

/-- The stack of a DRAM address and its home hall in the package (R291). -/
def dramStack (pa : Nat) : Nat :=
  if bitOf pa 38 then bitsOf pa 37 35 else Nat.xor (bitsOf pa 10 8) (bitsOf pa 13 11)
def homeHall (pa : Nat) : Nat := pkgOf pa * 4 + dramStack pa / 2
/-- The home slice of a line in a hall (R288); a carved word's slice follows its offset (R289). -/
def sliceOf (pa : Nat) : Nat := Nat.xor (Nat.xor (bitsOf pa 11 7) (bitsOf pa 16 12)) (bitsOf pa 21 17)
/-- The bank of a scratchpad offset (R285). -/
def bankOf (off : Nat) : Nat := (off / 8 % 128 + off / 8 / 128) % 128

/-! Home copies. -/

/-- What a byte of memory that nothing has written reads as (log entry 2). -/
abbrev blankByte : Byte := 0

/-- The canonical form of a memory: addresses strictly rising, and no entry that equals what an unlisted address reads as. -/
def Memory.wf (m : List Host.Cell) : Bool := Store.canonical blankByte m

def isDram (pa : Nat) : Bool := decide (pa % 2 ^ 43 < 2 ^ 39)

/-- The key that an id names in the DRAM controllers of a package, plus 1; 0 for plaintext (R302). A line is written back under an
evicted id with a key that nothing names (log entry 7). -/
def keyOf (s : State) (pkg id : Nat) : Nat :=
  if id = 0 then 0 else ((s.pkg pkg).keys.lookup id).getD (Config.lostKey id s.tick) + 1

/-- The plaintext of a 128-byte unit as it was written. -/
def unitPlain (s : State) (u : Nat) : BitVec 1024 :=
  (List.range 128).foldl (fun a i => a ||| (BitVec.zeroExtend 1024 (Store.get blankByte s.mem (u * 128 + i)) <<< (8 * i))) 0

/-- What a unit written under one key reads as under another: the decryption under the reading key of the ciphertext that lies in the
DRAM; under key id 0 nothing is encrypted or decrypted (R302). -/
def recrypt (written reading u plain : Nat) : Nat :=
  let stored := if written = 0 then plain else xtsEncrypt (written - 1) u plain
  if reading = 0 then stored else xtsDecrypt (reading - 1) u stored

/-- Where a byte of an address lies: its own address, or of host space the host's physical address HBASE + h, beyond the package's (R440;
log entry 106). -/
def memCell (s : State) (pa : Nat) : Nat :=
  match storageOf pa with
  | .host h => 2 ^ 60 + ((s.pkg (pkgOf pa)).hbase.toNat + h) % 2 ^ 64
  | _ => pa

/-- A byte as it lies in its storage, read under a key id (R302). -/
def storedByte (s : State) (key pa : Nat) : Byte :=
  if isDram pa && Store.get 0 s.unitKey (pa / 128) != keyOf s (pkgOf pa) key then
    BitVec.ofNat 8
      (recrypt (Store.get 0 s.unitKey (pa / 128)) (keyOf s (pkgOf pa) key) (pa / 128) (unitPlain s (pa / 128)).toNat / 2 ^ (8 * (pa % 128)))
  else Store.get blankByte s.mem (memCell s pa)

/-- The index of an L2 line in its table, and what it names. -/
def l2Key (hall key line : Nat) : Nat := (hall * 2048 + key) * 2 ^ 49 + line
def l2Hall (e : Nat) : Nat := e / 2 ^ 49 / 2048
def l2KeyId (e : Nat) : Nat := e / 2 ^ 49 % 2048
def l2LineNo (e : Nat) : Nat := e % 2 ^ 49

/-- The home copy of a line that the L2 of its home hall holds (R288). -/
def homeLine (s : State) (key pa : Nat) : Option L2Line :=
  if isDram pa then s.l2.lookup (l2Key (homeHall pa) key (pa / 128)) else none

def L2Line.byte (v : L2Line) (off : Nat) : Byte := BitVec.truncate 8 (v.data >>> (8 * off))

/-- A byte of the home copy: of the line in the L2 of its home hall, or of its storage. -/
def homeByte (s : State) (key pa : Nat) : Byte :=
  match homeLine s key pa with
  | some v => v.byte (pa % 128)
  | none => storedByte s key pa

def homeBytes (s : State) (key pa n : Nat) : List Byte := (List.range n).map (fun i => homeByte s key (pa + i))

/-- A byte of the home copy is in error (R364). -/
def homeBad (s : State) (key pa : Nat) : Bool :=
  match homeLine s key pa with
  | some v => v.poison.getLsbD (pa % 128)
  | none => Store.get false s.poison (memCell s pa)

/-- List bytes from an address on. -/
def writeMem : List Host.Cell → Nat → List Byte → List Host.Cell
  | m, _, [] => m
  | m, a, b :: bs => writeMem (Store.set blankByte m a b) (a + 1) bs

/-- The memory operation: bytes written at their home, no longer poisoned (R364). -/
def putBytes (s : State) (pa : Nat) (bs : List Byte) : State :=
  { s with
    mem := writeMem s.mem pa bs
    poison := if s.poison.isEmpty then s.poison
      else (List.range bs.length).foldl (fun m i => Store.del m (pa + i)) s.poison }

/-- A DRAM unit is to be written under a key id: its bytes become what they read as under it (R302); those in error stay so (R364). -/
def claimUnit (s : State) (key u : Nat) : State :=
  if Store.get 0 s.unitKey u = keyOf s (pkgOf (u * 128)) key then s
  else
    let bs := (List.range 128).map (fun i => storedByte s key (u * 128 + i))
    { s with mem := writeMem s.mem (u * 128) bs, unitKey := Store.set 0 s.unitKey u (keyOf s (pkgOf (u * 128)) key) }

/-- Write bytes at their storage under a key id. The bytes lie in one 128-byte unit. -/
def writeStored (s : State) (key pa : Nat) (bs : List Byte) : State :=
  if isDram pa then putBytes (claimUnit s key (pa / 128)) pa bs else putBytes s (memCell s pa) bs

/-- Little-endian value of bytes (R6), and the bytes of a value. -/
def leNat : List Byte → Nat
  | [] => 0
  | b :: bs => b.toNat + 256 * leNat bs
def leBytes : Nat → Nat → List Byte
  | 0, _ => []
  | n + 1, v => BitVec.ofNat 8 v :: leBytes n (v / 256)

/-- `n` ones from bit `off` on. -/
def onesAt (n off : Nat) : Nat := (2 ^ n - 1) * 2 ^ off

/-- Replace `n` bytes from byte `off` on. -/
def replaceBytes (w : Nat) (d : BitVec w) (off : Nat) (bs : List Byte) : BitVec w :=
  (d &&& ~~~(BitVec.ofNat w (onesAt (8 * bs.length) (8 * off)))) ||| BitVec.ofNat w (leNat bs * 2 ^ (8 * off))

def bytesBits (w : Nat) (bs : List Byte) : BitVec w := BitVec.ofNat w (leNat bs)
def bitsBytes (n off v : Nat) : List Byte := leBytes n (v / 2 ^ (8 * off))

/-- Bytes written into an L2 line, which are dirty and in error no longer. -/
def L2Line.write (v : L2Line) (off : Nat) (bs : List Byte) : L2Line :=
  { v with
    data := replaceBytes 1024 v.data off bs
    dirty := v.dirty ||| BitVec.ofNat 128 (onesAt bs.length off)
    poison := v.poison &&& ~~~(BitVec.ofNat 128 (onesAt bs.length off)) }

/-- Write bytes at their home under a key id: into the line that the L2 of the home hall holds, or at their storage. The bytes lie in
one 128-byte unit. -/
def writeHome (s : State) (key pa : Nat) (bs : List Byte) : State :=
  match homeLine s key pa with
  | some v => { s with l2 := Store.put s.l2 (l2Key (homeHall pa) key (pa / 128)) (v.write (pa % 128) bs) }
  | none => writeStored s key pa bs

/-- A byte of the home copy is marked in error. -/
def markHome (s : State) (key pa : Nat) : State :=
  match homeLine s key pa with
  | some v =>
    { s with l2 := Store.put s.l2 (l2Key (homeHall pa) key (pa / 128)) { v with poison := v.poison ||| BitVec.ofNat 128 (2 ^ (pa % 128)) } }
  | none => { s with poison := Store.set false s.poison (memCell s pa) true }

/-! Lines of a hall's L2 (R288). -/

/-- The hall is the home hall of a DRAM address. -/
def homeIn (hall pa : Nat) : Bool := isDram pa && homeHall pa == hall

/-- The access goes to the home copy and enters no L2: a NEAR page of another hall (R292). -/
def bypasses (hall : Nat) (p : Place) : Bool := p.near && !homeIn hall p.pa

/-- A line whose clean bytes can be used: the home copy, or one of the current epoch (R288). -/
def L2Line.live (v : L2Line) (home : Bool) (epoch : Nat) : Bool := home || v.epoch == epoch

/-- The bytes that a mask of `n` bytes names, as a mask of bits. -/
def byteMask (n : Nat) (m : BitVec n) : Nat := (List.range n).foldl (fun a i => if m.getLsbD i then Nat.lor a (255 * 2 ^ (8 * i)) else a) 0

/-- A line of an older epoch keeps its dirty bytes and takes the others anew (R288, R308; log entry 121). -/
def L2Line.refresh (v new : L2Line) : L2Line :=
  let m := BitVec.ofNat 1024 (byteMask 128 v.dirty)
  { new with
    data := (v.data &&& m) ||| (new.data &&& ~~~m), dirty := v.dirty
    poison := (v.poison &&& v.dirty) ||| (new.poison &&& ~~~v.dirty) }

/-- The set of a line: its slice, and its index of 2,048 there (log entry 36). -/
def l2Set (line : Nat) : Nat := sliceOf (line * 128) + 32 * (line / 32 % 2048)

/-- The lines of a set of a hall. -/
def setLines (s : State) (hall set : Nat) : List (Nat × L2Line) :=
  s.l2.filter (fun e => l2Hall e.1 == hall && l2Set (l2LineNo e.1) == set)

/-- The ways of a hall's slices that hold lines: 16, but those carved out (R289). -/
def lineWays (h : Hall) : List Nat :=
  (List.range 16).filter (fun w => decide (w < 8) || !((h.carveOf (w - 8)).en || (h.carveOf (w - 8)).pending))

/-- A line that TFPIN has pinned (R350). -/
def isPinned (s : State) (hall key line : Nat) : Bool :=
  (hallArcades hall).any (fun ak => (s.arcade ak).pins.any (fun p => p.lines.contains (key, line)))

/-- One of the entries that may go: those that `last` names go only when no other is left; the choice is free (log entry 36). -/
def pickVictim {α : Type} (s : State) (line : Nat) (last : α → Bool) (l : List (Nat × α)) : Option (Nat × α) :=
  let first := l.filter (fun e => !last e.2)
  let c := if first.isEmpty then l else first
  List.head? (List.drop (Config.freeVictim s.tick line % c.length) c)

/-- The dirty bytes of an L2 line go to its storage, or from a visitor copy to the home copy, those in error marked so (R288, R364); the
line stays, clean. -/
def writeBackL2 (s : State) (hall key line : Nat) : State :=
  match s.l2.lookup (l2Key hall key line) with
  | none => s
  | some v =>
    if v.dirty = 0 then s
    else
      let home := homeIn hall (line * 128)
      let s1 : State := if home then { s with l2 := Store.del s.l2 (l2Key hall key line) } else s
      let s2 := (List.range 128).foldl (fun t i =>
        if v.dirty.getLsbD i then
          let t1 := writeHome t key (line * 128 + i) [v.byte i]
          if v.poison.getLsbD i then markHome t1 key (line * 128 + i) else t1
        else t) s1
      { s2 with l2 := Store.put s2.l2 (l2Key hall key line) { v with dirty := 0 } }

/-- A line leaves the L2 of a hall, its dirty bytes written back. -/
def dropL2 (s : State) (hall key line : Nat) : State :=
  let s1 := writeBackL2 s hall key line
  { s1 with l2 := Store.del s1.l2 (l2Key hall key line) }

/-- A line enters the L2 of a hall, in a free way of its set or in that of a line that goes; in a set full of pinned lines it finds no
place. -/
def placeL2 (s : State) (hall key line : Nat) (v : L2Line) : State × Option L2Line :=
  let ls := setLines s hall (l2Set line)
  let put (t : State) (w : Nat) : State × Option L2Line :=
    ({ t with l2 := Store.put t.l2 (l2Key hall key line) { v with way := w } }, some { v with way := w })
  match (lineWays (s.hall hall)).find? (fun w => !ls.any (fun e => e.2.way == w)) with
  | some w => put s w
  | none =>
    match pickVictim s line L2Line.keep (ls.filter (fun e => !isPinned s hall (l2KeyId e.1) (l2LineNo e.1))) with
    | some e => put (dropL2 s hall (l2KeyId e.1) (l2LineNo e.1)) e.2.way
    | none => (s, none)

/-- A line as the home copy, or its storage, gives it. -/
def filledLine (s : State) (key line epoch way : Nat) (keep : Bool) : L2Line :=
  { data := bytesBits 1024 (homeBytes s key (line * 128) 128), dirty := 0,
    poison := (List.range 128).foldl (fun a i => if homeBad s key (line * 128 + i) then a ||| BitVec.ofNat 128 (2 ^ i) else a) 0,
    epoch := epoch, way := way, keep := keep }

/-- The 128-byte line of a place as the hall's L2 holds it, filled where it holds none that can be used. -/
def fetchL2 (s : State) (hall : Nat) (p : Place) (keep : Bool) : State × Option L2Line :=
  let line := p.pa / 128
  let e := (s.hall hall).epoch
  match s.l2.lookup (l2Key hall p.key line) with
  | some v =>
    let v' : L2Line := 
      if v.live (homeIn hall p.pa) e then { v with keep := v.keep || keep } else v.refresh (filledLine s p.key line e v.way keep)
    (if v' = v then s else { s with l2 := Store.put s.l2 (l2Key hall p.key line) v' }, some v')
  | none => placeL2 s hall p.key line (filledLine s p.key line e 0 keep)

/-- Read bytes of a cached place at the L2 of a hall. -/
def hallRead (s : State) (hall : Nat) (p : Place) (n : Nat) (keep : Bool := false) : State × List Byte :=
  if bypasses hall p then (s, homeBytes s p.key p.pa n)
  else
    match fetchL2 s hall p keep with
    | (s', some v) => (s', bitsBytes n (p.pa % 128) v.data.toNat)
    | (s', none) => (s', homeBytes s' p.key p.pa n)

/-- What a hall's L2 would read is in error (R364). -/
def hallBad (s : State) (hall : Nat) (p : Place) (n : Nat) : Bool :=
  let home := (List.range n).any (fun i => homeBad s p.key (p.pa + i))
  if bypasses hall p then home
  else
    match s.l2.lookup (l2Key hall p.key (p.pa / 128)) with
    | some v =>
      if v.live (homeIn hall p.pa) (s.hall hall).epoch then (List.range n).any (fun i => v.poison.getLsbD (p.pa % 128 + i))
      else (List.range n).any (fun i =>
        if v.dirty.getLsbD (p.pa % 128 + i) then v.poison.getLsbD (p.pa % 128 + i) else homeBad s p.key (p.pa + i))
    | none => home

/-- Write bytes of a cached place at the L2 of a hall: into the home copy, or into a visitor line. -/
def hallWrite (s : State) (hall : Nat) (p : Place) (bs : List Byte) (keep : Bool := false) : State :=
  if bypasses hall p then writeHome s p.key p.pa bs
  else
    match fetchL2 s hall p keep with
    | (s', some v) => { s' with l2 := Store.put s'.l2 (l2Key hall p.key (p.pa / 128)) (v.write (p.pa % 128) bs) }
    | (s', none) => writeHome s' p.key p.pa bs

/-- A byte of a line of a hall's L2 is marked in error. -/
def markHall (s : State) (hall key pa : Nat) : State :=
  match s.l2.lookup (l2Key hall key (pa / 128)) with
  | some v => { s with l2 := Store.put s.l2 (l2Key hall key (pa / 128)) { v with poison := v.poison ||| BitVec.ofNat 128 (2 ^ (pa % 128)) } }
  | none => markHome s key pa

/-! L1 lines (R281 to R284). -/

def l1Key (stall key line : Nat) : Nat := (stall * 2048 + key) * 2 ^ 50 + line
def l1Stall (k : Nat) : Nat := k / 2 ^ 50 / 2048
def l1KeyId (k : Nat) : Nat := k / 2 ^ 50 % 2048
def l1LineNo (k : Nat) : Nat := k % 2 ^ 50

/-- The line can be used: Owned, or Shared of the current epoch (R283). -/
def Line.live (l : Line) (epoch : Nat) : Bool := l.owned || l.epoch == epoch

/-- The dirty bytes of an L1 line go to the home slice in its hall, those in error marked so (R364); the line stays Owned and clean
with WTAG 127 (R282). -/
def writeBackLine (s : State) (k key line : Nat) : State :=
  match s.l1.lookup (l1Key k key line) with
  | none => s
  | some l =>
    let hall := stallHall k
    let s' := if l.dirty = 0 then s else (List.range 64).foldl (fun t i =>
      if l.dirty.getLsbD i then
        let t1 := hallWrite t hall ⟨line * 64 + i, true, l.near, key, 0⟩ (bitsBytes 1 i l.data.toNat)
        if l.poison.getLsbD i then markHall t1 hall key (line * 64 + i) else t1
      else t) s
    { s' with l1 := Store.put s'.l1 (l1Key k key line) { l with dirty := 0, wtag := 127 } }

def dropLine (s : State) (k key line : Nat) : State := { s with l1 := Store.del s.l1 (l1Key k key line) }

/-- The stalls that hold a line, Owned or not, among those that `f` selects. -/
def holders (s : State) (key line : Nat) (f : Nat → Line → Bool) : List Nat :=
  (s.l1.filter (fun e => l1KeyId e.1 == key && l1LineNo e.1 == line && f (l1Stall e.1) e.2)).map (fun e => l1Stall e.1)

/-- A line is taken from the L1 that owns it: its dirty bytes go to the home slice and the copy is dropped (R281). -/
def recallLine (s : State) (key line k : Nat) : State := dropLine (writeBackLine s k key line) k key line

/-- A line enters the L1 of a stall: in a set of 16 ways, index line mod 1,024 (log entry 36), another line goes, written back (Table
13-1, Table 13-3). -/
def placeL1 (s : State) (k key line : Nat) (l : Line) : State :=
  let mine (e : Nat × Line) : Bool := l1Stall e.1 == k && l1LineNo e.1 % 1024 == line % 1024 && e.1 != l1Key k key line
  let ls := s.l1.filter mine
  let s1 := if ls.length < 16 then s
    else match pickVictim s line Line.keep ls with
      | some e => recallLine s (l1KeyId e.1) (l1LineNo e.1) k
      | none => s
  { s1 with l1 := Store.put s1.l1 (l1Key k key line) l }

/-- The bytes of a 64-byte line that are in error, as a hall's L2 reads them. -/
def linePoison (s : State) (hall : Nat) (p : Place) : BitVec 64 :=
  (List.range 64).foldl (fun a i =>
    if hallBad s hall { p with pa := p.pa / 64 * 64 + i } 1 then a ||| BitVec.ofNat 64 (2 ^ i) else a) 0

/-- Stall `k` gets the line Owned: other owners of its hall are recalled, copies in its arcade dropped, the line filled (R281). -/
def ownLine (s : State) (k : Nat) (p : Place) (keep : Bool) : State :=
  let line := p.pa / 64
  let mine := s.l1.lookup (l1Key k p.key line)
  if (mine.map (·.owned)).getD false then s
  else
    let owners := holders s p.key line (fun k' l => l.owned && k' != k && stallHall k' == stallHall k)
    let s1 := owners.foldl (fun t k' => recallLine t p.key line k') s
    let shared := holders s1 p.key line (fun k' l => !l.owned && k' != k && stallArcade k' == stallArcade k)
    let s2 := shared.foldl (fun t k' => dropLine t k' p.key line) s1
    let bad := linePoison s2 (stallHall k) p
    let (s3, bs) := hallRead s2 (stallHall k) { p with pa := line * 64 } 64 keep
    placeL1 s3 k p.key line ⟨true, bytesBits 512 bs, 0, bad, 127, (s3.stall k).l1Epoch, keep, p.near, (s3.hall (stallHall k)).epoch⟩

/-- Shared copies in the arcade of an Owned line go before a store on it (R281). -/
def dropShared (s : State) (k key line : Nat) : State :=
  (holders s key line (fun k' l => !l.owned && k' != k && stallArcade k' == stallArcade k)).foldl
    (fun t k' => dropLine t k' key line) s

/-- The writer tag after a store by context `c` of the stall (R282). -/
def nextTag (old c : Nat) : Nat := if old = 127 then c else if old = c then c else 64

/-- Bytes written into an L1 line, in error no longer. -/
def Line.write (l : Line) (off : Nat) (bs : List Byte) : Line :=
  { l with data := replaceBytes 512 l.data off bs, poison := l.poison &&& ~~~(BitVec.ofNat 64 (onesAt bs.length off)) }

/-- A store by context `c` performed in its stall's L1 (R281, R282). -/
def storeL1 (s : State) (c : Nat) (p : Place) (bs : List Byte) (keep through : Bool) : State :=
  let k := ctxStall c
  let s1 := dropShared (ownLine s k p keep) k p.key (p.pa / 64)
  match s1.l1.lookup (l1Key k p.key (p.pa / 64)) with
  | none => s1
  | some l =>
    let l' : Line := { l.write (p.pa % 64) bs with keep := l.keep || keep }
    let l'' : Line := if through then l' else
      { l' with dirty := l.dirty ||| BitVec.ofNat 64 (onesAt bs.length (p.pa % 64)), wtag := nextTag l.wtag (c % 64) }
    let s2 := { s1 with l1 := Store.put s1.l1 (l1Key k p.key (p.pa / 64)) l'' }
    if through then hallWrite s2 (stallHall k) p bs else s2

/-- A store performed at the home slice, every L1 copy in its hall updated in place (Table 13-3, no-allocate). -/
def storeNoAlloc (s : State) (c : Nat) (p : Place) (bs : List Byte) : State :=
  let k := ctxStall c
  let line := p.pa / 64
  let s1 := hallWrite s (stallHall k) p bs
  (holders s1 p.key line (fun k' _ => stallHall k' == stallHall k)).foldl (fun t k' =>
    match t.l1.lookup (l1Key k' p.key line) with
    | some l => { t with l1 := Store.put t.l1 (l1Key k' p.key line) (l.write (p.pa % 64) bs) }
    | none => t) s1

/-- A store performed at its storage or in the L1 (R309, Table 13-3). -/
def performStore (s : State) (c : Nat) (p : Place) (bs : List Byte) (policy : Policy) : State :=
  if p.cached then
    match policy with
    | .page => storeL1 s c p bs false false
    | .nal => storeNoAlloc s c p bs
    | .keep => storeL1 s c p bs true false
    | .wt => storeL1 s c p bs false true
  else writeHome s p.key p.pa bs

/-- The stall of an arcade whose L1 owns a line (R281). -/
def ownerIn (s : State) (ak key line : Nat) : Option Nat := (holders s key line (fun k l => l.owned && stallArcade k == ak)).head?

/-- The L1 of the own arcade that supplies a line that the stall's own L1 does not hold (R281). -/
def supplier (s : State) (k : Nat) (p : Place) : Option Nat :=
  (holders s p.key (p.pa / 64) (fun k' l => l.owned && k' != k && stallArcade k' == stallArcade k)).head?

/-- The clean bytes of an Owned line are older than an acquire at `.pk` or wider in its hall (log entry 121). -/
def Line.old (l : Line) (s : State) (k : Nat) : Bool := l.owned && l.vepoch != (s.hall (stallHall k)).epoch

/-- A byte of an Owned line is in error, as the line would be read. -/
def lineBad (s : State) (k : Nat) (p : Place) (l : Line) (i : Nat) : Bool :=
  if l.old s k && !l.dirty.getLsbD (p.pa % 64 + i) then hallBad s (stallHall k) { p with pa := p.pa + i } 1
  else l.poison.getLsbD (p.pa % 64 + i)

/-- A line of stall `k` as it is read. An Owned line is kept whatever its epochs (R283); after an acquire at `.pk` or wider in its hall
its clean bytes are taken anew from the L2, so that it gives no value that the acquire has put behind (R308; log entry 121). -/
def readLine (s : State) (k : Nat) (p : Place) (l : Line) : State × Line :=
  if !l.old s k then (s, l)
  else
    let q : Place := { p with pa := p.pa / 64 * 64, near := l.near }
    let bad := linePoison s (stallHall k) q
    let (s1, bs) := hallRead s (stallHall k) q 64 l.keep
    let m := BitVec.ofNat 512 (byteMask 64 l.dirty)
    let l1 : Line := { l with
      data := (l.data &&& m) ||| (bytesBits 512 bs &&& ~~~m), poison := (l.poison &&& l.dirty) ||| (bad &&& ~~~l.dirty)
      vepoch := (s1.hall (stallHall k)).epoch }
    ({ s1 with l1 := Store.put s1.l1 (l1Key k p.key (p.pa / 64)) l1 }, l1)

/-- The line that stall `k` holds, as it is read. -/
def readHeld (s : State) (k : Nat) (p : Place) : State × Option Line :=
  match s.l1.lookup (l1Key k p.key (p.pa / 64)) with
  | some l => let (s1, l1) := readLine s k p l; (s1, some l1)
  | none => (s, none)

/-- A load of bytes that lie in one line: the bytes, and whether the L1 or the own storage served it at once (R212, R281). -/
def loadPlace (s : State) (c : Nat) (p : Place) (n : Nat) (policy : Policy) : State × List Byte × Bool :=
  let k := ctxStall c
  if p.cached then
    let line := p.pa / 64
    let fill (t : State) (d : BitVec 512) (bad : BitVec 64) : State :=
      if policy = .nal then t
      else placeL1 t k p.key line ⟨false, d, 0, bad, 127, (t.stall k).l1Epoch, policy == .keep, p.near, (t.hall (stallHall k)).epoch⟩
    let miss : State × List Byte × Bool :=
      match (supplier s k p).map (fun k' => readHeld s k' p) with
      | some (s1, some l) => (fill s1 l.data l.poison, bitsBytes n (p.pa % 64) l.data.toNat, false)
      | _ =>
        let bad := linePoison s (stallHall k) p
        let (s1, bs) := hallRead s (stallHall k) { p with pa := line * 64 } 64 (policy == .keep)
        (fill s1 (bytesBits 512 bs) bad, (bs.drop (p.pa % 64)).take n, false)
    match s.l1.lookup (l1Key k p.key line) with
    | some l =>
      if l.live (s.stall k).l1Epoch then
        let (s1, l1) := readLine s k p l
        (if policy == .keep && !l1.keep then { s1 with l1 := Store.put s1.l1 (l1Key k p.key line) { l1 with keep := true } } else s1,
          bitsBytes n (p.pa % 64) l1.data.toNat, true)
      else miss
    | none => miss
  else
    match storageOf p.pa with
    | .tcm k' _ => (s, homeBytes s 0 p.pa n, k' == k)
    | .scratch a _ => (s, homeBytes s 0 p.pa n, a == ctxArcade c)
    | _ => (s, homeBytes s p.key p.pa n, false)

/-- Bytes of one line as the units of an arcade read them, and whether they are in error: from an L1 of the arcade that owns the line, or the
L2 of its hall (R154, R348). -/
def arcadeRead (s : State) (ak : Nat) (p : Place) (n : Nat) : State × List Byte × Bool :=
  match (ownerIn s ak p.key (p.pa / 64)).map (fun k => readHeld s k p) with
  | some (s1, some l) => (s1, bitsBytes n (p.pa % 64) l.data.toNat, (List.range n).any (fun i => l.poison.getLsbD (p.pa % 64 + i)))
  | _ =>
    let (s1, bs) := hallRead s (arcadeHall ak) p n
    (s1, bs, hallBad s (arcadeHall ak) p n)

/-- What a load of context `c` would read is in error (R364): in the own L1, in the L1 that supplies the line, in the L2 of the hall, or
at the home copy. -/
def isPoisoned (s : State) (c : Nat) (p : Place) (n : Nat) : Bool :=
  let k := ctxStall c
  let inLine (k' : Nat) (l : Line) : Bool := (List.range n).any (lineBad s k' p l)
  let beyond : Bool :=
    match supplier s k p with
    | some k' =>
      match s.l1.lookup (l1Key k' p.key (p.pa / 64)) with
      | some l => inLine k' l
      | none => false
    | none => hallBad s (stallHall k) p n
  if p.cached then
    match s.l1.lookup (l1Key k p.key (p.pa / 64)) with
    | some l => if l.live (s.stall k).l1Epoch then inLine k l else beyond
    | none => beyond
  else (List.range n).any (fun i => homeBad s p.key (p.pa + i))

/-! TBM (R294, R315). -/

/-- The bit of Table 13-7 that a store by context `c` sets. -/
def tbmBit (c : Nat) (p : Place) : BitVec 51 :=
  let pk := ctxPkg c
  let h := ctxHall c
  let set (i : Nat) : BitVec 51 := BitVec.ofNat 51 (2 ^ i)
  if pkgOf p.pa ≠ pk then set 50
  else match storageOf p.pa with
    | .dram =>
      (if homeHall p.pa = h then 0 else set 49) ||| (if homeHall p.pa = h || (p.cached && !p.near) then set (sliceOf p.pa) else 0)
    | .sram h' _ off => if h' = h then set (off / 128 % 32) else set 49
    | .scratch a off =>
      if a = ctxArcade c then set (32 + bankOf off / 8) else if arcadeHall a = h then set 48 else set 49
    | .tcm k _ =>
      if k = ctxStall c then 0 else if stallArcade k = ctxArcade c then 0 else if stallHall k = h then set 48 else set 49
    | .host _ => set 50
    | _ => 0

/-- The TBM bits a release at a scope probes and clears (R315). -/
def tbmCovered : Scope → BitVec 51
  | .th => 0
  | .st => 0
  | .ac => BitVec.ofNat 51 (onesAt 16 32)
  | .ha => BitVec.ofNat 51 (onesAt 49 0)
  | .pk => BitVec.ofNat 51 (onesAt 50 0)
  | .sy => BitVec.ofNat 51 (onesAt 51 0)

/-! Releases and acquires (R293, R312). -/

/-- The TBM bit of a line's write-back from the L1: its home slice in the own hall; of a NEAR line of another hall, the home copy there
(R292, R294). -/
def lineBit (c line : Nat) (near : Bool) : BitVec 51 :=
  BitVec.ofNat 51 (2 ^ (if near && !homeIn (ctxHall c) (line * 64) then 49 else sliceOf (line * 64)))

/-- Write-back of the lines of a stall whose WTAG is context `c` or MULTI (R282); each marks its destination in TBM (R294). -/
def writeBackTagged (s : State) (c : Nat) : State :=
  let k := ctxStall c
  (s.l1.filter (fun e => l1Stall e.1 == k && (e.2.wtag == c % 64 || e.2.wtag == 64))).foldl
    (fun t e => (writeBackLine t k (l1KeyId e.1) (l1LineNo e.1)).updCtx c (fun v =>
      { v with tbm := v.tbm ||| lineBit c (l1LineNo e.1) e.2.near })) s

/-- Write-back of the dirty visitor lines of a hall in the slices that TBM marks (Table 13-6). -/
def writeBackVisitors (s : State) (hall : Nat) (tbm : BitVec 51) : State :=
  let marked (e : Nat × L2Line) : Bool :=
    l2Hall e.1 == hall && e.2.dirty != 0 && !homeIn hall (l2LineNo e.1 * 128) && tbm.getLsbD (sliceOf (l2LineNo e.1 * 128))
  ((s.l2.filter marked).map (·.1)).foldl (fun t e => writeBackL2 t hall (l2KeyId e) (l2LineNo e)) s

/-- What a release does to the caches once the context's queue is drained, and the TBM bits it clears (Table 13-6, R315). A narrower
release has cleared the slice of a line that it left dirty in a visitor copy; the bits beyond the own hall, which stay set, mark such
lines too. -/
def releaseCaches (s : State) (c : Nat) (scope : Scope) : State :=
  let s1 := if Scope.le .ha scope then writeBackTagged s c else s
  let tbm := (s1.ctx c).tbm
  let slices : BitVec 51 := if tbm.getLsbD 49 || tbm.getLsbD 50 then tbm ||| BitVec.ofNat 51 (onesAt 32 0) else tbm
  let s2 := if Scope.le .pk scope then writeBackVisitors s1 (ctxHall c) slices else s1
  s2.updCtx c (fun v => { v with
    tbm := v.tbm &&& ~~~(tbmCovered scope)
    covered := some scope
    hostAddr := if scope = .sy then none else v.hostAddr })

/-- What a release has covered has become visible at a wider scope too, before a message of that scope (R304): the caches are written back
as for a release there, which it is not. -/
def coverCaches (s : State) (c : Nat) (scope : Scope) : State :=
  let s1 := if Scope.le .ha scope then writeBackTagged s c else s
  let s2 := if Scope.le .pk scope then writeBackVisitors s1 (ctxHall c) (BitVec.ofNat 51 (onesAt 32 0)) else s1
  s2.updCtx c (fun v => { v with covered := some scope })

/-- The L1 epoch of a stall rises by 1; when it wraps, every Shared line goes (R283). -/
def bumpL1 (s : State) (k : Nat) : State :=
  let e := ((s.stall k).l1Epoch + 1) % 2 ^ 16
  let s1 := s.updStall k (fun v => { v with l1Epoch := e })
  if e = 0 then { s1 with l1 := s1.l1.filter (fun x => l1Stall x.1 != k || x.2.owned) } else s1

/-- The visitor epoch of a hall rises by 1; when it wraps, every clean visitor line goes (R288),
and what is left is of no current epoch. -/
def bumpL2 (s : State) (h : Nat) : State :=
  let e := ((s.hall h).epoch + 1) % 2 ^ 16
  let s1 := s.updHall h (fun v => { v with epoch := e })
  if e = 0 then
    { s1 with
      l2 := (s1.l2.filter (fun x => l2Hall x.1 != h || homeIn h (l2LineNo x.1 * 128) || x.2.dirty != 0)).map (fun x =>
        if l2Hall x.1 = h then (x.1, { x.2 with epoch := 2 ^ 16 }) else x)
      l1 := s1.l1.map (fun x => if stallHall (l1Stall x.1) = h then (x.1, { x.2 with vepoch := 2 ^ 16 }) else x) }
  else s1

/-- What an acquire does (Table 13-6). -/
def acquireCaches (s : State) (c : Nat) (scope : Scope) : State :=
  let s1 := if Scope.le .ha scope then bumpL1 s (ctxStall c) else s
  if Scope.le .pk scope then bumpL2 s1 (ctxHall c) else s1

end Sys2Proof.Machine
end

