-- ==== Sys2Proof/Machine/Coding.lean ====
section
/-! DEFINITION. Erasure-coded messages between halls (R405 to R409): the field, the code, streams, and sending. -/

namespace Sys2Proof.Machine

/-! GF(2⁸) with polynomial 0x11D (R407). -/

def gfDouble (x : Nat) : Nat := if x < 128 then 2 * x else Nat.xor (2 * x) 0x11D
def gfMulFrom : Nat → Nat → Nat → Nat
  | 0, _, _ => 0
  | n + 1, a, b => Nat.xor (if b % 2 = 1 then a else 0) (gfMulFrom n (gfDouble a) (b / 2))
def gfMul (a b : Nat) : Nat := gfMulFrom 8 a b
/-- x²⁵⁴, the inverse of a nonzero x: the product of x² to x¹²⁸. -/
def gfInv (x : Nat) : Nat :=
  ((List.range 7).foldl (fun p _ => (gfMul p.1 (gfMul p.2 p.2), gfMul p.2 p.2)) (1, x)).1

/-- The coefficient of data fragment i in parity fragment j (R407). -/
def codeCoef (j i : Nat) : Nat := gfInv (Nat.xor (16 + j) i)

def gfScale (c : Nat) (bs : List Byte) : List Byte := bs.map (fun b => BitVec.ofNat 8 (gfMul c b.toNat))
def gfAdd (a b : List Byte) : List Byte := List.zipWith (· ^^^ ·) a b

/-- Data fragment `i` of stripe `st` (R406). -/
def dataFragment (bytes : List Byte) (k f st i : Nat) : List Byte :=
  let p := (bytes.drop ((st * k + i) * f)).take f
  p ++ List.replicate (f - p.length) 0

/-- Parity fragment `j` of a stripe's data fragments. -/
def parityFragment (f j : Nat) (data : List (List Byte)) : List Byte :=
  (data.zipIdx.map (fun e => gfScale (codeCoef j e.2) e.1)).foldl gfAdd (List.replicate f 0)

/-- All fragments of stripe `st`: data, then parity. -/
def stripeFragments (bytes : List Byte) (k m f st : Nat) : List (List Byte) :=
  let data := (List.range k).map (dataFragment bytes k f st)
  data ++ (List.range m).map (fun j => parityFragment f j data)

def stripeCount (len k f : Nat) : Nat := (len + k * f - 1) / (k * f)

/-! Rebuilding a stripe from any k fragments (R415): elimination over the field. -/

/-- A row: its coefficients and its bytes. -/
abbrev CodeRow := List Nat × List Byte

def codeRow (k : Nat) (frag : Nat × List Byte) : CodeRow :=
  ((List.range k).map (fun i => if frag.1 < k then (if i = frag.1 then 1 else 0) else codeCoef (frag.1 - k) i), frag.2)
def scaleRow (c : Nat) (r : CodeRow) : CodeRow := (r.1.map (gfMul c), gfScale c r.2)
def addRow (a b : CodeRow) : CodeRow := (List.zipWith Nat.xor a.1 b.1, gfAdd a.2 b.2)

/-- Column `i` is cleared from every row but the pivot, which is moved to the solved rows. -/
def eliminate (i : Nat) (done rest : List CodeRow) : List CodeRow × List CodeRow :=
  match rest.find? (fun r => r.1.getD i 0 != 0) with
  | none => (done, rest)
  | some p =>
    let p' := scaleRow (gfInv (p.1.getD i 0)) p
    let clear (r : CodeRow) : CodeRow := if r.1.getD i 0 = 0 then r else addRow r (scaleRow (r.1.getD i 0) p')
    (done.map clear ++ [p'], (rest.erase p).map clear)

/-- The bytes of a stripe, in order, from k of its fragments. -/
def rebuildStripe (k : Nat) (frags : List (Nat × List Byte)) : List Byte :=
  (((List.range k).foldl (fun st i => eliminate i st.1 st.2) ([], frags.map (codeRow k))).1.map (·.2)).flatten

/-! Streams (R405). Halls are numbered below 2¹⁵. -/

def streamKey (src dst cls : Nat) : Nat := (src * 32768 + dst) * 4 + cls
def streamSrc (k : Nat) : Nat := k / 4 / 32768
def streamDst (k : Nat) : Nat := k / 4 % 32768
def streamClass (k : Nat) : Nat := k % 4

/-- F by its code (Table 21-1), and its code. -/
def fragSize (code : Nat) : Nat := if code = 0 then 64 else if code = 1 then 128 else 256
def fragCode (f : Nat) : Nat := if f = 64 then 0 else if f = 128 then 1 else 2

/-- The coding of a message of `len` bytes under a CRATE register: k, m, F (R406). -/
def codeParams (c : Crate) (len : Nat) : Nat × Nat × Nat :=
  if len ≤ c.thresh then (c.sk + 1, c.sm, fragSize c.sf) else (c.bk + 1, c.bm, fragSize c.bf)

/-- The fragment packets of a message, injected at the source hall; each takes its first hop when it is due. -/
def transmit (s : State) (key : Nat) (x : Sent) : State :=
  let src := streamSrc key
  let classes := (s.pkg (hallPkg src)).pm1 + 1
  let mk (st : Nat) (e : List Byte × Nat) : Packet :=
    { stream := key, seq := x.msg.seq, stripe := st, frag := e.2, k := x.k, m := x.m, f := x.f, fsz := fragCode x.f,
      pcls := e.2 % classes, res0 := 0, length := x.msg.bytes.length, tag := x.msg.tag, body := x.msg.body, data := e.1, send := x.sends,
      classes := classes, pkg := hallPkg src, port := none, hop := 0, detoured := false, hall := src % 4 }
  let ps := (List.range (stripeCount x.msg.bytes.length x.k x.f)).flatMap (fun st =>
    (stripeFragments x.msg.bytes x.k x.m x.f st).zipIdx.map (mk st))
  ps.foldl (fun t p => { t with packets := t.packets ++ [p] }.cause (.fragmentHop 0)) s

/-- A source keeps at most 256 unacknowledged messages of a stream under RECOV = 0 (R418). -/
def streamLimit : Nat := 256

/-- A slice message (R437). -/
def Body.isControl : Body → Bool
  | .control _ => true
  | _ => false

/-- A message of the message network (R405). -/
def Body.isNetwork : Body → Bool
  | .network _ _ => true
  | _ => false

/-- Under RECOV = 1 requests, slice messages and the messages of the message network, its replies too, are retained (log entry 89):
responses to requests and ACKs are not (R419), and no SACK answers other repair messages. -/
def retained (s : State) (key : Nat) (body : Body) : Bool :=
  !(s.pkg (hallPkg (streamSrc key))).recov || streamClass key == 0 || streamClass key == 3 || body.isControl || body.isNetwork

/-- A message gets its number and its coding (R405, R406). -/
def codedMessage (s : State) (key tag : Nat) (body : Body) (bytes : List Byte) : Sent :=
  let (k, m, f) := codeParams ((s.hall (streamSrc key)).crateOf (streamClass key)) bytes.length
  ⟨⟨(s.stream key).next, tag, body, bytes⟩, 1, k, m, f⟩

/-- A message with its number is coded and sent (R406), and kept until it is acknowledged (R418). -/
def encodeMessage (s : State) (key tag : Nat) (body : Body) (bytes : List Byte) : State :=
  let x := codedMessage s key tag body bytes
  transmit (s.updStream key (fun v =>
    { v with next := (v.next + 1) % 2 ^ 32, sent := if retained s key body then v.sent ++ [x] else v.sent })) key x

/-- The context a message is for, which waits with it. -/
def Body.ctx : Body → Option Nat
  | .access _ c _ => some c
  | .donate c => some c
  | .counter _ _ c => c
  | _ => none

/-- Messages of a context that wait for room: one more, or fewer. -/
def restick (s : State) (b : Body) (f : Nat → Nat) : State :=
  match b.ctx with
  | some c => s.updCtx c (fun v => { v with stuck := f v.stuck })
  | none => s

/-- A message is offered to its stream: sent, or held in the source hall, and its context with it, while 256 are unacknowledged
(R418). -/
def offerMessage (s : State) (key tag : Nat) (body : Body) (bytes : List Byte) : State :=
  let st := s.stream key
  if !(s.pkg (hallPkg (streamSrc key))).recov && (decide (streamLimit ≤ st.sent.length) || !st.waiting.isEmpty) then
    restick (s.updStream key (fun v => { v with waiting := v.waiting ++ [⟨0, tag, body, bytes⟩] })) body (· + 1)
  else encodeMessage s key tag body bytes
def sendMessage (s : State) (src dst cls tag : Nat) (body : Body) (bytes : List Byte) : State :=
  offerMessage s (streamKey src dst cls) tag body bytes

/-! The request of a thread access (R447). -/

/-- The kinds of a request header. -/
inductive AccessKind
  | load | store | atomic
  deriving DecidableEq, Repr
def AccessKind.code : AccessKind → Nat
  | .load => 1 | .store => 2 | .atomic => 3

/-- The 16-byte header: address, KIND, byte count; for an atomic its FN, its major and its element format. -/
def requestHeader (kind : AccessKind) (pa count fn major fmt : Nat) : List Byte :=
  leBytes 8 (pa % 2 ^ 56 + kind.code * 2 ^ 56) ++ leBytes 8 (count % 2 ^ 14 + fn * 2 ^ 14 + major * 2 ^ 17 + fmt * 2 ^ 18)

/-- The hall of a physical address that messages for it go to: the home hall of a DRAM line, the hall of a unit's storage. -/
def targetHall (pa : Nat) : Nat :=
  match storageOf pa with
  | .dram => homeHall pa
  | .sram h _ _ => h
  | .scratch a _ => arcadeHall a
  | .tcm k _ => stallHall k
  | .hallRegs h _ => h
  | .aperture a _ _ => arcadeHall a
  | _ => pkgOf pa * 4

end Sys2Proof.Machine
end

