-- ==== Sys2Proof/Machine/Regions.lean ====
section
/-! DEFINITION. Regions as the contexts see them (R248, R251): finding one, its ancestors, its descendants, its budgets. -/

namespace Sys2Proof.Machine

/-! The fields of a resolved RCB (Table 11-1). -/

def rcbWord (w : List Nat) (i : Nat) : Nat := w.getD i 0
def Region.word (r : Region) (i : Nat) : Nat := rcbWord r.words i
def Region.parent (r : Region) : Nat := r.word 0
def Region.aset (r : Region) : BitVec 64 := w64 (r.word 2)
def Region.row0 (r : Region) : Nat := bitsOf (r.word 3) 2 0
def Region.col0 (r : Region) : Nat := bitsOf (r.word 3) 5 3
def Region.rows (r : Region) : Nat := bitsOf (r.word 3) 8 6 + 1
def Region.cols (r : Region) : Nat := bitsOf (r.word 3) 11 9 + 1
def Region.gang (r : Region) : Bool := bitOf (r.word 3) 12
def Region.radius (r : Region) : Nat := bitsOf (r.word 4) 1 0
def Region.fdom (r : Region) : Bool := bitOf (r.word 4) 2
def Region.prio (r : Region) : Nat := bitsOf (r.word 4) 7 4
def Region.ctxb (r : Region) : Nat := bitsOf (r.word 5) 6 0
def Region.pairb (r : Region) : Nat := bitsOf (r.word 5) 10 8
def Region.gwinb (r : Region) : Nat := bitsOf (r.word 5) 23 16
def Region.vwinb (r : Region) : Nat := bitsOf (r.word 5) 30 24
def Region.spq (r : Region) : Nat := bitsOf (r.word 6) 31 0
def Region.hsram (r : Region) : Nat := bitsOf (r.word 6) 37 32
def Region.fmtw (r : Region) : BitVec 16 := BitVec.ofNat 16 (r.word 7)
def Region.ptbr (r : Region) : Word := w64 (r.word 8)
def Region.liveb (r : Region) : Word := w64 (r.word 9)
def Region.image (r : Region) : Nat := r.word 12
def Region.ovq (r : Region) : Nat := r.word 13
def Region.fpool (r : Region) : Word := w64 (r.word 14)
def Region.barrow (r : Region) : Word := w64 (r.word 15)
def Region.rootsz (r : Region) : Nat := r.word 16
def Region.sigadr (r : Region) : Nat := r.word 20
def Region.sigval (r : Region) : Nat := r.word 21
def Region.sigop (r : Region) : Nat := r.word 22
def Region.spmap (r : Region) : Nat := r.word 23

/-- The region of a package with an RCB. -/
def State.region (s : State) (pkg rcb : Nat) : Option Region := (s.pkg pkg).regions.find? (fun r => r.rcb == rcb)
def State.updRegion (s : State) (pkg rcb : Nat) (f : Region → Region) : State :=
  s.updPkg pkg (fun p => { p with regions := p.regions.map (fun r => if r.rcb == rcb then f r else r) })

/-- The region of a context (RCBP). -/
def State.regionOf (s : State) (c : Nat) : Option Region := s.region (ctxPkg c) (s.ctx c).rcbp.toNat

/-- A region and its ancestors that have not ended, nearest first. -/
def lineageFrom (s : State) (pkg : Nat) : Nat → Nat → List Region
  | 0, _ => []
  | n + 1, rcb =>
    match s.region pkg rcb with
    | none => []
    | some r => r :: (if r.up = 0 then [] else lineageFrom s pkg n r.up)
def lineage (s : State) (pkg rcb : Nat) : List Region := lineageFrom s pkg ((s.pkg pkg).regions.length) rcb

/-- The region `rcb` is `top` or lies below it. -/
def below (s : State) (pkg rcb top : Nat) : Bool := (lineage s pkg rcb).any (fun r => r.rcb == top)

/-- The accumulator pairs of a stall that tasks of a region and of its descendants hold (R251). -/
def pairsHeld (s : State) (k top : Nat) : Nat :=
  (List.range 4).countP (fun i =>
    match ((s.stall k).pair i).holder with
    | some c => below s (stallPkg k) (s.ctx c).rcbp.toNat top
    | none => false)

/-- The pair budget of the region of a context, or of an ancestor, is spent on its stall (R251). -/
def pairBudgetSpent (s : State) (c : Nat) : Bool :=
  (lineage s (ctxPkg c) (s.ctx c).rcbp.toNat).any (fun r => decide (r.pairb ≤ pairsHeld s (ctxStall c) r.rcb))

end Sys2Proof.Machine
end

