-- ==== Sys2Proof/Machine/Translate.lean ====
section
/-! DEFINITION. From a virtual address to a place in memory (R28, R29, R295 to R302): windows, page walks, the TLB, key
slots and the checks after translation. -/

namespace Sys2Proof.Machine

/-- How an access is made: KIND of Table 13-8, whether it needs W = 1, whether it is of a kind that device pages refuse (a vector
access, LDQ, STQ, a tile read or an engine access, R298; for an atomic, one that PCIe has no AtomicOp for, R322; for KIND 5 the flag
marks an operation of Table 10-4 on a counter, which Table 13-4 allows), and the privilege level it is made at. -/
structure Acc where
  kind : Nat
  writes : Bool
  wide : Bool
  user : Bool
  deriving DecidableEq, Repr

/-- EINFO of Table 13-8. -/
def Acc.einfo (a : Acc) (level reason : Nat) (nc : Bool := false) : Nat :=
  (if nc then 1 else 0) + 2 * a.kind + 16 * reason + 256 * level + (if a.user then 1024 else 0)

def Acc.page (a : Acc) (va level reason : Nat) (nc : Bool := false) : Trap := ⟨.page, a.einfo level reason nc, va⟩
def Acc.prot (a : Acc) (va level reason : Nat) : Trap := ⟨.prot, a.einfo level reason, va⟩
def Acc.key (a : Acc) (va level reason : Nat) : Trap := ⟨.key, a.einfo level reason, va⟩
/-- ECC (Table 18-2); `table` where the error lay in a page-table entry. -/
def Acc.ecc (a : Acc) (va : Nat) (table : Bool) : Trap :=
  ⟨.ecc, 2 * a.kind + (if a.user then 1024 else 0) + (if table then 2048 else 0), va⟩

/-! Windows (Table 01-7). -/

def windowBase : Nat := 0x01FFFFFFFF000000
def scratchWindow : Nat := 0x01FFFFFFFF800000
def tcmWindow : Nat := 0x01FFFFFFFFC00000

/-- The physical address of an address inside a window of a context. -/
def windowPa (c va : Nat) : Option Nat :=
  if scratchWindow ≤ va ∧ va < scratchWindow + 2 ^ 22 then some (scratchBase (ctxArcade c) + (va - scratchWindow))
  else if tcmWindow ≤ va ∧ va < tcmWindow + 2 ^ 18 then some (tcmBase (ctxStall c) + (va - tcmWindow))
  else none

/-! What a physical address is. -/

/-- A package number of the system: Y below YSIZE and Z below ZSIZE (R410). -/
def pkgExists (s : State) (me q : Nat) : Bool :=
  decide (q / 8 % 32 < (s.pkg me).ysize) && decide (q / 256 < (s.pkg me).zsize)

def paAssigned (s : State) (pkg pa : Nat) : Bool := pkgExists s pkg (pkgOf pa) && storageOf pa != .unassigned

/-- Whether accesses of a package go to L1 and L2: a normal page of its own DRAM or of its host memory (R292, R440). -/
def paCached (pkg pa mtype : Nat) : Bool :=
  mtype == 0 && pkgOf pa == pkg && match storageOf pa with
    | .dram => true
    | .host _ => true
    | _ => false

/-! Page tables (R295 to R297). -/

/-- PTBR (Table 13-8a). -/
def ptbrRoot (w : Word) : Nat := bitsOf w.toNat 55 12 * 4096
def ptbrAsid (w : Word) : Nat := bitsOf w.toNat 11 5
def ptbrBits (w : Word) : Nat := bitsOf w.toNat 4 0

/-- The place of a page-table entry or a key slot: read at hall scope, at its home where no L2 may hold it. -/
def tablePlace (hall pa : Nat) : Place :=
  ⟨pa, paCached (hallPkg hall) pa 0, decide (pkgOf pa ≠ hallPkg hall) || !isDram pa, 0, 0⟩

/-- A page-table entry read at hall scope (R296). -/
def readTable (s : State) (hall pa n : Nat) : State × Nat :=
  let (s', bs) := hallRead s hall (tablePlace hall pa) n
  (s', leNat bs)

/-- A RES0 bit of an entry at a level is set (Table 13-8b). -/
def entryRes0 (e lvl : Nat) : Bool :=
  bitsOf e 63 56 != 0 ||
  (if bitOf e 1 then
    (match lvl with
     | 0 => bitOf e 5 && bitsOf e 15 12 != 0
     | 1 => bitOf e 5 || bitsOf e 20 12 != 0
     | 2 => bitOf e 5 || bitsOf e 29 12 != 0
     | _ => bitOf e 5)
   else bitsOf e 11 6 != 0 || bitsOf e 4 2 != 0 || (lvl != 0 && bitOf e 5))

def leafSize (e lvl : Nat) : Nat :=
  match lvl with
  | 0 => if bitOf e 5 then 2 ^ 16 else 2 ^ 12
  | 1 => 2 ^ 21
  | _ => 2 ^ 30

/-- The address lies in a way of hall SRAM that is not carved out (R289). -/
def uncarved (s : State) (pa : Nat) : Bool :=
  match storageOf pa with
  | .sram h way _ => !((s.hall h).carveOf way).en
  | _ => false

/-- The walk from level `lvl` down (R296): the leaf and its level. An entry in an uncarved way takes PROT (R289). -/
def walkFrom (s : State) (hall va rbits : Nat) (a : Acc) : Nat → Nat → Except Trap (State × Nat × Nat)
  | lvl, base =>
    let idx := if lvl = 3 then va / 2 ^ 39 % 2 ^ rbits else va / 2 ^ (12 + 9 * lvl) % 512
    let pa := base + 8 * idx
    if !paAssigned s (hallPkg hall) pa then .error (a.page va lvl 6)
    else if uncarved s pa then .error (a.prot va lvl 8)
    else if hallBad s hall (tablePlace hall pa) 8 then .error (a.ecc va true)
    else
      let (s', e) := readTable s hall pa 8
      if !bitOf e 0 then .error (a.page va lvl 2)
      else if entryRes0 e lvl then .error (a.page va lvl 3)
      else if bitOf e 1 then (if lvl = 3 then .error (a.page va lvl 4) else .ok (s', e, lvl))
      else match lvl with
        | 0 => .error (a.page va 0 4)
        | n + 1 => walkFrom s' hall va rbits a n (bitsOf e 55 12 * 4096)

/-- RBITS lies in its range; elsewhere every translated access takes PAGE, a TLB hit too (Table 13-8a). -/
def rootOk (ptbr : Word) : Bool := decide (9 ≤ ptbrBits ptbr) && decide (ptbrBits ptbr ≤ 18)

/-- The walk of an address under a PTBR (R295, R296). -/
def walk (s : State) (hall : Nat) (ptbr : Word) (va : Nat) (a : Acc) : Except Trap (State × Nat × Nat) :=
  let r := ptbrBits ptbr
  if !rootOk ptbr then .error (a.page va 3 1)
  else if va / 2 ^ (39 + r) ≠ 0 then .error (a.page va 3 1)
  else walkFrom s hall va r a 3 (ptbrRoot ptbr)

/-- The key id of a leaf whose key slot cannot be read (R302, KEY reason 3). -/
def noKey : Nat := 2048

/-- The translation that a leaf makes, with its key id. -/
def leafTlb (ptbr : Word) (va e lvl key : Nat) : Tlb :=
  let size := leafSize e lvl
  { asid := ptbrAsid ptbr, vbase := va / size * size, size := size, pbase := bitsOf e 55 12 * 4096, level := lvl,
    w := bitOf e 2, x := bitOf e 3, u := bitOf e 4, mtype := bitsOf e 8 7, near := bitOf e 6, key := key }

def Tlb.covers (t : Tlb) (asid va : Nat) : Bool := t.asid == asid && decide (t.vbase ≤ va) && decide (va < t.vbase + t.size)

/-- A translation enters the TLB; of 128 entries the least recently used goes (R300). One without a readable key does not (R302). -/
def fillTlb (k : Stall) (t : Tlb) : Stall :=
  if t.key = noKey then k
  else
    let l := k.tlb.filter (fun e => !(e.asid == t.asid && e.vbase == t.vbase && e.size == t.size))
    { k with tlb := (if 128 ≤ l.length then l.drop (l.length - 127) else l) ++ [t] }

/-- The translation of an address that the context has at hand: made for this instruction, or in the TLB. -/
def findTlb (s : State) (c va : Nat) : Option Tlb :=
  let v := s.ctx c
  match v.walked.find? (fun t => t.covers (ptbrAsid v.ptbr) va) with
  | some t => some t
  | none => (s.stall (ctxStall c)).tlb.find? (fun t => t.covers (ptbrAsid v.ptbr) va)

/-! Checks after translation (R287, R289, R298, R299, R302). -/

/-- The restrictions of a storage: user accesses to reserved scratchpad ranges (Table 13-4), hall SRAM ways (R289). The operations of
Table 10-4 on counters are no user writes (Table 13-4). -/
def checkStorage (s : State) (c : Nat) (a : Acc) (va pa level : Nat) : Except Trap Unit :=
  match storageOf pa with
  | .scratch ak off =>
    if !a.user || (a.kind == 5 && a.wide) then .ok ()
    else if off < 2 ^ 17 then (if a.writes then .error (a.prot va level 4) else .ok ())
    else if off < 2 ^ 21 then .ok ()
    else
      match (s.arcade ak).granules.lookup (off / 64) with
      | some g => if g.rcb = (s.ctx c).rcbp.toNat then .ok () else .error (a.prot va level 5)
      | none => .error (a.prot va level 5)
  | .sram h way _ =>
    if uncarved s pa then .error (a.prot va level 8)
    else if a.user && decide (((s.hall h).carveOf way).owner ≠ (s.ctx c).rcbp.toNat / 256) then .error (a.prot va level 8)
    else .ok ()
  | _ => .ok ()

/-- The key of an access (R302). -/
def checkKey (s : State) (a : Acc) (va pa key level : Nat) : Except Trap Unit :=
  if key = noKey then .error (a.key va level 3)
  else if key = 0 then .ok ()
  else if !isDram pa then .error (a.key va level 2)
  else if ((s.pkg (pkgOf pa)).keys.lookup key).isNone then .error (a.key va level 1)
  else .ok ()

/-- What translation answers: the place, and the level EINFO names for a later fault (R299). -/
structure Located where
  place : Place
  level : Nat
  deriving DecidableEq, Repr

/-- The access is to a Carter aperture, which needs a device leaf with W = 1 (R298, R332). -/
def isAperture (pa : Nat) : Bool :=
  match storageOf pa with
  | .aperture _ _ _ => true
  | _ => false

/-- The MTYPE of a leaf does not allow the kind of access (R298, R322, R332). -/
def typeRefuses (t : Tlb) (a : Acc) (pa : Nat) : Bool :=
  (t.mtype == 2 && a.wide && a.kind != 3 && a.kind != 5) ||
  (t.mtype == 3 && (a.kind == 4 || (a.kind == 3 && a.wide))) ||
  (isAperture pa && t.mtype != 2)

/-- An access through a translation, checked against its leaf (R292, R298, R302). -/
def throughTlb (s : State) (c : Nat) (t : Tlb) (a : Acc) (va : Nat) : Except Trap Located := do
  let pa := t.pbase + (va - t.vbase)
  if t.near && !(isDram pa && bitOf pa 38) then throw (a.page va t.level 5)
  if !paAssigned s (ctxPkg c) pa then throw (a.page va t.level 6)
  if a.user && !t.u then throw (a.prot va t.level 3)
  if (a.writes || isAperture pa) && !t.w then throw (a.prot va t.level 1)
  if a.kind == 2 && !t.x then throw (a.prot va t.level 2)
  if typeRefuses t a pa then throw (a.prot va t.level 6)
  checkStorage s c a va pa t.level
  checkKey s a va pa t.key t.level
  pure ⟨⟨pa, paCached (ctxPkg c) pa t.mtype, t.near, t.key, t.mtype⟩, t.level⟩

/-- An access inside a window (R29). -/
def throughWindow (s : State) (c : Nat) (a : Acc) (va : Nat) : Except Trap Located :=
  match windowPa c va with
  | none => .error (a.page va 0 7)
  | some pa => do
    checkStorage s c a va pa 0
    pure ⟨⟨pa, false, false, 0, 1⟩, 0⟩

/-- Key slot KSEL of the key table at KEYT, read at supervisor level (R302; under key id 0, log entry 11): none when it fails its checks
or its read is in error. -/
def readKeySlot (s : State) (c : Nat) (ptbr keyt : Word) (ksel : Nat) : State × Nat :=
  if keyt = 0 then (s, 0)
  else
    let va := keyt.toNat + 2 * ksel
    let a : Acc := ⟨0, false, false, false⟩
    let read (t : State) (r : Except Trap Located) : State × Nat :=
      match r with
      | .error _ => (t, noKey)
      | .ok l =>
        if hallBad t (ctxHall c) (tablePlace (ctxHall c) l.place.pa) 2 then (t, noKey)
        else
          let (t', w) := readTable t (ctxHall c) l.place.pa 2
          (t', w % 2048)
    if 2 ^ 57 ≤ va then (s, noKey)
    else if windowBase ≤ va then read s (throughWindow s c a va)
    else
      match walk s (ctxHall c) ptbr va a with
      | .error _ => (s, noKey)
      | .ok (t, e, lvl) => read t (throughTlb t c (leafTlb ptbr va e lvl 0) a va)

/-- A walk and its key slot: the translation, not yet in the TLB. -/
def walkLeaf (s : State) (c : Nat) (ptbr keyt : Word) (va : Nat) (a : Acc) : Except Trap (State × Tlb) :=
  match walk s (ctxHall c) ptbr va a with
  | .error t => .error t
  | .ok (s1, e, lvl) =>
    let (s2, k) := readKeySlot s1 c ptbr keyt (bitsOf e 11 9)
    .ok (s2, leafTlb ptbr va e lvl k)

/-- A used translation becomes the most recently used of its TLB (R300). -/
def touchTlb (s : State) (c : Nat) (t : Tlb) : State :=
  let k := s.stall (ctxStall c)
  if k.tlb.contains t then s.setStall (ctxStall c) { k with tlb := k.tlb.erase t ++ [t] } else s

/-! Lines that a Carter has taken (R348). -/

def carterHolds (s : State) (ak key line : Nat) : Bool :=
  (s.arcade ak).channels.any (fun e => e.2.queue.any (fun j => j.lines.contains (key, line)))

/-- The arcade of a hall whose Carter holds a line. -/
def carterOwner (s : State) (hall key line : Nat) : Option Nat :=
  (s.arcades.find? (fun e => arcadeHall e.1 == hall && carterHolds s e.1 key line)).map (·.1)

/-- The Carter that an access of context `c` waits for: one of its own arcade; of another arcade of its hall where the access, or an
issued store to the line, makes the home slice recall it; of the home hall where an atomic of scope `.pk` or `.sy` recalls the line
there (`far`, Table 14-3). A fetch waits for none, nor does an engine access: a matrix command is accepted (R166), and TFPIN fetches
in the background (R350). -/
def carterWait (s : State) (c : Nat) (a : Acc) (far : Bool) (p : Place) : Option Nat :=
  if !p.cached || a.kind == 2 || a.kind == 4 then none
  else if carterHolds s (ctxArcade c) p.key (p.pa / 64) then some (ctxArcade c)
  else
    match if a.writes || (s.ctx c).storeQ.any (fun q => q.place.pa / 64 == p.pa / 64) then
      carterOwner s (ctxHall c) p.key (p.pa / 64) else none with
    | some ak => some ak
    | none => if far && isDram p.pa then carterOwner s (homeHall p.pa) p.key (p.pa / 64) else none

/-- The wait in WMEM for a line that a Carter has taken (R348): the transfer's next beat is due. -/
def lineWait (ak key line : Nat) : Stop := .held (.line ak key line) (.carterBeat ak)

/-- Translate an access of the running instruction: a missed translation stops it until a walker has made it (R301); a line that a
Carter has taken, until its transfer has written it (R348). -/
def translateFar (far : Bool) (s : State) (va : Nat) (a : Acc) : Except Stop (State × Located) :=
  let c := s.cur
  let lift (r : Except Trap Located) (t : State) : Except Stop (State × Located) :=
    match r with
    | .ok l =>
      match carterWait t c a far l.place with
      | none => .ok (t, l)
      | some ak => .error (lineWait ak l.place.key (l.place.pa / 64))
    | .error e => .error (.trap e)
  if 2 ^ 57 ≤ va then .error (.trap (a.page va 0 0 true))
  else if windowBase ≤ va then lift (throughWindow s c a va) s
  else if !rootOk (s.ctx c).ptbr then .error (.trap (a.page va 3 1))
  else
    match findTlb s c va with
    | some t => lift (throughTlb s c t a va) (touchTlb s c t)
    | none => .error (.miss va a.kind a.user)

def translate (s : State) (va : Nat) (a : Acc) : Except Stop (State × Located) := translateFar false s va a

/-- Translate an access that the device makes for a context outside its instructions: a missing translation is walked at once. -/
def translateNow (s : State) (c va : Nat) (a : Acc) : Except Trap (State × Located) :=
  if 2 ^ 57 ≤ va then .error (a.page va 0 0 true)
  else if windowBase ≤ va then (throughWindow s c a va).map (fun l => (s, l))
  else if !rootOk (s.ctx c).ptbr then .error (a.page va 3 1)
  else
    match findTlb s c va with
    | some t => (throughTlb s c t a va).map (fun l => (touchTlb s c t, l))
    | none =>
      match walkLeaf s c (s.ctx c).ptbr (s.ctx c).keyt va a with
      | .error t => .error t
      | .ok (s1, t) => (throughTlb s1 c t a va).map (fun l => (s1.updStall (ctxStall c) (fun k => fillTlb k t), l))

end Sys2Proof.Machine
end

