-- ==== Sys2Proof/Machine/Registers.lean ====
section
/-! DEFINITION. The registers of the hall register blocks (Table 13-5): HSCARVE (R289), PDEAD (R373), Inspector (R395, R396), CRATE
(R408), hall counters and PSTAT (Table 21-6), GCFG (Table 21-3), Barrow (R426), HBASE (R440). -/

namespace Sys2Proof.Machine

/-! The Inspector (R395, R396). -/

/-- What ISEL selects: context, class and index (Table 19-3). -/
def selContext (ak : Nat) (sel : BitVec 24) : Nat := 64 * arcadeStall ak (bitsOf sel.toNat 8 6) + bitsOf sel.toNat 5 0
def selClass (sel : BitVec 24) : Nat := bitsOf sel.toNat 11 9
def selIndex (sel : BitVec 24) : Nat := bitsOf sel.toNat 23 12

def csrOfIndex (addr : Nat) : Option Csr := csrTable.find? (fun r => r.addr == addr)

def half128 (w : Word128) (h : Nat) : Word := w64 (w.toNat / 2 ^ (64 * h))
def setHalf (w : Word128) (h : Nat) (x : Word) : Word128 :=
  BitVec.ofNat 128 (if h = 0 then w.toNat / 2 ^ 64 * 2 ^ 64 + x.toNat else w.toNat % 2 ^ 64 + x.toNat * 2 ^ 64)

/-- IDATA read (R396): all ones unless the context is in HALT and the index lies in its window or class. -/
def inspectRead (s : State) (ak : Nat) : Word :=
  let sel := (s.arcade ak).isel
  let c := selContext ak sel
  let i := selIndex sel
  let v := s.ctx c
  let ones : Word := BitVec.allOnes 64
  if v.st != .halt then ones
  else match selClass sel with
    | 0 => if i < v.gsize then s.readG c (.g (Fin.ofNat 128 i)) else ones
    | 1 => if i < 8 then s.readG c (.o (Fin.ofNat 8 i)) else if i = 8 then v.lat else ones
    | 2 => (csrOfIndex i).elim ones (readCsr s c)
    | 3 => if i / 16 < v.vsize then w64 ((s.readV c (i / 16)).toNat / 2 ^ (64 * (i % 16))) else ones
    | 4 => if i / 2 < 8 then half128 (v.pred (i / 2)) (i % 2) else ones
    | 5 => if i / 2 < 8 then half128 (v.tile (i / 2)) (i % 2) else ones
    | _ => ones

/-- IDATA write (R396): ignored where a read gives all ones, and for an illegal or read-only CSR value. -/
def inspectWrite (s : State) (ak : Nat) (x : Word) : State :=
  let sel := (s.arcade ak).isel
  let c := selContext ak sel
  let i := selIndex sel
  let v := s.ctx c
  if v.st != .halt then s
  else match selClass sel with
    | 0 => if i < v.gsize then s.putG c (.g (Fin.ofNat 128 i)) x else s
    | 1 => if i < 8 then s.putG c (.o (Fin.ofNat 8 i)) x else if i = 8 then s.putG c .lat x else s
    | 2 => ((csrOfIndex i).bind (fun r => writeCsr s c r x)).getD s
    | 3 =>
      if i / 16 < v.vsize then s.writeV c (i / 16) (replaceBytes 1024 (s.readV c (i / 16)) (8 * (i % 16)) (leBytes 8 x.toNat))
      else s
    | 4 => if i / 2 < 8 then s.updCtx c (fun v => v.setPred (i / 2) (setHalf (v.pred (i / 2)) (i % 2) x)) else s
    | 5 => if i / 2 < 8 then s.updCtx c (fun v => v.setTile (i / 2) (setHalf (v.tile (i / 2)) (i % 2) x)) else s
    | _ => s

/-- IDIGN written: DIG and COUNT take their reset values (Table 19-3). -/
def resetDigest (s : State) (ak : Nat) : State := s.updArcade ak (fun a => { a with dig := Arcade.reset.dig, count := 0 })

def haltedBits (s : State) (ak : Nat) : Nat :=
  (List.range 8).foldl (fun a i => if (s.stall (arcadeStall ak i)).halted then a + 2 ^ i else a) 0

/-- Any stall of the arcade is halted: its Carter is frozen (R392). -/
def carterFrozen (s : State) (ak : Nat) : Bool := haltedBits s ak != 0

def inspectorReg (s : State) (ak r : Nat) : Nat :=
  let a := s.arcade ak
  match r with
  | 0 => a.istalls
  | 1 => (if a.bvalid then 2 ^ 18 else 0) + a.bstall * 2 ^ 15 + a.bctx * 2 ^ 9 + (if carterFrozen s ak then 256 else 0) +
      haltedBits s ak
  | 2 => a.ibpc
  | 3 => a.isel.toNat
  | 4 => (inspectRead s ak).toNat
  | 5 => a.dig.toNat
  | 6 => a.count.toNat
  | _ => 0

def writeInspector (s : State) (ak r n : Nat) : State :=
  match r with
  | 0 =>
    let s0 := s.updArcade ak (fun a => { a with istalls := n % 256 })
    let s1 := if bitOf n 8 then s0.cause (.inspectorHalt ak (n % 256)) else s0
    let s2 := if bitOf n 9 then s1.cause (.inspectorResume ak (n % 256)) else s1
    if bitOf n 10 then (s2.updArcade ak (fun a => { a with steps := a.steps ++ [selContext ak a.isel] })).cause (.inspectorStep ak)
    else s2
  | 3 => s.updArcade ak (fun a => { a with isel := BitVec.ofNat 24 n })
  | 4 => inspectWrite s ak (w64 n)
  | 6 => resetDigest s ak
  | _ => s

/-! HSCARVE (R289). -/

/-- The ways of a hall, other than way `k`, carved out for a region or a region below it. -/
def carvedBelow (s : State) (hk k top : Nat) : Nat :=
  (List.range 8).countP (fun i =>
    let v := (s.hall hk).carveOf i
    i != k && (v.en || v.pending) && below s (hallPkg hk) (v.owner * 256) top)

/-- A way may be carved out for a region: it, and each of its ancestors, holds fewer than floor(HSRAM / 8) ways in the hall (R251, R289).
An RCB that names no region holds none. -/
def mayCarve (s : State) (hk k owner : Nat) : Bool :=
  let l := lineage s (hallPkg hk) (owner * 256)
  !l.isEmpty && l.all (fun r => decide (carvedBelow s hk k r.rcb < r.hsram / 8))

/-- The hall writes back and invalidates the lines of a way in every slice (R289, step 2). -/
def emptyWay (s : State) (hk way : Nat) : State :=
  ((s.l2.filter (fun e => l2Hall e.1 == hk && e.2.way == way)).map (·.1)).foldl
    (fun t e => dropL2 t hk (l2KeyId e) (l2LineNo e)) s

/-- The memory of a carved way reads as blank. -/
def clearWay (s : State) (hk k : Nat) : State :=
  let base := hk / 4 * 2 ^ 43 + (2 ^ 40 + hk % 4 * 2 ^ 32 + k * 2 ^ 23)
  { s with mem := s.mem.filter (fun e => decide (e.1 < base ∨ base + 2 ^ 23 ≤ e.1)),
           poison := s.poison.filter (fun e => decide (e.1 < base ∨ base + 2 ^ 23 ≤ e.1)) }

def setCarve (s : State) (hk k : Nat) (v : Carve) : State := s.updHall hk (fun h => { h with carve := Store.put h.carve k v })

/-- A write of HSCARVEk (Table 13-4b). -/
def writeCarve (s : State) (hk k n : Nat) : State :=
  let owner := n / 256
  if bitOf n 0 then
    if !mayCarve s hk k owner then setCarve s hk k { (s.hall hk).carveOf k with err := true }
    else (emptyWay (setCarve s hk k ⟨owner, false, false, true⟩) hk (8 + k)).cause (.hscarveDone hk k)
  else clearWay (setCarve s hk k ⟨owner, false, false, false⟩) hk k

def carveReg (v : Carve) : Nat := v.owner * 256 + (if v.err then 2 else 0) + (if v.en then 1 else 0)

/-! CRATE (Table 21-1). -/

def crateReg (c : Crate) : Nat :=
  c.timeout * 2 ^ 48 + c.retry * 2 ^ 44 + c.thresh * 2 ^ 32 + c.bk * 2 ^ 28 + c.bm * 2 ^ 25 + c.bf * 2 ^ 23 +
    c.sk * 2 ^ 12 + c.sm * 2 ^ 9 + c.sf * 2 ^ 7

/-- A write of CRATEc: ignored whole when a field is out of range or a RES0 bit is set (R408). -/
def writeCrate (s : State) (hk c n : Nat) : State :=
  let v : Crate := ⟨bitsOf n 63 48, bitsOf n 47 44, bitsOf n 43 32, bitsOf n 31 28, bitsOf n 27 25, bitsOf n 24 23, bitsOf n 15 12,
    bitsOf n 11 9, bitsOf n 8 7⟩
  if v.timeout = 0 ∨ v.retry = 0 ∨ 4 < v.bm ∨ v.bf = 3 ∨ 4 < v.sm ∨ v.sf = 3 ∨ bitsOf n 22 16 ≠ 0 ∨ bitsOf n 6 0 ≠ 0 then s
  else s.updHall hk (fun h => { h with crate := Store.put h.crate c v })

/-! The whole block. -/

/-- The counts of the messages that the model codes. -/
def counterReg (c : HallCounters) : Nat → Nat
  | 0 => c.decoded.toNat | 1 => c.recon.toNat | 2 => c.late.toNat | 3 => c.dup.toNat | 4 => c.stale.toNat
  | 5 => c.slotdrop.toNat | 6 => c.retx.toNat | 7 => c.skipped.toNat | _ => c.lostp.toNat

/-- A counter of Table 21-6 as it is read: what the messages of memory accesses inside the package have added, whose number the spec does
not give, is free (log entry 13); the two counts of losses between packages have no such part. -/
def readCounterReg (s : State) (hk i : Nat) : Nat :=
  (counterReg (s.hall hk).counters i + if i < 7 then Config.cachedTraffic hk i s.tick else 0) % 2 ^ 64

def pstatReg (p : Port) : Nat :=
  p.authf * 2 ^ 48 + p.retrains * 2 ^ 32 + (if p.keyexh then 128 else 0) + (if p.kep then 64 else 0) + p.state * 16 + p.width * 4

def gcfgReg (p : Package) (self : Nat) : Nat :=
  (p.zsize - 1) * 2 ^ 33 + (p.ysize - 1) * 2 ^ 28 + p.pm1 * 2 ^ 26 + (if p.recov then 2 ^ 25 else 0) + self

/-- The 64-bit register at an 8-aligned offset of a hall's block; an offset the spec lays nothing at is free (log entry 9). -/
def hallReg (s : State) (hk off : Nat) : Nat :=
  let h := s.hall hk
  let p := s.pkg (hk / 4)
  if 0x100 ≤ off ∧ off < 0x140 then carveReg (h.carveOf ((off - 0x100) / 8))
  else if off = 0x180 then h.pdead
  else if 0x1000 ≤ off ∧ off < 0x1400 then
    inspectorReg s (hk / 4 * 64 + arcadeAt (hk % 4) ((off - 0x1000) / 0x40)) (off % 0x40 / 8)
  else if 0x8100 ≤ off ∧ off < 0x8120 then crateReg (h.crateOf ((off - 0x8100) / 8))
  else if 0x8200 ≤ off ∧ off < 0x8248 then readCounterReg s hk ((off - 0x8200) / 8)
  else if hk % 4 = 0 ∧ off = 0x8000 then gcfgReg p (hk / 4)
  else if hk % 4 = 0 ∧ 0x8400 ≤ off ∧ off < 0x8500 then pstatReg (s.port (hk / 4) ((off - 0x8400) / 8))
  else if hk % 4 = 0 ∧ off = 0x8800 then p.brwbase + (if p.brwen then 1 else 0)
  else if hk % 4 = 0 ∧ off = 0x8808 then p.brwcap
  else if hk % 4 = 0 ∧ off = 0x8810 then p.brwhead
  else if hk % 4 = 0 ∧ off = 0x8818 then p.brwtail
  else if hk % 4 = 0 ∧ off = 0x8820 then p.fulls * 2 ^ 32 + p.donunder
  else if hk % 4 = 0 ∧ off = 0x8900 then p.hbase.toNat
  else Config.deviceRead (hk * 2 ^ 24 + off) 8 s.tick % 2 ^ 64

/-- A 64-bit write at an 8-aligned offset of a hall's block. Read-only registers and offsets the spec lays nothing at keep what
they hold. Barrow registers change only while EN is 0 (R426). -/
def writeHallReg (s : State) (hk off n : Nat) : State :=
  let up (f : Package → Package) : State := s.updPkg (hk / 4) f
  let p := s.pkg (hk / 4)
  if 0x100 ≤ off ∧ off < 0x140 then writeCarve s hk ((off - 0x100) / 8) n
  else if off = 0x180 then s.updHall hk (fun h => { h with pdead := n % 2 ^ 32 })
  else if 0x1000 ≤ off ∧ off < 0x1400 then
    writeInspector s (hk / 4 * 64 + arcadeAt (hk % 4) ((off - 0x1000) / 0x40)) (off % 0x40 / 8) n
  else if 0x8100 ≤ off ∧ off < 0x8120 then writeCrate s hk ((off - 0x8100) / 8) n
  else if hk % 4 = 0 ∧ off = 0x8000 then
    up (fun k => { k with zsize := bitsOf n 37 33 + 1, ysize := bitsOf n 32 28 + 1, pm1 := bitsOf n 27 26, recov := bitOf n 25 })
  else if hk % 4 = 0 ∧ off = 0x8800 then
    if p.brwen then s else up (fun k => { k with brwbase := bitsOf n 55 12 * 4096, brwen := bitOf n 0 })
  else if hk % 4 = 0 ∧ off = 0x8808 then
    if p.brwen ∨ n % 2 ^ 17 < 16 ∨ 65536 < n % 2 ^ 17 ∨ 2 ^ Nat.log2 (n % 2 ^ 17) ≠ n % 2 ^ 17 then s
    else up (fun k => { k with brwcap := n % 2 ^ 17 })
  else if hk % 4 = 0 ∧ off = 0x8900 then up (fun k => { k with hbase := w64 n })
  else s

/-- Bytes read from a hall's register block, and written to it: a part of a register is written with the rest of it as read. -/
def hallRegBytes (s : State) (hk off n : Nat) : List Byte := bitsBytes n (off % 8) (hallReg s hk (off / 8 * 8))
def writeHallRegBytes (s : State) (hk off : Nat) (bs : List Byte) : State :=
  if bs.length = 16 then writeHallReg (writeHallReg s hk off (leNat (bs.take 8))) hk (off + 8) (leNat (bs.drop 8))
  else if bs.length = 8 then writeHallReg s hk off (leNat bs)
  else
    writeHallReg s hk (off / 8 * 8)
      (replaceBytes 64 (w64 (hallReg s hk (off / 8 * 8))) (off % 8) bs).toNat

end Sys2Proof.Machine
end

