-- ==== Sys2Proof/Machine/Flags.lean ====
section
/-! DEFINITION. The flag bits (Table 01-6, Table 02-8), and flag conditions as sets of bits. -/

namespace Sys2Proof.Machine

/-- A set of flag bits (Table 01-6). -/
abbrev FlagSet := BitVec 11

def flagIV : FlagSet := 0x001
def flagDZ : FlagSet := 0x002
def flagOF : FlagSet := 0x004
def flagUF : FlagSet := 0x008
def flagIX : FlagSet := 0x010
def flagAOI : FlagSet := 0x020
def flagAOS : FlagSet := 0x040
def flagNV : FlagSet := 0x080
def flagQS : FlagSet := 0x100
def flagNP : FlagSet := 0x200
def flagRCAP : FlagSet := 0x400

/-- A flag when its condition is met. -/
def flagIf (b : Bool) (f : FlagSet) : FlagSet := if b then f else 0

end Sys2Proof.Machine
end

