-- ==== Sys2Proof/Machine/Num.lean ====
section
/-! DEFINITION. Number formats and exact arithmetic (R38 to R57, R61 to R63): values of codes, rounding of exact values,
special operands, conversions. A finite value is (−1)^neg · m · 2^e. -/

namespace Sys2Proof.Machine

/-- A decoded value: NaN, an infinity, or a finite number. Zero keeps its sign. -/
inductive FVal
  | nan
  | inf (neg : Bool)
  | fin (neg : Bool) (m : Nat) (e : Int)
  deriving DecidableEq, Repr

/-- The rounding modes of R47. -/
inductive RMode
  | rne | rtz | rdn | rup
  deriving DecidableEq, Repr
def RMode.ofBits : Nat → RMode
  | 0 => .rne | 1 => .rtz | 2 => .rdn | _ => .rup

/-- A binary floating-point format (Table 02-3): exponent and fraction widths, bias, and the largest finite value as
`maxM · 2^maxE`; `noInf` for e4m3, whose all-ones exponent holds one NaN per sign and no infinity (Table 02-4). -/
structure FloatFmt where
  ebits : Nat
  fbits : Nat
  bias : Nat
  maxM : Nat
  maxE : Int
  noInf : Bool
  nan : Nat
  deriving DecidableEq, Repr

def fp32 : FloatFmt := ⟨8, 23, 127, 2 ^ 24 - 1, 104, false, 0x7FC00000⟩
def bf16 : FloatFmt := ⟨8, 7, 127, 255, 120, false, 0x7FC0⟩
def fp16 : FloatFmt := ⟨5, 10, 15, 2047, 5, false, 0x7E00⟩
def e4m3 : FloatFmt := ⟨4, 3, 7, 14, 5, true, 0x7F⟩
def e5m2 : FloatFmt := ⟨5, 2, 15, 7, 13, false, 0x7E⟩
def fa56 : FloatFmt := ⟨8, 47, 127, 2 ^ 48 - 1, 80, false, 0x7FC00000000000⟩

def FloatFmt.prec (f : FloatFmt) : Nat := f.fbits + 1
def FloatFmt.emin (f : FloatFmt) : Int := 1 - (f.bias : Int)
def FloatFmt.signPos (f : FloatFmt) : Nat := f.ebits + f.fbits

/-- The value of a code (R43, R44). -/
def FloatFmt.decode (f : FloatFmt) (w : Nat) : FVal :=
  let neg := bitOf w f.signPos
  let e := w / 2 ^ f.fbits % 2 ^ f.ebits
  let m := w % 2 ^ f.fbits
  if e = 2 ^ f.ebits - 1 ∧ f.noInf = false then (if m = 0 then .inf neg else .nan)
  else if e = 2 ^ f.ebits - 1 ∧ m = 2 ^ f.fbits - 1 then .nan
  else if e = 0 then .fin neg m (f.emin - f.fbits)
  else .fin neg (2 ^ f.fbits + m) ((e : Int) - f.bias - f.fbits)

/-- The exponent of the leading bit. -/
def topExp (m : Nat) (e : Int) : Int := (Nat.log2 m : Int) + e

/-- `m · 2^(e − q)`, cut to an integer: the integer and whether it was exact. -/
def scaleTo (m : Nat) (e q : Int) : Nat × Nat × Nat :=
  if q ≤ e then (m * 2 ^ (e - q).toNat, 0, 1)
  else
    let d := 2 ^ (q - e).toNat
    (m / d, m % d, d)

/-- The code of a value that the format holds exactly; an infinity of a format without one is its largest value. -/
def FloatFmt.encode (f : FloatFmt) : FVal → Nat
  | .nan => f.nan
  | .inf neg =>
    (if neg then 2 ^ f.signPos else 0) +
      (if f.noInf then (2 ^ f.ebits - 1) * 2 ^ f.fbits + (2 ^ f.fbits - 2) else (2 ^ f.ebits - 1) * 2 ^ f.fbits)
  | .fin neg m e =>
    let sign := if neg then 2 ^ f.signPos else 0
    if m = 0 then sign
    else
      let t := topExp m e
      if f.emin ≤ t then
        sign + (t + f.bias).toNat * 2 ^ f.fbits + ((scaleTo m e (t - f.fbits)).1 - 2 ^ f.fbits)
      else sign + (scaleTo m e (f.emin - f.fbits)).1

/-- Whether a cut of remainder `r` of `d` rounds away from zero (R48). -/
def roundsUp (mode : RMode) (neg odd : Bool) (r d : Nat) : Bool :=
  match mode with
  | .rne => decide (d < 2 * r) || (decide (d = 2 * r) && odd)
  | .rtz => false
  | .rdn => neg && r != 0
  | .rup => !neg && r != 0

/-- A result with the flags it raises. -/
structure Flagged (α : Type) where
  val : α
  flags : FlagSet
  deriving DecidableEq, Repr

/-- The grid step of R48: the value `k · 2^q` that an exact nonzero value rounds to, and IX and UF. -/
def gridRound (f : FloatFmt) (mode : RMode) (neg : Bool) (m : Nat) (e : Int) : Flagged (Nat × Int) :=
  let q := max (topExp m e) f.emin - f.fbits
  let (k, r, d) := scaleTo m e q
  let k' := if roundsUp mode neg (k % 2 == 1) r d then k + 1 else k
  ⟨(k', q), flagIf (r != 0) (flagIX ||| flagIf (topExp m e < f.emin) flagUF)⟩

/-- `k · 2^q` exceeds `m · 2^e`. -/
def magLt (m : Nat) (e : Int) (k : Nat) (q : Int) : Bool :=
  if e ≤ q then decide (m < k * 2 ^ (q - e).toNat) else decide (m * 2 ^ (e - q).toNat < k)

/-- RoundF of R48 on the exact value (−1)^neg · m · 2^e. A zero keeps the sign it is given (log entry 109). -/
def FloatFmt.round (f : FloatFmt) (mode : RMode) (neg : Bool) (m : Nat) (e : Int) : Flagged FVal :=
  if m = 0 then ⟨.fin neg 0 0, 0⟩
  else
    let g := gridRound f mode neg m e
    if magLt f.maxM f.maxE g.val.1 g.val.2 then
      let up := match mode with
        | .rne => true
        | .rtz => false
        | .rdn => neg
        | .rup => !neg
      ⟨if up then .inf neg else .fin neg f.maxM f.maxE, g.flags ||| flagOF ||| flagIX⟩
    else ⟨.fin neg g.val.1 g.val.2, g.flags⟩

/-- RoundF of a value; a NaN and an infinity stand. -/
def FloatFmt.roundVal (f : FloatFmt) (mode : RMode) : FVal → Flagged FVal
  | .nan => ⟨.nan, 0⟩
  | .inf n => ⟨.inf n, 0⟩
  | .fin n m e => f.round mode n m e

/-! Exact sums and products. -/

/-- A finite value as an integer multiple of 2^q, for q at most its exponent. -/
def toInt (neg : Bool) (m : Nat) (e q : Int) : Int :=
  let k : Int := m * 2 ^ (e - q).toNat
  if neg then -k else k

/-- The exact sum of two finite values; a zero sum has the sign of R50. -/
def addFin (mode : RMode) (n1 : Bool) (m1 : Nat) (e1 : Int) (n2 : Bool) (m2 : Nat) (e2 : Int) : FVal :=
  let q := min e1 e2
  let s := toInt n1 m1 e1 q + toInt n2 m2 e2 q
  if s = 0 then
    .fin (if m1 = 0 ∧ m2 = 0 ∧ n1 = n2 then n1 else mode == .rdn) 0 0
  else .fin (decide (s < 0)) s.natAbs q

def FVal.neg : FVal → FVal
  | .nan => .nan
  | .inf n => .inf (!n)
  | .fin n m e => .fin (!n) m e
def FVal.abs : FVal → FVal
  | .nan => .nan
  | .inf _ => .inf false
  | .fin _ m e => .fin false m e
def FVal.isNan : FVal → Bool
  | .nan => true
  | _ => false
def FVal.isInf : FVal → Bool
  | .inf _ => true
  | _ => false
def FVal.isZero : FVal → Bool
  | .fin _ m _ => m == 0
  | _ => false
def FVal.isNeg : FVal → Bool
  | .nan => false
  | .inf n => n
  | .fin n _ _ => n
/-- Below zero, −0 not counted. -/
def FVal.negative (x : FVal) : Bool := x.isNeg && !x.isZero

/-- The exact sum (R50), with IV for ∞ − ∞. -/
def FVal.add (mode : RMode) : FVal → FVal → Flagged FVal
  | .nan, _ => ⟨.nan, 0⟩
  | _, .nan => ⟨.nan, 0⟩
  | .inf a, .inf b => if a = b then ⟨.inf a, 0⟩ else ⟨.nan, flagIV⟩
  | .inf a, _ => ⟨.inf a, 0⟩
  | _, .inf b => ⟨.inf b, 0⟩
  | .fin n1 m1 e1, .fin n2 m2 e2 => ⟨addFin mode n1 m1 e1 n2 m2 e2, 0⟩

/-- The exact product (R50), with IV for 0 · ∞. -/
def FVal.mul : FVal → FVal → Flagged FVal
  | .nan, _ => ⟨.nan, 0⟩
  | _, .nan => ⟨.nan, 0⟩
  | .inf a, .inf b => ⟨.inf (a != b), 0⟩
  | .inf a, .fin b m _ => if m = 0 then ⟨.nan, flagIV⟩ else ⟨.inf (a != b), 0⟩
  | .fin a m _, .inf b => if m = 0 then ⟨.nan, flagIV⟩ else ⟨.inf (a != b), 0⟩
  | .fin n1 m1 e1, .fin n2 m2 e2 => ⟨.fin (n1 != n2) (m1 * m2) (e1 + e2), 0⟩

/-- a·b + c before rounding (R50): a NaN operand sets no flag whatever the product is. -/
def FVal.fma (mode : RMode) (a b c : FVal) : Flagged FVal :=
  if a.isNan || b.isNan || c.isNan then ⟨.nan, 0⟩
  else
    let p := FVal.mul a b
    if p.val.isNan then p
    else FVal.add mode p.val c

/-- A value inside an open interval of width 2^e above m · 2^e when `sticky`, else m · 2^e: any value of the interval rounds as all
others do, since the interval holds no neighbour and no midpoint of the grid. -/
def stickyFin (neg : Bool) (m : Nat) (e : Int) (sticky : Bool) : FVal :=
  if sticky then .fin neg (2 * m + 1) (e - 1) else .fin neg m e

/-- m1 · 2^e1 / (m2 · 2^e2) to more bits than any format holds. -/
def quotFin (neg : Bool) (m1 : Nat) (e1 : Int) (m2 : Nat) (e2 : Int) : FVal :=
  let s := 64 + Nat.log2 m2
  let n := m1 * 2 ^ s
  stickyFin neg (n / m2) (e1 - e2 - s) (n % m2 != 0)

/-- The quotient before rounding (R50). -/
def FVal.div : FVal → FVal → Flagged FVal
  | .nan, _ => ⟨.nan, 0⟩
  | _, .nan => ⟨.nan, 0⟩
  | .inf _, .inf _ => ⟨.nan, flagIV⟩
  | .inf a, .fin b _ _ => ⟨.inf (a != b), 0⟩
  | .fin a _ _, .inf b => ⟨.fin (a != b) 0 0, 0⟩
  | .fin a m1 e1, .fin b m2 e2 =>
    if m2 = 0 then (if m1 = 0 then ⟨.nan, flagIV⟩ else ⟨.inf (a != b), flagDZ⟩)
    else ⟨quotFin (a != b) m1 e1 m2 e2, 0⟩

/-- The bits of an integer square root from bit `n` down: the root found so far and its square's bound. -/
def isqrtFrom : Nat → Nat → Nat → Nat
  | 0, _, r => r
  | n + 1, x, r =>
    let r' := r + 2 ^ n
    isqrtFrom n x (if r' * r' ≤ x then r' else r)
/-- The integer square root. -/
def isqrt (x : Nat) : Nat := isqrtFrom (Nat.log2 x / 2 + 1) x 0

/-- √(m · 2^e) to at least `bits` bits. -/
def sqrtFin (bits : Nat) (m : Nat) (e : Int) : FVal :=
  let s0 := 2 * bits
  let odd := (e - s0) % 2 != 0
  let s := if odd then s0 + 1 else s0
  let n := m * 2 ^ s
  let r := isqrt n
  stickyFin false r ((e - s) / 2) (r * r != n)

/-- The square root before rounding (R50, R119). -/
def FVal.sqrt : FVal → Flagged FVal
  | .nan => ⟨.nan, 0⟩
  | .inf n => if n then ⟨.nan, flagIV⟩ else ⟨.inf false, 0⟩
  | .fin n m e =>
    if m = 0 then ⟨.fin n 0 0, 0⟩
    else if n then ⟨.nan, flagIV⟩
    else ⟨sqrtFin 64 m e, 0⟩

/-- Round what an exact operation gave, with its flags. -/
def FloatFmt.finish (f : FloatFmt) (mode : RMode) (x : Flagged FVal) : Flagged FVal :=
  let r := f.roundVal mode x.val
  ⟨r.val, x.flags ||| r.flags⟩

/-- a < b for values that are no NaN, −0 equal to +0. -/
def FVal.lt : FVal → FVal → Bool
  | .nan, _ => false
  | _, .nan => false
  | .inf a, .inf b => a && !b
  | .inf a, .fin _ _ _ => a
  | .fin _ _ _, .inf b => !b
  | .fin n1 m1 e1, .fin n2 m2 e2 =>
    let q := min e1 e2
    decide (toInt n1 m1 e1 q < toInt n2 m2 e2 q)
def FVal.eq (a b : FVal) : Bool := !a.isNan && !b.isNan && !FVal.lt a b && !FVal.lt b a
def FVal.le (a b : FVal) : Bool := !a.isNan && !b.isNan && !FVal.lt b a

/-- The smaller operand, −0 below +0; a NaN gives NaN (R120). -/
def FVal.min (a b : FVal) : FVal :=
  if a.isNan || b.isNan then .nan
  else if FVal.lt a b then a
  else if FVal.lt b a then b
  else if a.isNeg then a else b
def FVal.max (a b : FVal) : FVal :=
  if a.isNan || b.isNan then .nan
  else if FVal.lt a b then b
  else if FVal.lt b a then a
  else if a.isNeg then b else a

/-- An integer as a value. -/
def FVal.ofInt (x : Int) : FVal := .fin (decide (x < 0)) x.natAbs 0

/-! Narrowing functions (Table 02-2). -/

/-- `x` with `w` bits read as two's complement. -/
def signedOf (w x : Nat) : Int := if 2 * (x % 2 ^ w) < 2 ^ w then (x % 2 ^ w : Nat) else ((x % 2 ^ w : Nat) : Int) - (2 : Int) ^ w
/-- Wrap(x, w), as the bits of the result. -/
def wrapTo (w : Nat) (x : Int) : Nat := (x % ((2 : Int) ^ w)).toNat
/-- The ends of the range of iW or nW (R40). -/
def intLow (signed : Bool) (w : Nat) : Int := if signed then -((2 : Int) ^ (w - 1)) else 0
def intHigh (signed : Bool) (w : Nat) : Int := if signed then (2 : Int) ^ (w - 1) - 1 else (2 : Int) ^ w - 1
/-- Saturate(x, lo, hi), and whether it clamped. -/
def saturate (x lo hi : Int) : Int × Bool := if x < lo then (lo, true) else if hi < x then (hi, true) else (x, false)

/-- RoundInt: the integer nearest under a mode, and whether it differs. -/
def roundInt (mode : RMode) (neg : Bool) (m : Nat) (e : Int) : Int × Bool :=
  let (k, r, d) := scaleTo m e 0
  let k' : Int := if roundsUp mode neg (k % 2 == 1) r d then k + 1 else k
  (if neg then -k' else k', r != 0)

/-- R53: conversion to iW or nW. -/
def convertToInt (signed : Bool) (w : Nat) (mode : RMode) (x : FVal) : Flagged Int :=
  match x with
  | .nan => ⟨0, flagIV⟩
  | .inf n => ⟨if n then intLow signed w else intHigh signed w, flagIV⟩
  | .fin n m e =>
    let (k, inexact) := roundInt mode n m e
    let (k', clamped) := saturate k (intLow signed w) (intHigh signed w)
    ⟨k', if clamped then flagIV else flagIf inexact flagIX⟩

/-- R52: conversion to e4m3 or e5m2; a zero keeps its sign (log entry 109). -/
def convertSmall (f : FloatFmt) (mode : RMode) (x : FVal) : Flagged FVal :=
  match x with
  | .nan => ⟨.nan, 0⟩
  | .inf n => if f.noInf then ⟨.fin n f.maxM f.maxE, flagQS⟩ else ⟨.inf n, 0⟩
  | .fin n m e =>
    if m = 0 then ⟨.fin n 0 0, 0⟩
    else
      let g := gridRound f mode n m e
      if magLt f.maxM f.maxE g.val.1 g.val.2 then ⟨.fin n f.maxM f.maxE, g.flags ||| flagQS ||| flagIX⟩
      else ⟨.fin n g.val.1 g.val.2, g.flags⟩

/-! ds8 (R56, R57), in units of 2⁻⁶. -/

def ds8Term (sign : Bool) (c : Nat) : Int := if c = 7 then 0 else if sign then -((2 : Int) ^ (6 - c)) else (2 : Int) ^ (6 - c)
/-- The value of a code times 64. -/
def ds8Units (w : Nat) : Int := ds8Term (bitOf w 7) (bitsOf w 6 4) + ds8Term (bitOf w 3) (bitsOf w 2 0)
def ds8Val (w : Nat) : FVal :=
  let u := ds8Units w
  .fin (decide (u < 0)) u.natAbs (-6)

/-- The magnitudes of ds8 values in units of 2⁻⁶, rising (R56). -/
def ds8Mags : List Nat :=
  [0, 1, 2, 3, 4, 5, 6, 7, 8, 9, 10, 12, 14, 15, 16, 17, 18, 20, 24, 28, 30, 31, 32, 33, 34, 36, 40, 48, 56, 60, 62, 63,
   64, 65, 66, 68, 72, 80, 96, 128]

/-- The canonical code of a value (R57): the first row of the list that has one. -/
def ds8Code (neg : Bool) (u : Nat) : Nat :=
  let s := if neg then 1 else 0
  let single := (List.range 7).find? (fun c => decide (2 ^ (6 - c) = u))
  let pairs := (List.range 49).map (fun i => (i / 7, i % 7))
  let same := pairs.find? (fun p => decide (p.1 ≤ p.2) && decide (2 ^ (6 - p.1) + 2 ^ (6 - p.2) = u))
  let other := pairs.find? (fun p => decide (p.1 < p.2) && decide (2 ^ (6 - p.1) - 2 ^ (6 - p.2) = u))
  if u = 0 then 0x77
  else match single, same, other with
    | some c, _, _ => s * 128 + c * 16 + 7
    | none, some p, _ => s * 128 + p.1 * 16 + s * 8 + p.2
    | none, none, some p => s * 128 + p.1 * 16 + (1 - s) * 8 + p.2
    | none, none, none => 0x77

/-- The nearest of rising magnitudes to m · 2^e in units of 2⁻⁶; midway, the smaller one. -/
def nearestMag (m : Nat) (e : Int) : List Nat → Nat → Nat
  | [], best => best
  | u :: us, best =>
    -- u is nearer than best exactly when twice the value exceeds their sum
    if magLt (best + u) 0 (2 * m) e then nearestMag m e us u else nearestMag m e us best

/-- RoundDS8 (R57). -/
def roundDs8 (x : FVal) : Flagged Nat :=
  match x with
  | .nan => ⟨0x77, flagIV⟩
  | .inf n => ⟨ds8Code n 128, flagQS ||| flagIX⟩
  | .fin n m e =>
    let e6 := e + 6
    if magLt 128 0 m e6 then ⟨ds8Code n 128, flagQS ||| flagIX⟩
    else
      let u := nearestMag m e6 ds8Mags 0
      let exact := !magLt u 0 m e6 && !magLt m e6 u 0
      ⟨ds8Code n u, flagIf (!exact) flagIX⟩

/-! Formats by code (Table 02-1). -/

end Sys2Proof.Machine

namespace Sys2Proof

def Fmt.width : Fmt → Nat
  | .i8 | .n8 | .e4m3 | .e5m2 | .ds8 => 8
  | .i16 | .n16 | .bf16 | .fp16 => 16
  | .i32 | .n32 | .fp32 => 32
  | .i64 | .n64 | .m64 => 64
  | .fa56 => 56
/-- Whether an integer type, and whether it is signed. -/
def Fmt.int? : Fmt → Option Bool
  | .i8 | .i16 | .i32 | .i64 => some true
  | .n8 | .n16 | .n32 | .n64 => some false
  | _ => none
def Fmt.float? : Fmt → Option Machine.FloatFmt
  | .fp32 => some Machine.fp32
  | .bf16 => some Machine.bf16
  | .fp16 => some Machine.fp16
  | .e4m3 => some Machine.e4m3
  | .e5m2 => some Machine.e5m2
  | .fa56 => some Machine.fa56
  | _ => none

end Sys2Proof

namespace Sys2Proof.Machine

/-- The exact value of an element (m64 has none: its mean stands for it). -/
def fmtValue (t : Fmt) (w : Nat) : FVal :=
  match t.int? with
  | some signed => FVal.ofInt (if signed then signedOf t.width w else (w % 2 ^ t.width : Nat))
  | none =>
    match t.float? with
    | some f => f.decode w
    | none => if t = .ds8 then ds8Val w else Machine.fp32.decode (w % 2 ^ 32)

/-- Val of an e8m0 scale (R54). -/
def e8m0Val (w : Nat) : FVal := if w = 255 then .nan else .fin false 1 ((w : Int) - 127)

end Sys2Proof.Machine
end

