-- ==== Sys2Proof/Machine/Templates.lean ====
section
/-! DEFINITION. Copy templates (R335, R337): their layout in the scratchpad and the checks of CTSET. -/

namespace Sys2Proof.Machine

/-- The scratchpad offset of a slot. -/
def templateOff (slot : Nat) : Nat := 2 ^ 16 + 64 * slot

/-- The bits of Table 16-1 that are RES0. -/
def templateRes0 (n : Nat) : Bool :=
  bitsOf n 63 57 != 0 || bitsOf n 127 121 != 0 || bitsOf n 191 184 != 0 || bitsOf n 383 377 != 0 || bitsOf n 447 406 != 0 ||
    bitsOf n 511 454 != 0

def sint32 (n : Nat) : Int := signedOf 32 n

/-- The fields of Table 16-1. -/
def templateOf (n : Nat) : Template :=
  { src := bitsOf n 56 0, dst := bitsOf n 120 64, ext0 := bitsOf n 151 128, ext1 := bitsOf n 167 152, ext2 := bitsOf n 183 168,
    sstr1 := sint32 (bitsOf n 223 192), dstr1 := sint32 (bitsOf n 255 224), sstr2 := sint32 (bitsOf n 287 256),
    dstr2 := sint32 (bitsOf n 319 288), bar := bitsOf n 376 320, foff := bitsOf n 405 384, scope := bitsOf n 453 451,
    arr := bitsOf n 450 450, high := bitOf n 449, fv := bitOf n 448 }

/-- B. -/
def Template.total (t : Template) : Nat := t.ext0 * t.ext1 * t.ext2

/-- The checks that CTSET makes on an image. -/
def templateBad (n : Nat) : Bool :=
  templateRes0 n || decide (5 < (templateOf n).scope) || decide (2 ^ 32 ≤ (templateOf n).total)

/-- The completion scope of a transfer. -/
def Template.reach (t : Template) : Scope :=
  match t.scope with
  | 3 => .ha
  | 4 => .pk
  | 5 => .sy
  | _ => .ac

/-- CTSET's image has been read: its slot in the scratchpad of an arcade is written, or nothing where a check fails; X after (R337). -/
def setTemplate (s : State) (ak slot : Nat) (bs : List Byte) : State × Word :=
  if 1024 ≤ slot ∨ templateBad (leNat bs) then (s, BitVec.allOnes 64)
  else (putBytes s (scratchBase ak + templateOff slot) (bs.take 64), 0)

end Sys2Proof.Machine
end

