-- ==== Sys2Proof/Machine/Access.lean ====
section
/-! DEFINITION. Loads and stores of a context (R113, R114, R309, R310, R312): the queue of issued stores, forwarding, performing a
store at its storage, reading, releases and acquires, and writing a reply to its destination. -/

namespace Sys2Proof.Machine

/-! Stores. -/

/-- A place in another package (R292). -/
def isRemote (c : Nat) (p : Place) : Bool := pkgOf p.pa != ctxPkg c

/-- The storage of a place is a TCM or a scratchpad (R310). -/
def isNearStorage (p : Place) : Bool :=
  match storageOf p.pa with
  | .tcm _ _ => true
  | .scratch _ _ => true
  | _ => false

/-- Posted stores to another package, in one message (Table 21-7). -/
def postStore (s : State) (c : Nat) (p : Place) (stores : List QStore) (payload : List Byte) : State :=
  sendMessage (s.updCtx c (fun v => { v with posted := v.posted + 1 })) (ctxHall c) (targetHall p.pa) 0 (s.ctx c).ttag.toNat
    (.access p.key c stores) payload

/-- The 128 bytes of a block and their enables, from the elements stored into it, the later over the earlier (R141, R447). -/
def blockBytes (qs : List QStore) : List Byte × Nat :=
  qs.foldl (fun b q =>
    let off := q.place.pa % 128
    let n := q.bytes.length
    (b.1.take off ++ q.bytes ++ b.1.drop (off + n), Nat.lor b.2 ((2 ^ n - 1) * 2 ^ off))) (List.replicate 128 0, 0)

/-- The elements of one block of a vector store travel as one message: header, mask, block (R447). -/
def postBlock (s : State) (c : Nat) (qs : List QStore) : State :=
  match qs with
  | [] => s
  | q :: _ =>
    let (bs, mask) := blockBytes qs
    postStore s c q.place qs (requestHeader .store (q.place.pa / 128 * 128) 128 0 0 0 ++ leBytes 16 mask ++ bs)

/-- The place belongs to a device whose registers the spec does not lay out: a Carter aperture outside its operations, or the Crier's
range (Table 13-5). An access is delivered there; no state that the spec gives the machine changes (log entry 9). -/
def isDevice (pa : Nat) : Bool :=
  match storageOf pa with
  | .aperture _ _ _ => true
  | .crier _ => true
  | _ => false

/-- A store without a release. -/
def plainStore (va : Nat) (p : Place) (bs : List Byte) (policy : Policy) : QStore := ⟨va, p, bs, false, .th, policy, none⟩

/-- A store of context `c` is performed (R309, Table 13-3): in the L1, at its storage, posted to another package (Table 21-7), at a
hall register, delivered to a device. -/
def performAt (s : State) (c : Nat) (q : QStore) : State :=
  let p := q.place
  let bs := q.bytes
  let policy := q.policy
  if isRemote c p then postStore s c p [q] (requestHeader .store p.pa bs.length 0 0 0 ++ bs)
  else if isDevice p.pa then s
  else match storageOf p.pa with
    | .hallRegs h off => writeHallRegBytes s h off bs
    | .host _ =>
      if p.cached then performStore s c p bs policy
      else (writeHome s p.key p.pa bs).updCtx c (fun v => { v with hostAddr := some p.pa })
    | _ => performStore s c p bs policy

/-- The line of a context's oldest issued store, where a Carter has taken it: its arcade, key id and number. The store waits (R348). -/
def storeHeld (s : State) (c : Nat) : Option (Nat × Nat × Nat) :=
  match (s.ctx c).storeQ with
  | [] => none
  | q :: _ =>
    if q.place.cached then
      (carterOwner s (ctxHall c) q.place.key (q.place.pa / 64)).map (fun ak => (ak, q.place.key, q.place.pa / 64))
    else none
/-- The arcade of that Carter. -/
def storeHeldBy (s : State) (c : Nat) : Option Nat := (storeHeld s c).map (·.1)

/-- The oldest issued store of a context is performed, unless it waits for a Carter. -/
def performOldest (s : State) (c : Nat) : State :=
  match (s.ctx c).storeQ with
  | [] => s
  | q :: r =>
    if (storeHeldBy s c).isSome then s
    else if q.block.isSome then
      postBlock (s.updCtx c (fun v => { v with storeQ := r.dropWhile (fun x => x.block == q.block) })) c
        (q :: r.takeWhile (fun x => x.block == q.block))
    else performAt (s.updCtx c (fun v => { v with storeQ := r })) c q

/-- Every issued store of a context is performed, oldest first. -/
def drainFrom : Nat → State → Nat → State
  | 0, s, _ => s
  | n + 1, s, c => drainFrom n (performOldest s c) c
def drain (s : State) (c : Nat) : State := drainFrom (s.ctx c).storeQ.length s c

/-- Every issued store of a context is performed before what follows, which waits in RUN for a line that a Carter has taken. -/
def settled (s : State) (c : Nat) : Except Stop State :=
  match storeHeld (drain s c) c with
  | some h => .error (.wait [.carterBeat h.1])
  | none => .ok (drain s c)

/-- The same for a load, which waits in WMEM (R310, R348). -/
def settledLoad (s : State) (c : Nat) : Except Stop State :=
  match storeHeld (drain s c) c with
  | some h => .error (lineWait h.1 h.2.1 h.2.2)
  | none => .ok (drain s c)

/-- Stores to TCM or scratchpad held in the forwarding table of a stall (R310). -/
def forwardCount (s : State) (k : Nat) : Nat :=
  ((List.range 64).map (fun i => (s.ctx (64 * k + i)).storeQ.countP (fun q => isNearStorage q.place))).sum

/-- The contexts of a stall whose queues hold a store to TCM or scratchpad. -/
def forwardOwners (s : State) (k : Nat) : List Nat :=
  ((List.range 64).map (64 * k + ·)).filter (fun c => (s.ctx c).storeQ.any (fun q => isNearStorage q.place))

/-- Room for `n` more issued stores: of 32 the oldest are performed (R309); of 16 to TCM or scratchpad, those of the stall's contexts
(R310). A store waits at issue, in RUN, where older ones wait for a Carter. -/
def roomFor (s : State) (c n : Nat) (near : Bool) : Except Stop State := do
  let s1 ← if 32 < (s.ctx c).storeQ.length + n then settled s c else pure s
  if near && decide (16 < forwardCount s1 (ctxStall c) + n) then
    (forwardOwners s1 (ctxStall c)).foldlM settled s1
  else pure s1

/-- The oldest issued store makes place for one more where the queue or the forwarding table is full (R309, R310). -/
def makeRoom (s : State) (c : Nat) (p : Place) : State :=
  let s1 := if 32 ≤ (s.ctx c).storeQ.length then performOldest s c else s
  if isNearStorage p && decide (16 ≤ forwardCount s1 (ctxStall c)) then (forwardOwners s1 (ctxStall c)).foldl drain s1 else s1

/-- A store of context `c` issues: it joins the queue, and its TBM bit is set (R294, R309). -/
def pushStore (s : State) (c : Nat) (q : QStore) : State :=
  ((makeRoom s c q.place).updCtx c (fun v =>
    { v with storeQ := v.storeQ ++ [q], tbm := v.tbm ||| tbmBit c q.place })).cause (.storePerform c)

/-- The elements of one block of a vector store into another package issue: room is made for them; more than the queue holds are
sent as they issue (R309, R447). -/
def pushBlock (s : State) (c : Nat) (qs : List QStore) : State :=
  match qs with
  | [] => s
  | q :: _ =>
    let mark (t : State) : State := t.updCtx c (fun v => { v with tbm := v.tbm ||| tbmBit c q.place })
    if 32 < qs.length then mark (postBlock (drain s c) c qs)
    else
      let s1 := if 32 < (s.ctx c).storeQ.length + qs.length then drain s c else s
      (mark (s1.updCtx c (fun v => { v with storeQ := v.storeQ ++ qs }))).cause (.storePerform c)

/-! Releases and acquires (R311, R312). -/

/-- FLOSS at a `.sy` release (Table 18-2, R421). -/
def flossRelease (v : Ctx) : Trap := ⟨.floss, v.lostPkg % 2 ^ 13 + 2 ^ 13 + min v.lost 0xFFFF * 2 ^ 16, 0⟩

/-- ORD asks for engine order (ORD[2]). -/
def engineOf (ord : Option OrdQ) : Bool := (ord.map (·.eng)).getD false

/-- A release with engine order (R316): an engine command issued after it finds no visitor copy in an L2 of the package that is older than
what the context's earlier accesses have met. -/
def engineRelease (s : State) (c : Nat) (scope : Scope) : State :=
  if Scope.le .pk scope then (pkgHalls (ctxPkg c)).foldl bumpL2 s else s

/-- A release of a drained context at a scope, with engine order where `eng`. -/
def releaseAt (s : State) (c : Nat) (scope : Scope) (eng : Bool) : State :=
  let t := releaseCaches s c scope
  if eng then engineRelease t c scope else t

/-- A write to host space is to be completed by a zero-length read before a release at `.sy` is (R441). -/
def Ctx.owesHost (v : Ctx) : Bool := v.tbm.getLsbD 50 && v.hostAddr.isSome

/-- A release at a scope by the running context, and then the rest of its instruction (R312, R315). At `.sy` it waits, in RUN, until
its posted stores are acknowledged, and in WMEM for the zero-length read that completes its host writes (R441). `report` marks a fence,
a release store or a release atomic, which reports their loss (R325, R421); `eng` its engine order (R316). -/
def withReleaseOf (report eng : Bool) (s : State) (scope : Scope) (rest : State → Except Stop State) : Except Stop State := do
  let s1 ← settled s s.cur
  if scope = .sy ∧ s1.me.posted ≠ 0 then .error (.wait [.storePerform s.cur])
  else if scope = .sy ∧ s1.me.owesHost then .error (.held .hostRead (.loadReply s.cur))
  else if report && scope == .sy && s1.me.lost != 0 then
    .ok ((s1.upd (fun v => { v with lost := 0 })).trap s.cur (flossRelease s1.me))
  else rest (releaseAt s1 s.cur scope eng)

/-- The release of a fence, a release store or a release atomic. -/
def withRelease (s : State) (scope : Scope) (eng : Bool) (rest : State → Except Stop State) : Except Stop State :=
  withReleaseOf true eng s scope rest
/-- The release that another instruction makes: of its losses no fault is taken (R421). -/
def withQuietRelease (s : State) (scope : Scope) (rest : State → Except Stop State) : Except Stop State :=
  withReleaseOf false false s scope rest
/-- The same with engine order where `eng`, before the instruction's own act. -/
def releaseThen (s : State) (sc : Scope) (eng : Bool) (act : State → Except Stop State) : Except Stop State :=
  withReleaseOf false eng s sc act

/-- A zero-length read for a release that the device makes for a context (R441). -/
def askHost (s : State) (c : Nat) : State :=
  if (s.ctx c).hostRead then s else (s.updCtx c (fun v => { v with hostRead := true })).cause (.loadReply c)

/-- A release store at `.ac` or narrower holds its context for nothing (R312): it joins the queue behind the stores it orders. -/
def narrowRelease (s : State) (c : Nat) (scope : Scope) : State :=
  s.updCtx c (fun v => { v with tbm := v.tbm &&& ~~~(tbmCovered scope), covered := some scope })

/-- The stores that the context's releases cover are visible at a scope. -/
def Ctx.covers (v : Ctx) (scope : Scope) : Bool := v.covered.all (Scope.le scope)

/-- Before a message of the running context at a scope the stores that an earlier release covers are visible there (R304; log entry
122). -/
def covering (s : State) (scope : Scope) : Except Stop State :=
  if s.me.covers scope then .ok s
  else do
    let t ← settled s s.cur
    if scope = .sy ∧ t.me.posted ≠ 0 then throw (.wait [.storePerform s.cur])
    if scope = .sy ∧ t.me.owesHost then throw (.held .hostRead (.loadReply s.cur))
    pure (coverCaches t s.cur scope)

/-- A release by the device for a context, its posted stores complete or not (R246, R366). -/
def releaseNow (s : State) (c : Nat) (scope : Scope) : State := releaseCaches (drain s c) c scope

/-- A release store at `.ha` or wider is written through to the point of its scope (R312): under policy 01 at the home slice at once
(Table 13-3), at `.pk` and wider on to the home copy. -/
def performThrough (s : State) (c : Nat) (q : QStore) : State :=
  let p := q.place
  if isRemote c p || !p.cached then performAt s c q
  else
    let s1 := if q.policy = .nal then storeNoAlloc s c p q.bytes else storeL1 s c p q.bytes (q.policy == .keep) true
    if Scope.le .pk q.scope && !homeIn (ctxHall c) p.pa then writeBackL2 s1 (ctxHall c) p.key (p.pa / 128) else s1

/-! Loads. -/

/-- Whether [a, a+n) and [b, b+m) share a byte. -/
def overlaps (a n b m : Nat) : Bool := decide (a < b + m) && decide (b < a + n)

/-- The newest issued store of a context that overlaps a load. -/
def newestOverlap (v : Ctx) (pa n : Nat) : Option QStore :=
  v.storeQ.reverse.find? (fun q => overlaps q.place.pa q.bytes.length pa n)

/-- What a load finds in its own issued stores (R310, R30): the forwarded bytes; `none` where none overlap. Where they overlap
otherwise they are performed first, and those before an access of a device page (R298). -/
def forwarded (s : State) (c : Nat) (p : Place) (n : Nat) : Except Stop (State × Option (List Byte)) :=
  match newestOverlap (s.ctx c) p.pa n with
  | none => if p.mtype = 2 then (settledLoad s c).map (fun t => (t, none)) else .ok (s, none)
  | some q =>
    if isNearStorage p && decide (q.place.pa ≤ p.pa) && decide (p.pa + n ≤ q.place.pa + q.bytes.length) then
      .ok (s, some ((q.bytes.drop (p.pa - q.place.pa)).take n))
    else (settledLoad s c).map (fun t => (t, none))

/-- The bytes of a place of the own package at its storage, and whether they are there at once (R212). -/
def readStorage (s : State) (c : Nat) (p : Place) (n : Nat) (policy : Policy) : State × List Byte × Bool :=
  if isDevice p.pa then (s, leBytes n (Config.deviceRead p.pa n s.tick), false)
  else match storageOf p.pa with
    | .hallRegs h off => (s, hallRegBytes s h off n, false)
    | _ => loadPlace s c p n policy

/-- The bytes a load of the running program finds in a place of the own package, after its own issued stores. -/
def readPlace (s : State) (c : Nat) (p : Place) (n : Nat) (policy : Policy) : Except Stop (State × List Byte × Bool) := do
  match ← forwarded s c p n with
  | (s1, some bs) => pure (s1, bs, true)
  | (s1, none) => pure (readStorage s1 c p n policy)

/-- The bytes of a place as the device reads them for a context at once: another package's at their home copy. -/
def readNow (s : State) (c : Nat) (p : Place) (n : Nat) : State × List Byte :=
  if isRemote c p then (s, homeBytes s p.key p.pa n)
  else
    let (s1, bs, _) := readStorage (drain s c) c p n .page
    (s1, bs)

/-- Bytes written by the device for a context at once, in order after its issued stores. -/
def writeNow (s : State) (c : Nat) (p : Place) (bs : List Byte) : State :=
  let s1 := drain s c
  if isRemote c p then writeHome s1 p.key p.pa bs
  else (performAt s1 c (plainStore p.pa p bs .page)).updCtx c (fun v => { v with tbm := v.tbm ||| tbmBit c p })

/-! Replies. -/

/-- The value of bytes, extended to a register. -/
def extendBytes (bs : List Byte) (signed : Bool) : Word :=
  if signed then BitVec.ofInt 64 (signedBytes bs) else w64 (leNat bs)
where
  signedBytes (bs : List Byte) : Int :=
    let n := leNat bs
    if 2 * n < 2 ^ (8 * bs.length) then n else (n : Int) - (2 : Int) ^ (8 * bs.length)

/-- Elements written into a vector register, `size` bytes each, for the listed element numbers. -/
def placeElements (w : VWord) (size : Nat) : List Nat → List Byte → VWord
  | [], _ => w
  | i :: is, bs => placeElements (replaceBytes 1024 w (i * size) (bs.take size)) size is (bs.drop size)

/-- A reply is written to its destination (R113, R115, R139, R317): `lat` receives the low 64 bits. -/
def writeDest (s : State) (c : Nat) (d : Dest) (bs : List Byte) : State :=
  match d with
  | .scalar x size signed => s.writeG c x (extendBytes (bs.take size) signed)
  | .pair x | .pairValue x =>
    let lo := w64 (leNat (bs.take 8))
    let s1 := s.putG c x lo
    let s2 := s1.putG c (GReg.succ 1 x) (w64 (leNat (bs.drop 8)))
    s2.updCtx c (fun v => { v with lat := lo })
  | .vector x size active bcast =>
    let data := if bcast then (active.map (fun _ => bs.take size)).flatten else bs
    s.writeV c x (placeElements (s.readV c x) size active data)
  | .value x => s.writeG c x (w64 (leNat (bs.take 8)))
  | .template x slot =>
    let (s1, v) := setTemplate s (ctxArcade c) slot bs
    s1.writeG c x v
  | .nothing => s

end Sys2Proof.Machine
end

