-- ==== Sys2Proof/Machine/Network.lean ====
section
/-! DEFINITION. The message network (R303 to R305, R393): messages and their digests (R400), sending, an instruction or an event that acts
in another arcade, DISCARD (R367, R422). A message within a hall stands in the inbox of its arcade, in the order of sending; one to
another hall of the package goes as a coded message (R405). -/

namespace Sys2Proof.Machine

/-- The message types of R400. -/
inductive MsgKind
  | counterOp | counterReply | barrierOp | wake | take | stealReply | empty | decline | tileBeat | gangArrival | discard
  deriving DecidableEq, Repr
def MsgKind.code : MsgKind → Nat
  | .counterOp => 1 | .counterReply => 2 | .barrierOp => 3 | .wake => 4 | .take => 5 | .stealReply => 6 | .empty => 7
  | .decline => 8 | .tileBeat => 9 | .gangArrival => 10 | .discard => 11

/-! Digests (R400). -/

/-- CRC-32C, one bit at a time from the least significant. -/
def crcBit (c : Nat) : Nat := if c % 2 = 1 then Nat.xor (c / 2) 0x82F63B78 else c / 2
def crcByte (c : Nat) (b : Byte) : Nat := (List.range 8).foldl (fun a _ => crcBit a) (Nat.xor c b.toNat)
def crc32c (bs : List Byte) : Nat := Nat.xor (bs.foldl crcByte 0xFFFFFFFF) 0xFFFFFFFF

/-- The header word of a message. -/
def Message.header (m : Message) : Nat :=
  m.tag % 2 ^ 32 + m.src % 512 * 2 ^ 32 + m.kind % 128 * 2 ^ 41 + (m.payload.length + 7) / 8 % 2 ^ 16 * 2 ^ 48

/-- One step of the digest. -/
def foldDigest (dig x : Word) : Word := (dig ^^^ x) * 0x00000100000001B3

/-- The interface of an arcade accepts a message: DIG and COUNT. -/
def foldMessage (a : Arcade) (m : Message) : Arcade :=
  { a with dig := foldDigest (foldDigest a.dig (w64 m.header)) (w64 (crc32c m.payload)), count := a.count + 1 }

/-! Sending. -/

/-- A message as sent now, with a payload that the spec does not lay out (log entry 10). -/
def newMessage (s : State) (dst : Option Nat) (tag src : Nat) (kind : MsgKind) (act : Effect) : Message :=
  ⟨dst, tag, src, kind.code, Config.messagePayload s.tick kind.code, act⟩

/-- The traffic class of a message between halls (R405): replies are responses. -/
def Message.cls (m : Message) : Nat := if m.kind = 2 ∨ (6 ≤ m.kind ∧ m.kind ≤ 8) then 1 else 0
/-- Bytes as a message between halls carries them: from 1 to 16,384 (R406). -/
def wireBytes (l : List Byte) : List Byte := if l.isEmpty then [0] else l.take 16384

/-- A message reaches the interface of its arcade, which delivers it in its turn. -/
def toInbox (s : State) (ak : Nat) (m : Message) : State :=
  (s.updArcade ak (fun a => { a with inbox := a.inbox ++ [m] })).cause (.networkMessageDelivery ak)

/-- A message from one arcade to another of the package (R303, R405). -/
def sendTo (s : State) (src dst : Nat) (m : Message) : State :=
  if arcadeHall src = arcadeHall dst then toInbox s dst m
  else sendMessage s (arcadeHall src) (arcadeHall dst) m.cls m.tag (.network dst m) (wireBytes m.payload)

/-- A message that causes an event: at once within one arcade, else when it is delivered. -/
def postMessage (s : State) (src dst : Nat) (stallTo : Option Nat) (tag stall : Nat) (kind : MsgKind) (act : Event) : State :=
  if src = dst then s.cause act else sendTo s src dst (newMessage s stallTo tag stall kind (.event act))

/-- A message for a halted stall waits in its interface (R393). -/
def heldMessage (s : State) (m : Message) : Bool :=
  match m.dst with
  | some k => (s.stall k).halted
  | none => false

/-! Acting in another arcade (R224, R303): what the instruction or event does, it does whole as its message is delivered there. -/

/-- The message of a turn has been delivered in an arcade: the turn may act there, once for each message. -/
def takeVisit (s : State) (who : Turn) (ak : Nat) : Option State :=
  if s.visits.contains (who, ak) then some { s with visits := s.visits.erase (who, ak) } else none
/-- A context's instruction acts away from it in this turn. -/
def isVisiting (s : State) (c : Nat) : Bool := s.visits.any (fun e => e.1 == .issue c)
def dropVisits (s : State) (who : Turn) : State := { s with visits := s.visits.filter (fun e => e.1 != who) }

/-- What the message of an instruction must not overtake is visible at the scope that joins the context and the arcade it acts in
(R304). -/
def coverVisit (who : Turn) (s : State) (c ak : Nat) : Except Stop State :=
  match who with
  | .issue _ => covering s (joinArcade (ctxStall c) ak)
  | _ => .ok s
/-- The same at the scope that the ORD of an instruction names, where it acts in another arcade. -/
def coverFor (s : State) (ak : Nat) (ord : Option OrdQ) : Except Stop State :=
  match ord with
  | some o => if ak = ctxArcade s.cur then .ok s else covering s o.scope
  | none => .ok s

/-- An act for context `c` in arcade `ak`: at once in its own arcade, else when its message has been delivered. -/
def visit (who : Turn) (s : State) (c ak : Nat) (kind : MsgKind) : Except Stop State :=
  if ak = ctxArcade c then .ok s
  else match coverVisit who s c ak with
    | .error e => .error e
    | .ok s1 =>
      match takeVisit s1 who ak with
      | some t => .ok t
      | none => .error (.visit ak kind.code)

/-- The message of a turn leaves. -/
def sendVisit (who : Turn) (s : State) (c ak kind : Nat) : State :=
  sendTo s (ctxArcade c) ak ⟨none, (s.ctx c).ttag.toNat, ctxStall c, kind, Config.messagePayload s.tick kind, .visit who⟩

/-- The message of a turn is delivered: an instruction whose context still waits for it acts at once, and so does an event. -/
def arriveVisit (s : State) (ak : Nat) (who : Turn) : State :=
  let go (t : State) : State := { t with visits := t.visits ++ [(who, ak)], sched := who :: t.sched }
  match who with
  | .issue c => if (s.ctx c).wait = .visit then go (s.updCtx c (fun v => { v with wait := .none })) else s
  | .event _ => go s
  | .step _ => s

/-- What an event's check answers becomes a step; where it must act elsewhere, its message leaves for context `c`; where it must wait, it
is made again. -/
def finishEvent (e : Event) (c : Nat) (s : State) (r : Except Stop State) (otherwise : State) : State :=
  match r with
  | .ok t => dropVisits t (.event e)
  | .error (.wait es) => (es.foldl State.causeOnce s).causeOnce e
  | .error (.visit ak kind) => sendVisit (.event e) s c ak kind
  | .error _ => dropVisits otherwise (.event e)

/-! DISCARD. -/

/-- DISCARD (R367): the messages of a tag that an interface has not delivered go; the discard itself is accepted. -/
def discardAt (s : State) (ak tag src : Nat) : State :=
  s.updArcade ak (fun a =>
    foldMessage { a with inbox := a.inbox.filter (fun m => m.tag != tag) } (newMessage s none tag src .discard .none))

/-- The arcades of a package. -/
def pkgArcades (p : Nat) : List Nat := (List.range 64).map (fun a => 64 * p + a)

/-- KIND of a request header (R447). -/
def headerKind (bs : List Byte) : Nat := ((bs[7]?).getD 0).toNat

/-- A number that a context waits for, once earlier messages of its stream that had no number yet are gone. -/
def shiftSeq (next : Nat) (gone : List Nat) (seq : Nat) : Nat := seq - gone.countP (fun i => decide (next + i < seq))
def Wait.shift (key next : Nat) (gone : List Nat) : Wait → Wait
  | .remote d va k seq acq => .remote d va k (if k = key then shiftSeq next gone seq else seq) acq
  | .gather x size parts got acq =>
    .gather x size (parts.map (fun p => if p.1 = key then (p.1, shiftSeq next gone p.2.1, p.2.2) else p)) got acq
  | .donate x pa k seq => .donate x pa k (if k = key then shiftSeq next gone seq else seq)
  | w => w

/-- A posted store that is not sent, or is acknowledged, is no longer outstanding. -/
def unpost (s : State) (m : FabricMessage) : State :=
  if headerKind m.bytes ≠ AccessKind.store.code then s
  else match m.body with
  | .access _ c _ => s.updCtx c (fun v => { v with posted := v.posted - 1 })
  | _ => s

/-- Messages of a tag that the source hall of a stream has not yet encoded go (R422). -/
def discardWaiting (s : State) (key tag : Nat) : State :=
  let st := s.stream key
  let gone := (st.waiting.zipIdx.filter (fun e => e.1.tag == tag)).map (·.2)
  let s1 := s.updStream key (fun v => { v with waiting := v.waiting.filter (fun m => m.tag != tag) })
  let s2 := { s1 with ctxs := s1.ctxs.map (fun e => (e.1, { e.2 with wait := e.2.wait.shift key st.next gone })) }
  (st.waiting.filter (fun m => m.tag == tag)).foldl (fun t m => restick (unpost t m) m.body (· - 1)) s2

/-- The streams of a package's halls with messages of a tag that wait to be encoded. -/
def waitingStreams (s : State) (p tag : Nat) : List Nat :=
  (s.streams.filter (fun e => hallPkg (streamSrc e.1) == p && e.2.waiting.any (fun m => m.tag == tag))).map (·.1)

/-- The stores of a tag that wait in the source halls, as their context issued them. -/
def waitingStores (s : State) (p tag : Nat) : List QStore :=
  (waitingStreams s p tag).flatMap (fun key => (s.stream key).waiting.flatMap (fun m =>
    match m.body with
    | .access _ _ qs => if m.tag = tag then qs else []
    | _ => []))

/-- DISCARD of a tag at every network interface of a package, and in its halls (R367, R422). -/
def discardTag (s : State) (p tag src : Nat) : State :=
  let s1 := (pkgArcades p).foldl (fun t ak => discardAt t ak tag src) s
  (waitingStreams s1 p tag).foldl (fun t key => discardWaiting t key tag) s1

def execDiscard (pkg tag : Nat) (s : State) : Host.Outcome State Fault Refusal := .next (discardTag s pkg tag 0)

end Sys2Proof.Machine
end

