-- ==== Sys2Proof/Machine/Trace.lean ====
section
/-! DEFINITION. State-change logs (R397 to R399), the changes of a context's state that they record (R213), and how an instruction
that stops short of its effect leaves the machine. -/

namespace Sys2Proof.Machine

/-- The device's accesses to a log: at supervisor level (log entry 14). -/
def logAcc : Acc := ⟨1, true, false, false⟩

/-- A write to a log: visible at `.pk`, outside TBM and the queue of issued stores (R399). -/
def logWrite (s : State) (c : Nat) (p : Place) (bs : List Byte) : State :=
  if isRemote c p then writeHome s p.key p.pa bs else performThrough s c { plainStore p.pa p bs .page with scope := .pk }

def logRead (s : State) (c : Nat) (p : Place) (n : Nat) : State × Nat :=
  if isRemote c p then (s, leNat (homeBytes s p.key p.pa n))
  else
    let (s1, bs, _) := loadPlace s c p n .nal
    (s1, leNat bs)

/-- The base and the capacity in records of a context's buffer (R397). -/
def logBase (tracec c : Nat) : Nat := bitsOf tracec 56 12 * 4096 + c % 64 * 2 ^ (12 + min (bitsOf tracec 11 8) 8)
def logCap (tracec : Nat) : Nat := (2 ^ (12 + min (bitsOf tracec 11 8) 8) - 64) / 4

/-- One record is appended, or counted in DROPPED (R397, R399). -/
def logRecord (s : State) (c record : Nat) : State :=
  let t := (s.stall (ctxStall c)).tracec.toNat
  let base := logBase t c
  match translateNow s c base logAcc, translateNow s c (base + 8) logAcc with
  | .ok (s1, w), .ok (_, d) =>
    let (s2, written) := logRead s1 c w.place 8
    let drop (u : State) : State :=
      let (u1, n) := logRead u c d.place 8
      logWrite u1 c d.place (leBytes 8 (n + 1))
    if !bitOf t 2 && decide (logCap t ≤ written) then drop s2
    else
      match translateNow s2 c (base + 0x40 + 4 * (written % logCap t)) logAcc with
      | .error _ => drop s2
      | .ok (s3, r) => logWrite (logWrite s3 c r.place (leBytes 4 record)) c w.place (leBytes 8 (written + 1))
  | _, _ => s

/-- A time record precedes any other record when CYC[63:28] has changed (R398). -/
def logTimed (s : State) (c record : Nat) : State :=
  let cyc := (Config.freeCyc (ctxStall c) s.tick).toNat
  if (s.ctx c).logTime = cyc / 2 ^ 28 then logRecord s c record
  else
    logRecord (logRecord (s.updCtx c (fun v => { v with logTime := cyc / 2 ^ 28 })) c (3 * 2 ^ 30 + cyc / 2 ^ 28 % 2 ^ 30)) c record

/-- A record for a change among RUN, WMSG, WMEM and IDLE (R398). -/
def logState (s : State) (c : Nat) (st : CtxState) : State :=
  if !bitOf (s.stall (ctxStall c)).tracec.toNat 0 then s
  else
    let code := match st with
      | .run => 0
      | .wmsg => 1
      | .wmem => 2
      | _ => 3
    logTimed s c (code * 2 ^ 28 + (Config.freeCyc (ctxStall c) s.tick).toNat % 2 ^ 28)

/-- A context may not issue: it is halted itself or with its stall (R384, R391), and no STEP is under way for it (R396). -/
def isHalted (s : State) (c : Nat) : Bool := ((s.ctx c).halted || (s.stall (ctxStall c)).halted) && !(s.ctx c).stepping

/-- A context passes to a state, which its log records. A halted context that would run enters HALT; neither that nor leaving HALT is
recorded (R391, R398). -/
def enter (s : State) (c : Nat) (st : CtxState) : State :=
  if st == .run && isHalted s c then s.updCtx c (fun v => { v with st := .halt, back := .run })
  else
    let s1 := s.updCtx c (fun v => { v with st := st })
    if (s.ctx c).st = st ∨ (s.ctx c).st = .halt then s1 else logState s1 c st

/-- A context's wait ends: it runs again (R213). -/
def wake (s : State) (c : Nat) : State := enter (s.updCtx c (fun v => { v with wait := .none })) c .run

/-- A context waits: its state and what for. With a pre-emption request pending it may be evicted there (R372). -/
def block (s : State) (c : Nat) (st : CtxState) (w : Wait) : State :=
  let s1 := enter (s.updCtx c (fun v => { v with wait := w })) c st
  if (s1.ctx c).request.isSome then s1.cause (.evict c) else s1

/-- The contexts and evicted tasks whose waits `f` names go on: they issue again. -/
def wakeWhere (s : State) (f : Wait → Bool) : State :=
  let s1 := ((s.ctxs.filter (fun e => f e.2.wait && e.2.dying.isNone)).map (·.1)).foldl wake s
  { s1 with stalls := s1.stalls.map (fun e => (e.1, { e.2 with wake := e.2.wake.map (fun w =>
    if f w.wait then { w with ready := true } else w) })) }

/-- A line that a Carter had taken is given back (R348). -/
def wakeLine (s : State) (ak key line : Nat) : State := wakeWhere s (fun w => w == .line ak key line)
/-- A channel of a Carter, or the Carter itself once it is frozen no more, takes requests again (R338, R392). -/
def wakeSlots (s : State) (ak : Nat) (f : Nat → Bool) : State :=
  wakeWhere s (fun w => match w with
    | .slot a ch => a == ak && f ch
    | _ => false)

/-- An instruction misses the TLB: its context waits in WMEM and the miss joins the hall's queue (R301). -/
def missWalk (s : State) (va kind : Nat) (user : Bool) : State :=
  let c := s.cur
  let s1 := block (s.upd (fun v => { v with missed := some (va, kind, user) })) c .wmem .walk
  (s1.updHall (ctxHall c) (fun h => { h with walks := h.walks ++ [⟨c, va, kind, user⟩] })).cause (.pageWalk (ctxHall c))

/-- A step's answer. -/
abbrev Answer := Host.Outcome State Fault Refusal

/-- What an instruction's check answers becomes a step: the next state; the trap taken (R359); the miss queued (R301); the wait, at
issue or in WMEM, with the events it waits for made due; the message sent to where it acts. -/
def finish (s : State) (r : Except Stop State) : Answer :=
  match r with
  | .ok t => .next t
  | .error (.trap t) => .next (s.trap s.cur t)
  | .error (.miss va kind user) => .next (missWalk s va kind user)
  | .error (.wait es) => .next (es.foldl State.causeOnce s.stay)
  | .error (.held w e) => .next ((block s s.cur .wmem w).causeOnce e)
  | .error (.visit ak kind) => .next (sendVisit (.issue s.cur) (s.upd (fun v => { v with wait := .visit })) s.cur ak kind)

end Sys2Proof.Machine
end

