-- ==== Sys2Proof/Machine/Issue.lean ====
section
/-! DEFINITION. One issue: fetching an instruction's words (R79, FETCH), who issues next (R209, R210), pre-emption at an
instruction boundary (R374). -/

namespace Sys2Proof.Machine

/-- FETCH (Table 18-2): the layout of Table 13-8 with KIND 2, and SRC. -/
def fetchTrap (t : Trap) (va : Nat) : Trap :=
  let src := match t.cause with
    | .prot => 1
    | .key => 2
    | .ecc => 3
    | _ => 0
  ⟨.fetch, t.einfo % 2048 + 2048 * src, va⟩

/-- A word that a launch has put into the stall's instruction cache (R256). -/
def cachedText (k : Stall) (asid va : Nat) : Option Word16 :=
  (k.texts.find? (fun t => t.asid == asid && decide (t.va ≤ va) && decide (va + 2 ≤ t.va + t.bytes.length))).map (fun t =>
    BitVec.ofNat 16 (leNat ((t.bytes.drop (va - t.va)).take 2)))

/-- One word at an address, for the running context: from the instruction cache, with no check of its page, or from memory (log entry
32). -/
def fetchWord (s : State) (va : Nat) : Except Stop (State × Word16) :=
  let a : Acc := ⟨2, false, false, !s.me.pl⟩
  if let some w := cachedText s.myStall (ptbrAsid s.me.ptbr) va then .ok (s, w)
  else match translate s va a with
  | .error (.trap t) => .error (.trap (fetchTrap t va))
  | .error e => .error e
  | .ok (s1, l) =>
    if isPoisoned s1 s1.cur l.place 2 then .error (.trap (fetchTrap (a.ecc va false) va))
    else
      let (s2, bs, _) := loadPlace s1 s1.cur l.place 2 .nal
      .ok (s2, BitVec.ofNat 16 (leNat bs))

/-- The words of the instruction at an address, read one by one as the decoding asks for them (R79). -/
def fetchFrom : Nat → State → Nat → List Word16 → Except Stop (State × Except Illop Raw)
  | 0, s, _, ps => .ok (s, .error ⟨1, ps.length⟩)
  | n + 1, s, va, ps =>
    match fetchWord s va with
    | .error e => .error e
    | .ok (s1, w) =>
      match scanStep ps w with
      | .more ps' => fetchFrom n s1 (va + 2) ps'
      | .base ps' b => .ok (s1, .ok ⟨ps', b⟩)
      | .bad e => .ok (s1, .error e)

/-- The words at the PC of the running context. -/
def fetch (s : State) : Except Stop (State × Except Illop Raw) := fetchFrom 5 s s.me.pc.toNat []

/-- ILLOP as decoding raises it (Table 03-4). -/
def decodeTrap (e : Illop) : Trap := ⟨.illop, e.reason + 256 * e.word, 0⟩

/-- The port of an instruction is the vector-matrix-moment port: pages 2, 3 and 4 (Table 09-1). -/
def onVPort (r : Raw) : Bool := 2 ≤ r.page && r.page ≤ 4

/-- The instruction issues: its length is known, and its port's pointer names the context (R210), unless it then waits at issue. -/
def beginIssue (s : State) (r : Raw) : State :=
  let c := s.cur
  let s1 := s.upd (fun v => { v with len := 2 * (r.ps.length + 1), waited := false })
  s1.updMyStall (fun k =>
    if onVPort r then { k with vPtr := c % 64, ptrV := true, ptrOld := k.vPtr } else { k with sPtr := c % 64, ptrV := false, ptrOld := k.sPtr })

/-- A context can issue: it runs a task, does not die, and no release holds it (R209, R312). -/
def Ctx.ready (v : Ctx) : Bool := v.st == .run && v.dying.isNone && v.wait == .none && v.stuck == 0

/-- An instruction of a context has issued and is not complete: it acts in another arcade (R303), or a SYNC has its JSUS to make
(R237). -/
def isMidway (s : State) (c : Nat) : Bool := isVisiting s c || (s.ctx c).saved.isSome

/-- The same for a context that may be halted (R391, R396): an instruction that has issued completes. -/
def canIssue (s : State) (c : Nat) : Bool := (s.ctx c).ready && (isMidway s c || !isHalted s c)

end Sys2Proof.Machine

namespace Sys2Proof

/-- The distance of a VSLIDE, and the register that names the entry point of a child. -/
def SlideSrc.distance : SlideSrc → GReg
  | .own d => d
  | .other _ d => d

def Target.reads : Target → List GReg
  | .label _ => []
  | .reg z => [z]

/-- The G-class registers that an instruction reads; one that it names twice is read twice (log entry 123). -/
def Instr.reads : Instr → List GReg
  | .add a | .sub a | .and a | .or a | .xor a | .shl a | .shr a | .sra a | .mul a | .mulh a | .mulhn a | .min a | .max a
  | .minn a | .maxn a | .ceq a | .cne a | .clt a | .cge a | .cltn a | .cgen a | .tst a | .div a | .divn a | .rem a | .remn a
  | .bfx a | .bfxn a | .rol a | .ror a | .fadd a | .fsub a | .fmul a | .fdiv a | .fmin a | .fmax a | .feq a | .flt a | .fle a
  | .funo a | .rlaunch a => [a.y, a.z.getD a.x]
  | .bfi a => a.x :: a.y :: a.z.toList
  | .not a | .mov a | .sxw a | .zxw a | .sxb a | .sxh a | .clz a | .popc a | .rev a | .ctz a | .fsqrt a | .fabs a | .fneg a
  | .cvtif a | .cvtfi a | .cvtfb a | .cvtbf a | .cvtfh a | .cvthf a | .falloc a | .rquery a => [a.y]
  | .purge a | .tlbinv a | .ctxsave a | .pub a => [a.x, a.y]
  | .jr a | .callr a | .flagc a | .tmark a | .mwait a | .ffree a | .tdrop a | .tabort a | .rwait a | .repart a | .ctxload a => [a.x]
  | .selnz a | .selz a | .fma a | .fms a | .fnma a => [a.x, a.y, a.z]
  | .addi a | .bnz a | .bz a => [a.x]
  | .shli a | .shri a | .srai a | .rori a => [a.x]
  | .ret => [.g 1]
  | .ldb a | .ldh a | .ldw a | .ldd a | .ldbs a | .ldhs a | .ldws a | .ldq a | .btest a => a.y :: a.z.toList
  | .stq a => a.x :: Machine.GReg.succ 1 a.x :: a.y :: a.z.toList
  | .stb a | .sth a | .stw a | .std a | .jadd a | .binit a | .barr a | .bwait a | .bexp a | .copy a | .ctset a | .cwm a
  | .cwait a => a.x :: a.y :: a.z.toList
  | .lea1 a | .lea2 a | .lea4 a | .lea8 a | .lea16 a => a.y :: a.z.toList
  | .wrc a => [a.x]
  | .mastm a | .maldm a | .jinit a => a.y :: a.z.toList
  | .pset a => [a.y]
  | .vld a | .vst a | .vlds a | .vsts a | .vldb a => a.y :: a.z.toList
  | .vgath a | .vscat a => [a.y]
  | .vrsum a | .vrmax a | .vrmin a => [a.z.getD a.x]
  | .vext a => [a.z.getD a.x]
  | .msum a => [a.z.getD a.x]
  | .vbcst a => a.y :: a.z.toList
  | .vslide a => [a.src.distance]
  | .vsett a => [a.y]
  | .aload a | .astore a => a.y :: a.z.toList
  | .arowv a | .avrow a | .mrfn a => [a.z]
  | .ascale a | .tname a => [a.y]
  | .tset a | .tshape a => a.y :: a.z.toList
  | .tadv a => a.y :: a.z.toList
  | .mcol a => (a.z.map (·.2)).toList
  | .spawn a => a.x :: a.target.reads
  | .spawna a => a.x :: a.y :: a.target.reads
  | .spawnf a => a.x :: a.y :: Machine.GReg.succ 1 a.y :: a.target.reads
  | .gbarw a => [a.x]
  | .donate a => a.x :: a.y :: a.z.toList
  | .aadd a | .aand a | .aor a | .axor a | .amin a | .amax a | .aswp a | .abinc a | .abdec a | .afadd a | .amadd a => [a.x, a.y, a.z]
  | .acas a => [a.x, Machine.GReg.succ 1 a.x, a.y, a.z]
  | .acas2 a => [a.x, Machine.GReg.succ 1 a.x, Machine.GReg.succ 2 a.x, Machine.GReg.succ 3 a.x, a.y, a.z]
  | .flush a | .inval a | .pref a => [a.y]
  | _ => []

end Sys2Proof

namespace Sys2Proof.Machine

/-! The two ports (R210). -/

/-- The main-file entries that a context's next instruction reads, and whether it is of the V port; the S port where no words are at hand.
Reads of `o` entries, `lat` and `g0` take no bank read. -/
noncomputable def nextReads (s : State) (c : Nat) : Bool × List Nat :=
  match fetch { s with cur := c } with
  | .ok (_, .ok r) =>
    (onVPort r, match decodeRaw r with
      | .ok i => i.reads.filterMap (fun g => match g with
        | .g i => if i.val = 0 then none else some (gEntry c (s.ctx c) i.val)
        | _ => none)
      | .error _ => [])
  | _ => (false, [])

/-- The first context in the order pointer + 1, pointer + 2, … of a stall that is ready for a port; `ready` tells which contexts are. -/
noncomputable def portNext (ready : Nat → Bool) (s : State) (k : Nat) (v : Bool) : Option Nat :=
  let w := s.stall k
  let ptr := if v then w.vPtr else w.sPtr
  ((List.range w.ctxn).map (fun i => 64 * k + (ptr + 1 + i) % w.ctxn)).find? (fun c => ready c && (nextReads s c).1 == v)

/-- Two instructions together read more than three entries of one main-file bank of 256, an entry named twice counting twice (log entry
123). -/
def bankClash (a b : List Nat) : Bool := (a ++ b).any (fun e => decide (3 < (a ++ b).countP (fun f => f / 256 == e / 256)))

/-- The contexts of a stall that issue in this cycle, S port first, and whether the priority bit turns. -/
noncomputable def portPick (ready : Nat → Bool) (s : State) (k : Nat) : List Nat × Bool :=
  match portNext ready s k false, portNext ready s k true with
  | some a, some b =>
    if bankClash (nextReads s a).2 (nextReads s b).2 then ([if (s.stall k).sFirst then a else b], true) else ([a, b], false)
  | some a, none => ([a], false)
  | none, some b => ([b], false)
  | none, none => ([], false)

/-- The stall that issues next: the next in cyclic order with a ready context (log entry 4). -/
def nextStall (ready : Nat → Bool) (s : State) : Option Nat :=
  match s.ctxs.find? (fun e => decide (ctxStall s.cur < ctxStall e.1) && ready e.1) with
  | some e => some (ctxStall e.1)
  | none => (s.ctxs.find? (fun e => ready e.1)).map (fun e => ctxStall e.1)

/-- The contexts that issue next: those that the ports of the next stall select. -/
noncomputable def nextIssue (ready : Nat → Bool) (s : State) : Option (Nat × List Nat × State) :=
  match nextStall ready s with
  | none => none
  | some k =>
    match portPick ready s k with
    | ([], _) => none
    | (c :: r, turn) => some (c, r, if turn then s.updStall k (fun v => { v with sFirst := !v.sFirst }) else s)

/-- The pending requests of a context, the oldest first (R372). -/
def Ctx.requests (v : Ctx) : List Request := v.request.toList ++ v.also
def Ctx.setRequests (v : Ctx) (l : List Request) : Ctx := { v with request := l.head?, also := l.drop 1 }

/-- The deadline of a request has passed, and PREEMPT has not been raised for it (R374). -/
def Request.due (r : Request) : Bool := r.passed && !r.raised

/-- PREEMPT is due at this boundary (R374). -/
def Ctx.preemptDue (v : Ctx) : Bool := v.requests.any Request.due && v.canTrap

/-- PREEMPT (R374): once for a request. -/
def takePreempt (s : State) (c : Nat) : State :=
  match (s.ctx c).requests.find? Request.due with
  | some r =>
    (s.updCtx c (fun v => v.setRequests (v.requests.map (fun q => if q = r then { q with raised := true } else q)))).trap c
      ⟨.preempt, r.source, 0⟩
  | none => s

/-- Contexts of all packages. -/
def ctxLimit : Nat := 64 * 512 * 8192

end Sys2Proof.Machine
end

