-- ==== Sys2Proof/Machine/Operands.lean ====
section
/-! DEFINITION. Operand forms: which registers an instruction names, checked in the order X, Y, Z (REGLIM, R36; log entry 12), the
values they supply (R95), effective addresses (R83), and how a result completes an instruction. -/

namespace Sys2Proof.Machine

/-- REGLIM for an optional Z operand. -/
def Ctx.checkZ (v : Ctx) (z : Option GReg) : Except Stop Unit :=
  match z with
  | some r => v.checkG 2 r
  | none => .ok ()
def Ctx.checkVZ (v : Ctx) (z : Option Idx) : Except Stop Unit :=
  match z with
  | some r => v.checkV 2 r
  | none => .ok ()

/-- A result is written to X and `lat`, its flags raised, and the PC advances (R17, R36, R66). -/
def State.complete (s : State) (x : GReg) (w : Word) (f : FlagSet) : State :=
  ((s.writeG s.cur x w).raise s.cur f).advance

/-- The two source values of a binary instruction (R95). -/
def gbinValues (s : State) (a : GBin) : Word × Word :=
  match a.z with
  | some z => (s.g a.y, s.g z)
  | none => (s.g a.x, s.g a.y)

def gbinCheck (s : State) (a : GBin) : Except Stop Unit := do
  s.me.checkG 0 a.x
  s.me.checkG 1 a.y
  s.me.checkZ a.z

/-- A binary instruction whose result is `f a b` with the flags it raises. -/
def runGBin (f : Word → Word → Flagged Word) (a : GBin) (s : State) : Answer :=
  finish s (do
    gbinCheck s a
    let (p, q) := gbinValues s a
    let r := f p q
    pure (s.complete a.x r.val r.flags))

/-- A unary instruction whose result is `f a` with the flags it raises. -/
def runGUn (f : Word → Flagged Word) (a : GUn) (s : State) : Answer :=
  finish s (do
    s.me.checkG 0 a.x
    s.me.checkG 1 a.y
    let r := f (s.g a.y)
    pure (s.complete a.x r.val r.flags))

/-- A binary or unary instruction that raises no flag. -/
def pure2 (f : Word → Word → Word) (a b : Word) : Flagged Word := ⟨f a b, 0⟩
def pure1 (f : Word → Word) (a : Word) : Flagged Word := ⟨f a, 0⟩

/-- An instruction with X read and written and Y and Z read: `f x y z`. -/
def runGTri (f : Word → Word → Word → Flagged Word) (a : GTri) (s : State) : Answer :=
  finish s (do
    s.me.checkG 0 a.x
    s.me.checkG 1 a.y
    s.me.checkG 2 a.z
    let r := f (s.g a.x) (s.g a.y) (s.g a.z)
    pure (s.complete a.x r.val r.flags))

/-- The effective address of `[Y+imm]` or `[Y+Z·s+imm]` (R83). -/
def effAddr (s : State) (y : GReg) (z : Option GReg) (imm : Word) (scale : Nat) : Nat :=
  match z with
  | some r => (s.g y + s.g r * w64 scale + imm).toNat
  | none => (s.g y + imm).toNat

/-- The branch target A + 2·off, in the width of the PC (R82, R107). -/
def branchTarget (v : Ctx) (off : Word) : BitVec 57 := v.pc + BitVec.truncate 57 (off * 2)

/-- A target taken from a register (R110): PAGE before ALIGN where both apply (log entry 126). -/
def checkTarget (v : Ctx) (t : Word) : Except Stop (BitVec 57) :=
  if 2 ^ 57 ≤ t.toNat then
    .error (.trap ((⟨2, false, false, !v.pl⟩ : Acc).page t.toNat 0 0 true))
  else if t.toNat % 2 = 1 then .error (alignTrap 2 t.toNat)
  else .ok (BitVec.truncate 57 t)

end Sys2Proof.Machine
end

