-- ==== Sys2Proof/Machine/FloatUnit.lean ====
section
/-! DEFINITION. Scalar floating point of page 1 (R118 to R123). -/

namespace Sys2Proof.Machine

/-- The rounding mode in force for the running context (R47). -/
def State.mode (s : State) : RMode := RMode.ofBits s.me.rmode

def f32 (w : Word) : FVal := fp32.decode (w.toNat % 2 ^ 32)
/-- A value that fp32 holds, in bits [31:0] (R118). -/
def word32 (x : FVal) : Word := w64 (fp32.encode x)
/-- An exact result rounded to fp32 once (R119). -/
def round32 (mode : RMode) (x : Flagged FVal) : Flagged Word :=
  let r := fp32.finish mode x
  ⟨word32 r.val, r.flags⟩

def fadd32 (mode : RMode) (a b : Word) : Flagged Word := round32 mode (FVal.add mode (f32 a) (f32 b))
def fsub32 (mode : RMode) (a b : Word) : Flagged Word := round32 mode (FVal.add mode (f32 a) (f32 b).neg)
def fmul32 (mode : RMode) (a b : Word) : Flagged Word := round32 mode (FVal.mul (f32 a) (f32 b))
def fdiv32 (mode : RMode) (a b : Word) : Flagged Word := round32 mode (FVal.div (f32 a) (f32 b))
def fsqrt32 (mode : RMode) (a : Word) : Flagged Word := round32 mode (FVal.sqrt (f32 a))
/-- a·b + c, one rounding (R121). -/
def fma32 (mode : RMode) (a b c : FVal) : Flagged Word := round32 mode (FVal.fma mode a b c)

def execFadd (a : GBin) (s : State) : Answer := runGBin (fadd32 s.mode) a s
def execFsub (a : GBin) (s : State) : Answer := runGBin (fsub32 s.mode) a s
def execFmul (a : GBin) (s : State) : Answer := runGBin (fmul32 s.mode) a s
def execFdiv (a : GBin) (s : State) : Answer := runGBin (fdiv32 s.mode) a s
def execFsqrt (a : GUn) (s : State) : Answer := runGUn (fsqrt32 s.mode) a s
def execFmin (a : GBin) (s : State) : Answer := runGBin (pure2 (fun p q => word32 (FVal.min (f32 p) (f32 q)))) a s
def execFmax (a : GBin) (s : State) : Answer := runGBin (pure2 (fun p q => word32 (FVal.max (f32 p) (f32 q)))) a s
def execFabs (a : GUn) (s : State) : Answer := runGUn (pure1 (fun p => word32 (f32 p).abs)) a s
def execFneg (a : GUn) (s : State) : Answer := runGUn (pure1 (fun p => word32 (f32 p).neg)) a s
def execFma (a : GTri) (s : State) : Answer := runGTri (fun x y z => fma32 s.mode (f32 y) (f32 z) (f32 x)) a s
def execFms (a : GTri) (s : State) : Answer := runGTri (fun x y z => fma32 s.mode (f32 y) (f32 z) (f32 x).neg) a s
def execFnma (a : GTri) (s : State) : Answer := runGTri (fun x y z => fma32 s.mode (f32 y).neg (f32 z) (f32 x)) a s

/-- A floating-point compare writes 1 or 0 and sets no flag (R122). -/
def fcompare (p : FVal → FVal → Bool) : Word → Word → Flagged Word := pure2 (fun a b => bit64 (p (f32 a) (f32 b)))
def execFeq (a : GBin) (s : State) : Answer := runGBin (fcompare FVal.eq) a s
def execFlt (a : GBin) (s : State) : Answer := runGBin (fcompare FVal.lt) a s
def execFle (a : GBin) (s : State) : Answer := runGBin (fcompare FVal.le) a s
def execFuno (a : GBin) (s : State) : Answer := runGBin (fcompare (fun p q => p.isNan || q.isNan)) a s

/-! Conversions (Table 04-8). -/

/-- An integer rounded to a float (R51): a zero is +0. -/
def ofInt32 (mode : RMode) (x : Int) : Flagged Word := round32 mode ⟨FVal.ofInt x, 0⟩
def toFloat (f : FloatFmt) (mode : RMode) (a : Word) : Flagged Word :=
  let r := f.roundVal mode (f32 a)
  ⟨w64 (f.encode r.val), r.flags⟩
def fromFloat (f : FloatFmt) (a : Word) : Word := word32 (f.decode (a.toNat % 2 ^ 16))
def toI64 (mode : RMode) (a : Word) : Flagged Word :=
  let r := convertToInt true 64 mode (f32 a)
  ⟨BitVec.ofInt 64 r.val, r.flags⟩

def execCvtif (a : GUn) (s : State) : Answer := runGUn (fun p => ofInt32 s.mode p.toInt) a s
def execCvtfi (a : GUn) (s : State) : Answer := runGUn (toI64 s.mode) a s
def execCvtfb (a : GUn) (s : State) : Answer := runGUn (toFloat bf16 s.mode) a s
def execCvtbf (a : GUn) (s : State) : Answer := runGUn (pure1 (fromFloat bf16)) a s
def execCvtfh (a : GUn) (s : State) : Answer := runGUn (toFloat fp16 s.mode) a s
def execCvthf (a : GUn) (s : State) : Answer := runGUn (pure1 (fromFloat fp16)) a s

end Sys2Proof.Machine
end

