-- ==== Sys2Proof/Machine/LoadStore.lean ====
section
/-! DEFINITION. Scalar loads and stores (R112 to R117), the reply to a load (R212), performing a store (R309), the page walk (R296,
R301). -/

namespace Sys2Proof.Machine

/-! Shared by every load. -/

/-- ECC for a load of poisoned bytes (R364). -/
def checkPoison (s : State) (a : Acc) (va : Nat) (p : Place) (n : Nat) : Except Stop Unit :=
  if isPoisoned s s.cur p n then .error (.trap (a.ecc va false)) else .ok ()

/-- A request of a load or atomic to another package, after the context's own issued stores: the context waits in WMEM for the answer
(Table 21-7, R212). -/
def requestRemote (s : State) (va : Nat) (p : Place) (payload : List Byte) (d : Dest) (acq : Option Scope) : Except Stop State := do
  let c := s.cur
  let s1 ← settledLoad s c
  let key := streamKey (ctxHall c) (targetHall p.pa) 0
  let st := s1.stream key
  let seq := (st.next + st.waiting.length) % 2 ^ 32
  let s2 := block s1 c .wmem (.remote d va key seq acq)
  pure (sendMessage s2 (ctxHall c) (targetHall p.pa) 0 (s2.ctx c).ttag.toNat (.access p.key c []) payload)

/-- A load completes at once, or its context waits in WMEM for the reply (R212). -/
def reply (s : State) (d : Dest) (bs : List Byte) (now : Bool) (flags : FlagSet) : State :=
  let c := s.cur
  if now then ((writeDest s c d bs).raise c flags).advance
  else (block s c .wmem (.reply d bs flags)).cause (.loadReply c)

/-- The scope at which an access with ORD order acquire or acquire-release acquires (R312). -/
def acquireScope (q : Option OrdQ) : Option Scope :=
  match q with
  | some o => if o.order = .acq ∨ o.order = .ar then some o.scope else none
  | none => none
def acquireAt (s : State) (c : Nat) (a : Option Scope) : State :=
  match a with
  | some sc => acquireCaches s c sc
  | none => s
def acquireOf (s : State) (q : Option OrdQ) : State := acquireAt s s.cur (acquireScope q)
/-- The scope at which an access releases, if it does. -/
def releaseOf (q : Option OrdQ) : Option Scope :=
  match q with
  | some o => if o.order = .rel ∨ o.order = .ar then some o.scope else none
  | none => none
def policyOf (q : Option OrdQ) : Policy := (q.map (·.policy)).getD .page

/-- A load of `n` bytes at one place, with the acquire its ORD asks for. -/
def startLoad (s : State) (va : Nat) (p : Place) (n : Nat) (d : Dest) (ord : Option OrdQ) : Except Stop State := do
  let c := s.cur
  if isRemote c p then requestRemote s va p (requestHeader .load p.pa n 0 0 0) d (acquireScope ord)
  else
    let (s1, bs, now) ← readPlace (acquireOf s ord) c p n (policyOf ord)
    pure (reply s1 d bs now 0)

/-- A scalar load of `n` bytes into the destination `d` (R112, R113, R115). -/
def runLoad (n : Nat) (pair : Bool) (d : GReg → Dest) (a : GMem) (s : State) : Answer :=
  finish s (do
    s.me.checkG 0 a.x (if pair then 2 else 1)
    s.me.checkG 1 a.y
    s.me.checkZ a.z
    let va := effAddr s a.y a.z a.imm n
    if va % n ≠ 0 then throw (alignTrap 0 va)
    let acc : Acc := ⟨0, false, pair, !s.me.pl⟩
    let (s1, l) ← translate s va acc
    checkPoison s1 acc va l.place n
    startLoad s1 va l.place n (d a.x) a.ord)

def execLdb (a : GMem) (s : State) : Answer := runLoad 1 false (fun x => .scalar x 1 false) a s
def execLdh (a : GMem) (s : State) : Answer := runLoad 2 false (fun x => .scalar x 2 false) a s
def execLdw (a : GMem) (s : State) : Answer := runLoad 4 false (fun x => .scalar x 4 false) a s
def execLdd (a : GMem) (s : State) : Answer := runLoad 8 false (fun x => .scalar x 8 false) a s
def execLdbs (a : GMem) (s : State) : Answer := runLoad 1 false (fun x => .scalar x 1 true) a s
def execLdhs (a : GMem) (s : State) : Answer := runLoad 2 false (fun x => .scalar x 2 true) a s
def execLdws (a : GMem) (s : State) : Answer := runLoad 4 false (fun x => .scalar x 4 true) a s
def execLdq (a : GMem) (s : State) : Answer := runLoad 16 true .pair a s

/-! Stores. -/

/-- A release store to another package holds its context until its bytes are performed there (R312): it stays in RUN and issues
nothing. -/
def postAndHold (s : State) (q : QStore) : State :=
  let c := s.cur
  performAt (s.upd (fun v => { v with wait := .posted (q.scope == .sy), tbm := v.tbm ||| tbmBit c q.place })) c q

/-- A checked store issues (R309), with the release its ORD asks for (R312). -/
def issueStore (s : State) (va : Nat) (p : Place) (bs : List Byte) (q : Option OrdQ) : Except Stop State :=
  let c := s.cur
  let policy := policyOf q
  let entry (rel : Bool) : QStore := ⟨va, p, bs, rel, (q.map (·.scope)).getD .th, policy, none⟩
  match releaseOf q with
  | none => (roomFor s c 1 (isNearStorage p)).map (fun t => (pushStore t c (entry false)).advance)
  | some sc =>
    if Scope.le .ha sc then
      withRelease s sc (engineOf q) (fun s1 =>
        if isRemote c p then .ok (postAndHold s1 (entry true))
        else .ok ((performThrough s1 c (entry true)).upd (fun v => { v with tbm := v.tbm ||| tbmBit c p })).advance)
    else (roomFor s c 1 (isNearStorage p)).map (fun t => (pushStore (narrowRelease t c sc) c (entry true)).advance)

/-- A scalar store of `n` bytes (R112, R114, R115). -/
def runStore (n : Nat) (pair : Bool) (a : GMem) (s : State) : Answer :=
  finish s (do
    s.me.checkG 0 a.x (if pair then 2 else 1)
    s.me.checkG 1 a.y
    s.me.checkZ a.z
    let va := effAddr s a.y a.z a.imm n
    if va % n ≠ 0 then throw (alignTrap 1 va)
    let (s1, l) ← translate s va ⟨1, true, pair, !s.me.pl⟩
    let bs := if pair then leBytes 8 (s.g a.x).toNat ++ leBytes 8 (s.g (GReg.succ 1 a.x)).toNat else leBytes n (s.g a.x).toNat
    issueStore s1 va l.place bs a.ord)

def execStb (a : GMem) (s : State) : Answer := runStore 1 false a s
def execSth (a : GMem) (s : State) : Answer := runStore 2 false a s
def execStw (a : GMem) (s : State) : Answer := runStore 4 false a s
def execStd (a : GMem) (s : State) : Answer := runStore 8 false a s
def execStq (a : GMem) (s : State) : Answer := runStore 16 true a s

/-! Events. -/

/-- The reply to a load is written, and the context goes on (R113, R212). A dying task's reply is dropped (R366).
A zero-length read that the device makes for a release ends too (R441). -/
def execLoadReply (ctx : Nat) (s : State) : Answer :=
  let v := s.ctx ctx
  if v.hostRead then .next (s.updCtx ctx (fun w => { w with hostAddr := none, hostRead := false }))
  else match v.wait with
  | .reply d bs f =>
    if v.dying.isSome || v.st == .idle then .next s
    else .next (wake (((writeDest s ctx d bs).raise ctx f).updCtx ctx Ctx.advance) ctx)
  | .hostRead =>
    if v.dying.isSome then .next s else .next (wake (s.updCtx ctx (fun w => { w with hostAddr := none })) ctx)
  | _ => .next s

/-- The oldest issued store of a context is performed (R309). -/
def execStorePerform (ctx : Nat) (s : State) : Answer :=
  .next (if (storeHeldBy s ctx).isSome then s.cause (.storePerform ctx) else performOldest s ctx)

/-- A hall's walker serves the oldest miss (R296, R301): the translation enters the TLB and the instruction issues again, or the
access faults. Misses of the stall to the same page share the walk. -/
def execPageWalk (hall : Nat) (s : State) : Answer :=
  match (s.hall hall).walks with
  | [] => .next s
  | r :: rest =>
    let s1 := s.updHall hall (fun h => { h with walks := rest })
    let v := s1.ctx r.ctx
    if v.wait != .walk || v.dying.isSome || v.missed != some (r.va, r.kind, r.user) then .next s1
    else
      match walkLeaf s1 r.ctx v.ptbr v.keyt r.va ⟨r.kind, false, false, r.user⟩ with
      | .error t =>
        let t' := if r.kind = 2 then fetchTrap t r.va else t
        .next ((wake s1 r.ctx).trap r.ctx t')
      | .ok (s2, t) =>
        let s3 := s2.updStall (ctxStall r.ctx) (fun k => fillTlb k t)
        let mine (q : WalkRequest) : Bool :=
          ctxStall q.ctx == ctxStall r.ctx && t.covers (ptbrAsid (s3.ctx q.ctx).ptbr) q.va && (s3.ctx q.ctx).ptbr == v.ptbr &&
            (s3.ctx q.ctx).wait == .walk
        let served := r :: rest.filter mine
        let s4 := s3.updHall hall (fun h => { h with walks := h.walks.filter (fun q => !mine q) })
        .next (served.foldl (fun u q =>
          wake (u.updCtx q.ctx (fun w => { w with walked := w.walked ++ [t], missed := none })) q.ctx) s4)

end Sys2Proof.Machine
end

