-- ==== Sys2Proof/Machine/IntUnit.lean ====
section
/-! DEFINITION. Integer instructions of pages 0 and 1 (R99 to R106): arithmetic, logic, shifts, fields, immediates, compares,
selects and address arithmetic. -/

namespace Sys2Proof.Machine

/-! Table 04-2. -/

def shiftAmount (b : Word) : Nat := b.toNat % 64
def opShl (a b : Word) : Word := a <<< shiftAmount b
def opShr (a b : Word) : Word := a >>> shiftAmount b
def opSra (a b : Word) : Word := a.sshiftRight (shiftAmount b)
def opRor (a b : Word) : Word := a.rotateRight (shiftAmount b)
def opRol (a b : Word) : Word := a.rotateLeft (shiftAmount b)
def opMulh (a b : Word) : Word := BitVec.ofInt 64 (a.toInt * b.toInt / 2 ^ 64)
def opMulhn (a b : Word) : Word := w64 (a.toNat * b.toNat / 2 ^ 64)
def opMin (a b : Word) : Word := if a.toInt ≤ b.toInt then a else b
def opMax (a b : Word) : Word := if a.toInt ≤ b.toInt then b else a
def opMinn (a b : Word) : Word := if a.toNat ≤ b.toNat then a else b
def opMaxn (a b : Word) : Word := if a.toNat ≤ b.toNat then b else a

def execAdd (a : GBin) (s : State) : Answer := runGBin (pure2 (· + ·)) a s
def execSub (a : GBin) (s : State) : Answer := runGBin (pure2 (· - ·)) a s
def execAnd (a : GBin) (s : State) : Answer := runGBin (pure2 (· &&& ·)) a s
def execOr (a : GBin) (s : State) : Answer := runGBin (pure2 (· ||| ·)) a s
def execXor (a : GBin) (s : State) : Answer := runGBin (pure2 (· ^^^ ·)) a s
def execShl (a : GBin) (s : State) : Answer := runGBin (pure2 opShl) a s
def execShr (a : GBin) (s : State) : Answer := runGBin (pure2 opShr) a s
def execSra (a : GBin) (s : State) : Answer := runGBin (pure2 opSra) a s
def execMul (a : GBin) (s : State) : Answer := runGBin (pure2 (· * ·)) a s
def execMulh (a : GBin) (s : State) : Answer := runGBin (pure2 opMulh) a s
def execMulhn (a : GBin) (s : State) : Answer := runGBin (pure2 opMulhn) a s
def execMin (a : GBin) (s : State) : Answer := runGBin (pure2 opMin) a s
def execMax (a : GBin) (s : State) : Answer := runGBin (pure2 opMax) a s
def execMinn (a : GBin) (s : State) : Answer := runGBin (pure2 opMinn) a s
def execMaxn (a : GBin) (s : State) : Answer := runGBin (pure2 opMaxn) a s
def execNot (a : GUn) (s : State) : Answer := runGUn (pure1 (~~~·)) a s
def execMov (a : GUn) (s : State) : Answer := runGUn (pure1 id) a s

/-- The low `n` bits, sign-extended or zero-extended. -/
def sext (n : Nat) (a : Word) : Word := BitVec.ofInt 64 (signedOf n a.toNat)
def zext (n : Nat) (a : Word) : Word := w64 (a.toNat % 2 ^ n)
def countZeros : Nat → (Nat → Bool) → Nat
  | 0, _ => 0
  | n + 1, f => if f n then 0 else 1 + countZeros n f
/-- Leading zero bits (0 to 64). -/
def opClz (a : Word) : Word := w64 (countZeros 64 (fun i => a.getLsbD i))
/-- Trailing zero bits (0 to 64). -/
def opCtz (a : Word) : Word := w64 (countZeros 64 (fun i => a.getLsbD (63 - i)))
def opPopc (a : Word) : Word := w64 ((List.range 64).countP (fun i => a.getLsbD i))
def opRev (a : Word) : Word := w64 (leNat (leBytes 8 a.toNat).reverse)

def execSxw (a : GUn) (s : State) : Answer := runGUn (pure1 (sext 32)) a s
def execZxw (a : GUn) (s : State) : Answer := runGUn (pure1 (zext 32)) a s
def execSxb (a : GUn) (s : State) : Answer := runGUn (pure1 (sext 8)) a s
def execSxh (a : GUn) (s : State) : Answer := runGUn (pure1 (sext 16)) a s
def execClz (a : GUn) (s : State) : Answer := runGUn (pure1 opClz) a s
def execPopc (a : GUn) (s : State) : Answer := runGUn (pure1 opPopc) a s
def execRev (a : GUn) (s : State) : Answer := runGUn (pure1 opRev) a s

/-! Immediates (R102, R103). -/

def execMovi (a : GImm) (s : State) : Answer :=
  finish s (do
    s.me.checkG 0 a.x
    pure (s.complete a.x a.imm 0))
def execAddi (a : GImm) (s : State) : Answer :=
  finish s (do
    s.me.checkG 0 a.x
    pure (s.complete a.x (s.g a.x + a.imm) 0))

/-- X shifted by an immediate amount (R103). -/
def runShift (f : Word → Word → Word) (a : GShift) (s : State) : Answer :=
  finish s (do
    s.me.checkG 0 a.x
    pure (s.complete a.x (f (s.g a.x) (w64 a.amount.val)) 0))
def execShli (a : GShift) (s : State) : Answer := runShift opShl a s
def execShri (a : GShift) (s : State) : Answer := runShift opShr a s
def execSrai (a : GShift) (s : State) : Answer := runShift opSra a s
def execRori (a : GShift) (s : State) : Answer := runShift opRor a s

/-! Compares and selects (Table 04-5, R105). -/

def compare2 (p : Word → Word → Bool) : Word → Word → Flagged Word := pure2 (fun a b => bit64 (p a b))
def execCeq (a : GBin) (s : State) : Answer := runGBin (compare2 (fun p q => decide (p = q))) a s
def execCne (a : GBin) (s : State) : Answer := runGBin (compare2 (fun p q => decide (p ≠ q))) a s
def execClt (a : GBin) (s : State) : Answer := runGBin (compare2 (fun p q => decide (p.toInt < q.toInt))) a s
def execCge (a : GBin) (s : State) : Answer := runGBin (compare2 (fun p q => decide (q.toInt ≤ p.toInt))) a s
def execCltn (a : GBin) (s : State) : Answer := runGBin (compare2 (fun p q => decide (p.toNat < q.toNat))) a s
def execCgen (a : GBin) (s : State) : Answer := runGBin (compare2 (fun p q => decide (q.toNat ≤ p.toNat))) a s
def execTst (a : GBin) (s : State) : Answer := runGBin (compare2 (fun p q => decide (p &&& q ≠ 0))) a s
def execSelnz (a : GTri) (s : State) : Answer := runGTri (fun x y z => ⟨if x ≠ 0 then y else z, 0⟩) a s
def execSelz (a : GTri) (s : State) : Answer := runGTri (fun x y z => ⟨if x = 0 then y else z, 0⟩) a s

/-! Address arithmetic (R106). -/

def runLea (scale : Nat) (a : GLea) (s : State) : Answer :=
  finish s (do
    gbinCheck s ⟨a.x, a.y, a.z⟩
    let (p, q) := gbinValues s ⟨a.x, a.y, a.z⟩
    pure (s.complete a.x (p + q * w64 scale + a.imm) 0))
def execLea1 (a : GLea) (s : State) : Answer := runLea 1 a s
def execLea2 (a : GLea) (s : State) : Answer := runLea 2 a s
def execLea4 (a : GLea) (s : State) : Answer := runLea 4 a s
def execLea8 (a : GLea) (s : State) : Answer := runLea 8 a s
def execLea16 (a : GLea) (s : State) : Answer := runLea 16 a s

/-! Division (R41, R100), for any width. -/

/-- Quotient and flags of R41 for two's complement or unsigned values of width `w`, as the bits of the result. -/
def divide (signed : Bool) (w a b : Nat) : Flagged Nat :=
  if b % 2 ^ w = 0 then ⟨2 ^ w - 1, flagDZ⟩
  else if signed then
    ⟨wrapTo w (Int.tdiv (signedOf w a) (signedOf w b)),
     flagIf (decide (signedOf w a = -((2 : Int) ^ (w - 1))) && decide (signedOf w b = -1)) flagOF⟩
  else ⟨a % 2 ^ w / (b % 2 ^ w), 0⟩
/-- Remainder and flags of R41. -/
def remainder (signed : Bool) (w a b : Nat) : Flagged Nat :=
  if b % 2 ^ w = 0 then ⟨a % 2 ^ w, flagDZ⟩
  else if signed then
    ⟨wrapTo w (Int.tmod (signedOf w a) (signedOf w b)),
     flagIf (decide (signedOf w a = -((2 : Int) ^ (w - 1))) && decide (signedOf w b = -1)) flagOF⟩
  else ⟨a % 2 ^ w % (b % 2 ^ w), 0⟩

def word64 (f : Nat → Nat → Flagged Nat) (a b : Word) : Flagged Word :=
  let r := f a.toNat b.toNat
  ⟨w64 r.val, r.flags⟩
def execDiv (a : GBin) (s : State) : Answer := runGBin (word64 (divide true 64)) a s
def execDivn (a : GBin) (s : State) : Answer := runGBin (word64 (divide false 64)) a s
def execRem (a : GBin) (s : State) : Answer := runGBin (word64 (remainder true 64)) a s
def execRemn (a : GBin) (s : State) : Answer := runGBin (word64 (remainder false 64)) a s

/-! Bit fields (R101). -/

def fieldPos (c : Word) : Nat := bitsOf c.toNat 5 0
/-- The width of the field, cut at bit 63. -/
def fieldWid (c : Word) : Nat := min (bitsOf c.toNat 13 8 + 1) (64 - fieldPos c)
def opBfx (a c : Word) : Word := BitVec.ofInt 64 (signedOf (fieldWid c) (a.toNat / 2 ^ fieldPos c))
def opBfxn (a c : Word) : Word := w64 (a.toNat / 2 ^ fieldPos c % 2 ^ fieldWid c)
def opBfi (x v c : Word) : Word :=
  let m := w64 ((2 ^ fieldWid c - 1) * 2 ^ fieldPos c)
  (x &&& ~~~m) ||| ((v <<< fieldPos c) &&& m)

def execBfx (a : GBin) (s : State) : Answer := runGBin (pure2 opBfx) a s
def execBfxn (a : GBin) (s : State) : Answer := runGBin (pure2 opBfxn) a s
/-- BFI reads X as the base; without THR it inserts `lat` under control Y (R101). -/
def execBfi (a : GBin) (s : State) : Answer :=
  finish s (do
    gbinCheck s a
    let (v, c) := match a.z with
      | some z => (s.g a.y, s.g z)
      | none => (s.g .lat, s.g a.y)
    pure (s.complete a.x (opBfi (s.g a.x) v c) 0))
def execRol (a : GBin) (s : State) : Answer := runGBin (pure2 opRol) a s
def execRor (a : GBin) (s : State) : Answer := runGBin (pure2 opRor) a s
def execCtz (a : GUn) (s : State) : Answer := runGUn (pure1 opCtz) a s

end Sys2Proof.Machine
end

