-- ==== Sys2Proof/Machine/Real.lean ====
section
/-! DEFINITION. Correctly rounded real functions (R65, R149, R181): enclosures of the exact value by integers at rising precision,
rounded once both ends round alike. -/

namespace Sys2Proof.Machine

/-- The exact value lies between lo · 2^e and hi · 2^e. -/
structure Encl where
  lo : Int
  hi : Int
  e : Int
  deriving DecidableEq, Repr

def roundIntAt (f : FloatFmt) (mode : RMode) (k e : Int) : Flagged FVal := f.round mode (decide (k < 0)) k.natAbs e

/-- Both ends round to one result. -/
def Encl.settled (f : FloatFmt) (mode : RMode) (x : Encl) : Bool :=
  let a := roundIntAt f mode x.lo x.e
  let b := roundIntAt f mode x.hi x.e
  decide (0 < x.lo ∨ x.hi < 0) && f.encode a.val == f.encode b.val && a.flags == b.flags

/-- The rounding of a real number that lies on no grid point and midway between none: the first precision that settles it. -/
def roundReal (f : FloatFmt) (mode : RMode) (eval : Nat → Encl) : List Nat → Flagged FVal
  | [] => roundIntAt f mode (eval 1024).lo (eval 1024).e
  | p :: ps =>
    let x := eval p
    if x.settled f mode then roundIntAt f mode x.lo x.e else roundReal f mode eval ps

def precisions : List Nat := [64, 128, 256, 512]

/-! Fixed point: integers in units of 2^−w. -/

/-- floor(±m · 2^e · 2^w). -/
def fixOf (neg : Bool) (m : Nat) (e : Int) (w : Nat) : Int :=
  let k : Int := if neg then -(m : Int) else m
  if 0 ≤ e + w then k * 2 ^ (e + w).toNat else k / 2 ^ (-(e + w)).toNat

def fixMul (w : Nat) (a b : Int) : Int := a * b / 2 ^ w

/-- ln 2 = Σ 1 / (k · 2^k). -/
def ln2Fix (w : Nat) : Int := ((List.range (w + 16)).foldl (fun a i => a + 2 ^ (w + 16) / ((i + 1) * 2 ^ (i + 1))) 0 : Nat) / 2 ^ 16

/-- The terms of arctan(1/n), from power `q` = 2^w / n^(2k+1). -/
def atanTerms (n : Nat) : Nat → Nat → Nat → Bool → Int → Int
  | 0, _, _, _, a => a
  | f + 1, k, q, plus, a =>
    atanTerms n f (k + 1) (q / (n * n)) (!plus) (if plus then a + (q / (2 * k + 1) : Nat) else a - (q / (2 * k + 1) : Nat))
/-- π = 16 arctan(1/5) − 4 arctan(1/239). -/
def piFix (w : Nat) : Int :=
  let v := w + 16
  (16 * atanTerms 5 v 0 (2 ^ v / 5) true 0 - 4 * atanTerms 239 v 0 (2 ^ v / 239) true 0) / 2 ^ 16

/-- Σ rⁿ / n! from term `t` of number `n` on. -/
def expTerms (w : Nat) (r : Int) : Nat → Nat → Int → Int → Int
  | 0, _, _, a => a
  | f + 1, n, t, a => if t = 0 then a else expTerms w r f (n + 1) (fixMul w t r / n) (a + t)

/-- eˣ for |x| < 2⁸. -/
def exp0 (neg : Bool) (m : Nat) (e : Int) (p : Nat) : Encl :=
  let w := p + 48
  let x := fixOf neg m e w
  let l := ln2Fix w
  let k := x / l
  let s := expTerms w (x - k * l) w 1 (2 ^ w) 0
  ⟨s - 2 ^ 24, s + 2 ^ 24, k - w⟩

/-- A bound on a finite magnitude: m · 2^e ≥ b. -/
def magGe (m : Nat) (e : Int) (b : Nat) : Bool := !magLt m e b 0

/-- eˣ rounded, beyond its range a value that rounds as eˣ does. -/
def expReal (f : FloatFmt) (mode : RMode) (neg : Bool) (m : Nat) (e : Int) : Flagged FVal :=
  if m = 0 then f.round mode false 1 0
  else if magGe m e 150 then (if neg then f.round mode false 1 (-1000) else f.round mode false 1 1000)
  else if topExp m e < -60 then (if neg then f.round mode false (2 ^ 60 - 1) (-60) else f.round mode false (2 ^ 60 + 1) (-60))
  else roundReal f mode (exp0 neg m e) precisions

/-- Σ xⁿ / (n + 1)!. -/
def expm1Terms (w : Nat) (x : Int) : Nat → Nat → Int → Int → Int
  | 0, _, _, a => a
  | f + 1, n, t, a => if t = 0 then a else expm1Terms w x f (n + 1) (fixMul w t x / (n + 1)) (a + t)

/-- eˣ − 1 for |x| < 2⁸, x ≠ 0: x · Σ for |x| < 1, else from eˣ. -/
def expm10 (neg : Bool) (m : Nat) (e : Int) (p : Nat) : Encl :=
  if topExp m e < 0 then
    let w := p + 48
    let s := expm1Terms w (fixOf neg m e w) w 1 (2 ^ w) 0
    let lo := (s - 2 ^ 16) * m
    let hi := (s + 2 ^ 16) * m
    if neg then ⟨-hi, -lo, e - w⟩ else ⟨lo, hi, e - w⟩
  else
    let x := exp0 neg m e (p + 8)
    if x.e < 0 then ⟨x.lo - 2 ^ (-x.e).toNat, x.hi - 2 ^ (-x.e).toNat, x.e⟩
    else ⟨x.lo * 2 ^ x.e.toNat - 1, x.hi * 2 ^ x.e.toNat - 1, 0⟩

def expm1Real (f : FloatFmt) (mode : RMode) (neg : Bool) (m : Nat) (e : Int) : Flagged FVal :=
  if m = 0 then ⟨.fin neg 0 0, 0⟩
  else if magGe m e 150 then (if neg then f.round mode true (2 ^ 60 - 1) (-60) else f.round mode false 1 1000)
  else if topExp m e < -60 then
    -- x · (1 + x/2 + …): just beyond x for x > 0, just short of it for x < 0
    (if neg then f.round mode true (m * 2 ^ 60 - 1) (e - 60) else f.round mode false (m * 2 ^ 60 + 1) (e - 60))
  else roundReal f mode (expm10 neg m e) precisions

/-- Σ y^(2k+1) / (2k+1). -/
def atanhTerms (w : Nat) (y2 : Int) : Nat → Nat → Int → Int → Int
  | 0, _, _, a => a
  | f + 1, k, t, a => if t = 0 then a else atanhTerms w y2 f (k + 1) (fixMul w t y2) (a + t / (2 * k + 1))

/-- ln(m · 2^e) = (t + e) ln 2 + 2 artanh((z − 1) / (z + 1)) with z = m / 2^t in [1, 2). -/
def ln0 (m : Nat) (e : Int) (p : Nat) : Encl :=
  let w := p + 64
  let t := Nat.log2 m
  let y : Int := ((m - 2 ^ t) * 2 ^ w / (m + 2 ^ t) : Nat)
  let v := ((t : Int) + e) * ln2Fix w + 2 * atanhTerms w (fixMul w y y) w 0 y 0
  ⟨v - 2 ^ 24, v + 2 ^ 24, -(w : Int)⟩

/-- ln of a positive value. -/
def lnReal (f : FloatFmt) (mode : RMode) (m : Nat) (e : Int) : Flagged FVal :=
  if magLt m e 1 0 = false ∧ magLt 1 0 m e = false then ⟨.fin false 0 0, 0⟩
  else roundReal f mode (ln0 m e) precisions

/-- Σ (−1)ⁿ θ^(2n) / (2n)!. -/
def cosTerms (w : Nat) (t2 : Int) : Nat → Nat → Int → Int → Int
  | 0, _, _, a => a
  | f + 1, n, t, a => if t = 0 then a else cosTerms w t2 f (n + 1) (-(fixMul w t t2) / ((2 * n + 1) * (2 * n + 2))) (a + t)

/-- cos(2π q / 2²⁴) for 0 ≤ q ≤ 2²². -/
def cosQuarter (q p : Nat) : Encl :=
  let w := p + 48
  let th := 2 * piFix w * q / 2 ^ 24
  let v := cosTerms w (fixMul w th th) w 0 (2 ^ w) 0
  ⟨v - 2 ^ 16, v + 2 ^ 16, -(w : Int)⟩

/-- cos(2π u / 2²⁴) for u < 2²⁴, rounded; exact at the quarters. -/
def cos2PiReal (f : FloatFmt) (mode : RMode) (u : Nat) : Flagged FVal :=
  let d := if u ≤ 2 ^ 23 then u else 2 ^ 24 - u
  let neg := decide (2 ^ 22 < d)
  let q := if neg then 2 ^ 23 - d else d
  if q = 0 then ⟨.fin neg 1 0, 0⟩
  else if q = 2 ^ 22 then ⟨.fin false 0 0, 0⟩
  else roundReal f mode (fun p =>
    let x := cosQuarter q p
    if neg then ⟨-x.hi, -x.lo, x.e⟩ else x) precisions

/-! The normal distribution (R65) and erf (R149). -/

/-- √(2π) in units of 2^−w. -/
def sqrtTwoPiFix (w : Nat) : Int := (isqrt ((2 * piFix w).toNat * 2 ^ w) : Nat)

/-- φ(x) = exp(−x²/2) / √(2π) for x² < 2⁹. -/
def phi0 (m : Nat) (e : Int) (p : Nat) : Encl :=
  let w := p + 48
  let x := exp0 true (m * m) (2 * e - 1) p
  let s := sqrtTwoPiFix w
  ⟨x.lo * 2 ^ w / (s + 2 ^ 16), x.hi * 2 ^ w / (s - 2 ^ 16) + 1, x.e⟩

/-- phi of R65, beyond its range a value that rounds as φ does. -/
def phiReal (f : FloatFmt) (m : Nat) (e : Int) : Flagged FVal :=
  if magGe (m * m) (2 * e) 400 then f.round .rne false 1 (-1000)
  else if m ≠ 0 ∧ topExp m e < -60 then roundReal f .rne (phi0 0 0) precisions
  else roundReal f .rne (phi0 m e) precisions

/-- Σ x^(2n+1) / (1 · 3 · … · (2n+1)). -/
def phiTerms (w : Nat) (x2 : Int) : Nat → Nat → Int → Int → Int
  | 0, _, _, a => a
  | f + 1, n, t, a => if t = 0 then a else phiTerms w x2 f (n + 1) (fixMul w t x2 / (2 * n + 3)) (a + t)

/-- Φ(x) = ½ ± φ(x) · Σ for |x| < 20, with room for Φ as small as 2⁻³⁰⁰. -/
def cdf0 (neg : Bool) (m : Nat) (e : Int) (p : Nat) : Encl :=
  let w := p + 512
  let x := fixOf false m e w
  let s := phiTerms w (fixMul w x x) (4 * w) 0 x 0
  let d := exp0 true (m * m) (2 * e - 1) w
  let dfix := if 0 ≤ d.e + w then d.lo * 2 ^ (d.e + w).toNat else d.lo / 2 ^ (-(d.e + w)).toNat
  let y := fixMul w dfix s * 2 ^ w / sqrtTwoPiFix w
  let v := if neg then 2 ^ (w - 1) - y else 2 ^ (w - 1) + y
  ⟨v - 2 ^ 128, v + 2 ^ 128, -(w : Int)⟩

/-- Phi of R65. -/
def cdfReal (f : FloatFmt) (neg : Bool) (m : Nat) (e : Int) : Flagged FVal :=
  if m = 0 then f.round .rne false 1 (-1)
  else if magGe m e 20 then (if neg then f.round .rne false 1 (-1000) else f.round .rne false (2 ^ 60 - 1) (-60))
  else if topExp m e < -60 then f.round .rne false (if neg then 2 ^ 60 - 1 else 2 ^ 60 + 1) (-61)
  else roundReal f .rne (cdf0 neg m e) precisions

/-- Σ (−1)ⁿ x^(2n) / (n! (2n + 1)). -/
def erfTerms (w : Nat) (x2 : Int) : Nat → Nat → Int → Int → Int
  | 0, _, _, a => a
  | f + 1, n, t, a => if t = 0 then a else erfTerms w x2 f (n + 1) (-(fixMul w t x2) / (n + 1)) (a + t / (2 * n + 1))

/-- erf(x) = (2 / √π) · x · Σ for 0 < x < 6. -/
def erf0 (m : Nat) (e : Int) (p : Nat) : Encl :=
  let w := p + 128
  let x := fixOf false m e w
  let s := erfTerms w (fixMul w x x) (4 * w) 0 (2 ^ w) 0
  let r : Int := (isqrt ((piFix w).toNat * 2 ^ w) : Nat)
  let v := s * 2 ^ (w + 1) / r
  ⟨(v - 2 ^ 32) * m, (v + 2 ^ 32) * m, e - w⟩

def erfReal (f : FloatFmt) (mode : RMode) (neg : Bool) (m : Nat) (e : Int) : Flagged FVal :=
  if m = 0 then ⟨.fin neg 0 0, 0⟩
  else if magGe m e 6 then f.round mode neg (2 ^ 50 - 1) (-50)
  else roundReal f mode (fun p =>
    let x := erf0 m e p
    if neg then ⟨-x.hi, -x.lo, x.e⟩ else x) precisions

/-- 1 / √(m · 2^e). -/
def rsqrtFin (m : Nat) (e : Int) : FVal :=
  let odd := e % 2 != 0
  let m' := if odd then 2 * m else m
  let e' := if odd then e - 1 else e
  let s := 64 + Nat.log2 m' / 2
  let r := isqrt (2 ^ (2 * s) / m')
  stickyFin false r (-(e' / 2) - s) (r * r * m' != 2 ^ (2 * s))

/-! The functions on values, with their special cases. -/

def fexp (mode : RMode) : FVal → Flagged FVal
  | .nan => ⟨.nan, 0⟩
  | .inf n => ⟨if n then .fin false 0 0 else .inf false, 0⟩
  | .fin n m e => expReal fp32 mode n m e
def fexpm1 (mode : RMode) : FVal → Flagged FVal
  | .nan => ⟨.nan, 0⟩
  | .inf n => ⟨if n then .fin true 1 0 else .inf false, 0⟩
  | .fin n m e => expm1Real fp32 mode n m e
/-- Phi (R65). -/
def fcdf : FVal → Flagged FVal
  | .nan => ⟨.nan, 0⟩
  | .inf n => ⟨if n then .fin false 0 0 else .fin false 1 0, 0⟩
  | .fin n m e => cdfReal fp32 n m e
/-- phi (R65). -/
def fpdf : FVal → Flagged FVal
  | .nan => ⟨.nan, 0⟩
  | .inf _ => ⟨.fin false 0 0, 0⟩
  | .fin _ m e => phiReal fp32 m e
/-- VRCP (Table 05-9). -/
def frcp (mode : RMode) : FVal → Flagged FVal
  | .nan => ⟨.nan, 0⟩
  | .inf n => ⟨.fin n 0 0, 0⟩
  | .fin n m e => if m = 0 then ⟨.inf n, flagDZ⟩ else fp32.roundVal mode (quotFin n 1 0 m e)
/-- VRSQ (Table 05-9). -/
def frsq (mode : RMode) : FVal → Flagged FVal
  | .nan => ⟨.nan, 0⟩
  | .inf n => if n then ⟨.nan, flagIV⟩ else ⟨.fin false 0 0, 0⟩
  | .fin n m e =>
    if m = 0 then ⟨.inf n, flagDZ⟩ else if n then ⟨.nan, flagIV⟩ else fp32.roundVal mode (rsqrtFin m e)
/-- VERF (Table 05-9). -/
def ferf (mode : RMode) : FVal → Flagged FVal
  | .nan => ⟨.nan, 0⟩
  | .inf n => ⟨.fin n 1 0, 0⟩
  | .fin n m e => erfReal fp32 mode n m e

end Sys2Proof.Machine
end

