-- ==== Sys2Proof/Machine/Elements.lean ====
section
/-! DEFINITION. Vector elements (R132 to R134): their type, length and activity, element arithmetic (Table 05-3), and building a
result register. -/

namespace Sys2Proof.Machine

/-- Element `i` of width `w`. -/
def elem (w : Nat) (v : VWord) (i : Nat) : Nat := v.toNat / 2 ^ (w * i) % 2 ^ w
/-- A register from its elements of width `w`, element 0 first. -/
def packElems (w : Nat) (l : List Nat) : VWord := BitVec.ofNat 1024 (l.foldr (fun x a => x % 2 ^ w + 2 ^ w * a) 0)

/-- ILLCOMBO on page 2 (Table 18-2). -/
def vecCombo : Stop := .trap ⟨.illcombo, 0, 0⟩

/-! The types accepted by Table 05-1. -/

def acceptsAny (t : Fmt) : Bool := t != .fa56
def acceptsInt (t : Fmt) : Bool := t.int?.isSome
def acceptsArith (t : Fmt) : Bool := t.int?.isSome || t == .fp32 || t == .bf16 || t == .fp16
def acceptsFp32 (t : Fmt) : Bool := t == .fp32

def requireType (ok : Fmt → Bool) (t : Fmt) : Except Stop Unit := if ok t then .ok () else .error vecCombo

/-- The element type of an instruction (R132). -/
def elemType (s : State) (f : Option Fmt) : Fmt := f.getD s.me.vt
def elemCount (t : Fmt) : Nat := 1024 / t.width
/-- EL for `e` elements (R133). -/
def effLen (s : State) (e : Nat) : Nat := min s.me.vl.toNat e

/-- The predicate bit of an element of width `w` (R21, R78). -/
def predBit (v : Ctx) (q : Option Prd) (w i : Nat) : Bool :=
  match q with
  | none => true
  | some r => (v.pred r.p.val).getLsbD (i * w / 8) != r.inv

/-- Element `i` is active (R133). -/
def isActive (s : State) (q : Option Prd) (w el i : Nat) : Bool := decide (i < el) && predBit s.me q w i

/-- A result register: active elements by `f`, the others as they were, with the flags of the active ones (R134). -/
def buildElems (w n : Nat) (act : Nat → Bool) (old : VWord) (f : Nat → Flagged Nat) : Flagged VWord :=
  let rs := (List.range n).map (fun i => if act i then f i else ⟨elem w old i, 0⟩)
  ⟨packElems w (rs.map (·.val)), rs.foldl (fun a r => a ||| r.flags) 0⟩

/-- A vector result is written, its flags raised, and the PC advances. -/
def State.completeV (s : State) (x : Idx) (r : Flagged VWord) : State :=
  ((s.writeV s.cur x.val r.val).raise s.cur r.flags).advance

/-! Table 05-3. -/

/-- The operations of Table 05-3 on one element. -/
inductive VecOp
  | add | sub | mul | min | max | fma | fms | abs | neg | shl | shr | sra | div | and | or | xor
  deriving DecidableEq, Repr

/-- An integer element read in its type. -/
def intElem (signed : Bool) (w x : Nat) : Int := if signed then signedOf w x else (x % 2 ^ w : Nat)

/-- An integer result of Table 05-3. -/
def vecInt (op : VecOp) (signed : Bool) (w a b c : Nat) : Flagged Nat :=
  let ia := intElem signed w a
  let ib := intElem signed w b
  let ic := intElem signed w c
  match op with
  | .add => ⟨wrapTo w (ia + ib), 0⟩
  | .sub => ⟨wrapTo w (ia - ib), 0⟩
  | .mul => ⟨wrapTo w (ia * ib), 0⟩
  | .min => ⟨if ia ≤ ib then a else b, 0⟩
  | .max => ⟨if ia ≤ ib then b else a, 0⟩
  | .fma => ⟨wrapTo w (ia * ib + ic), 0⟩
  | .fms => ⟨wrapTo w (ia * ib - ic), 0⟩
  | .abs => ⟨wrapTo w ia.natAbs, 0⟩
  | .neg => ⟨wrapTo w (-ia), 0⟩
  | .shl => ⟨wrapTo w (a * 2 ^ (b % w) : Nat), 0⟩
  | .shr => ⟨a / 2 ^ (b % w), 0⟩
  | .sra => ⟨wrapTo w (signedOf w a / 2 ^ (b % w)), 0⟩
  | .div => divide signed w a b
  | .and => ⟨Nat.land a b, 0⟩
  | .or => ⟨Nat.lor a b, 0⟩
  | .xor => ⟨Nat.xor a b, 0⟩

/-- The code of a value in a format. -/
def encodeFlagged (f : FloatFmt) (x : Flagged FVal) : Flagged Nat := ⟨f.encode x.val, x.flags⟩

/-- A floating result of Table 05-3. -/
def vecFloat (op : VecOp) (f : FloatFmt) (mode : RMode) (a b c : Nat) : Flagged Nat :=
  let x := f.decode a
  let y := f.decode b
  let z := f.decode c
  match op with
  | .add => encodeFlagged f (f.finish mode (FVal.add mode x y))
  | .sub => encodeFlagged f (f.finish mode (FVal.add mode x y.neg))
  | .mul => encodeFlagged f (f.finish mode (FVal.mul x y))
  | .min => ⟨f.encode (FVal.min x y), 0⟩
  | .max => ⟨f.encode (FVal.max x y), 0⟩
  | .fma => encodeFlagged f (f.finish mode (FVal.fma mode x y z))
  | .fms => encodeFlagged f (f.finish mode (FVal.fma mode x y z.neg))
  | .abs => ⟨f.encode x.abs, 0⟩
  | .neg => ⟨f.encode x.neg, 0⟩
  | .div => encodeFlagged f (f.finish mode (FVal.div x y))
  | .and => ⟨Nat.land a b, 0⟩
  | .or => ⟨Nat.lor a b, 0⟩
  | .xor => ⟨Nat.xor a b, 0⟩
  | .shl | .shr | .sra => ⟨a, 0⟩

/-- Bitwise operations on elements of any type. -/
def vecBits (op : VecOp) (a b : Nat) : Nat :=
  match op with
  | .and => Nat.land a b
  | .or => Nat.lor a b
  | _ => Nat.xor a b

def vecElem (op : VecOp) (t : Fmt) (mode : RMode) (a b c : Nat) : Flagged Nat :=
  match t.int? with
  | some signed => vecInt op signed t.width a b c
  | none =>
    match t.float? with
    | some f => vecFloat op f mode a b c
    | none => ⟨vecBits op a b, 0⟩

/-- The conditions of R137. -/
inductive VecCond
  | eq | ne | lt | le | gt | ge
  deriving DecidableEq, Repr

def condInt (k : VecCond) (a b : Int) : Bool :=
  match k with
  | .eq => decide (a = b)
  | .ne => decide (a ≠ b)
  | .lt => decide (a < b)
  | .le => decide (a ≤ b)
  | .gt => decide (b < a)
  | .ge => decide (b ≤ a)
/-- With a NaN operand, only NE holds. -/
def condFloat (k : VecCond) (a b : FVal) : Bool :=
  match k with
  | .eq => FVal.eq a b
  | .ne => !FVal.eq a b
  | .lt => FVal.lt a b
  | .le => FVal.le a b
  | .gt => FVal.lt b a
  | .ge => FVal.le b a
def condElem (k : VecCond) (t : Fmt) (a b : Nat) : Bool :=
  match t.int? with
  | some signed => condInt k (intElem signed t.width a) (intElem signed t.width b)
  | none => condFloat k (fmtValue t a) (fmtValue t b)

/-- A register extended from an element of type `t` (R143). -/
def extendElem (t : Fmt) (x : Nat) : Word :=
  match t.int? with
  | some true => BitVec.ofInt 64 (signedOf t.width x)
  | _ => w64 (x % 2 ^ t.width)

end Sys2Proof.Machine
end

