-- ==== Sys2Proof/Machine/Moment.lean ====
section
/-! DEFINITION. Moment arithmetic (R180 to R185, R188 to R199): sequences of correctly rounded fp32 steps on (mean, variance). -/

namespace Sys2Proof.Machine

/-- A moment: mean and variance (R64). -/
structure Moment where
  mean : FVal
  var : FVal
  deriving DecidableEq, Repr

/-- A sequence of steps that gathers the flags they raise (R184). -/
abbrev StepM := StateM FlagSet

def runSteps (x : StepM α) : Flagged α :=
  let r := x.run 0
  ⟨r.1, r.2⟩
def stepRaise (f : FlagSet) : StepM Unit := modify (· ||| f)
/-- A rounding step: Rn of what an exact operation gave (R181). -/
def rn (x : Flagged FVal) : StepM FVal := do
  let r := fp32.finish .rne x
  stepRaise r.flags
  pure r.val
/-- A step that is already rounded. -/
def keep (x : Flagged FVal) : StepM FVal := do
  stepRaise x.flags
  pure x.val

def rAdd (a b : FVal) : StepM FVal := rn (FVal.add .rne a b)
def rSub (a b : FVal) : StepM FVal := rn (FVal.add .rne a b.neg)
def rMul (a b : FVal) : StepM FVal := rn (FVal.mul a b)
def rDiv (a b : FVal) : StepM FVal := rn (FVal.div a b)
def rSqrt (a : FVal) : StepM FVal := rn (FVal.sqrt a)
def rFma (a b c : FVal) : StepM FVal := rn (FVal.fma .rne a b c)

def plusZero : FVal := .fin false 0 0
def minusZero : FVal := .fin true 0 0
def oneF : FVal := .fin false 1 0
def twoF : FVal := .fin false 2 0
def fourF : FVal := .fin false 4 0
def halfF : FVal := .fin false 1 (-1)

/-- A variance as read and as stored (R183): −0 is +0; below zero or NaN is +0 with NV. -/
def fixVar (v : FVal) : StepM FVal := do
  if v.isNan || v.negative then
    stepRaise flagNV
    pure plusZero
  else if v.isZero then pure plusZero
  else pure v

/-- R183 around the steps of one element: a NaN mean of an input gives (NaN, +0) and no flag. -/
def withMoments (l : List Moment) (f : List Moment → StepM Moment) : StepM Moment := do
  if l.any (fun m => m.mean.isNan) then pure ⟨.nan, plusZero⟩
  else
    let l' ← l.mapM (fun m => do
      let v ← fixVar m.var
      pure ⟨m.mean, v⟩)
    let r ← f l'
    let v ← fixVar r.var
    pure ⟨r.mean, v⟩

def decodeMoment (w : Nat) : Moment := ⟨fp32.decode (w % 2 ^ 32), fp32.decode (w / 2 ^ 32 % 2 ^ 32)⟩
def encodeMoment (m : Moment) : Nat := fp32.encode m.mean + 2 ^ 32 * fp32.encode m.var

/-! The covariance mode (R185). -/

inductive CovMode
  | ind | cor | ant
  | rho (r : FVal)
  deriving DecidableEq, Repr

/-- The mode in force, ρ brought into [−1, 1], and IV where ρ had to be. -/
def covMode (v : Ctx) : Flagged CovMode :=
  match v.mmode with
  | 0 => ⟨.ind, 0⟩
  | 1 => ⟨.cor, 0⟩
  | 2 => ⟨.ant, 0⟩
  | _ =>
    let r := fp32.decode v.mrho.toNat
    if r.isNan then ⟨.rho plusZero, flagIV⟩
    else if FVal.lt oneF r then ⟨.rho oneF, flagIV⟩
    else if FVal.lt r oneF.neg then ⟨.rho oneF.neg, flagIV⟩
    else ⟨.rho r, 0⟩

/-- The mode MSUB uses (R188). -/
def CovMode.swap : CovMode → CovMode
  | .ind => .ind
  | .cor => .ant
  | .ant => .cor
  | .rho r => .rho r.neg

/-! Binary rules (R188, R189). -/

def varSum (mode : CovMode) (va vb : FVal) : StepM FVal := do
  match mode with
  | .ind => rAdd va vb
  | .cor =>
    let sa ← rSqrt va
    let sb ← rSqrt vb
    let s ← rAdd sa sb
    rMul s s
  | .ant =>
    let sa ← rSqrt va
    let sb ← rSqrt vb
    let d ← rSub sa sb
    rMul d d
  | .rho r =>
    let sa ← rSqrt va
    let sb ← rSqrt vb
    let c ← rMul (← rMul r sa) sb
    let t ← rAdd va vb
    let c2 ← rMul twoF c
    rAdd t c2

def stepMadd (mode : CovMode) (a b : Moment) : StepM Moment := do
  let m ← rAdd a.mean b.mean
  let v ← varSum mode a.var b.var
  pure ⟨m, v⟩
def stepMsub (mode : CovMode) (a b : Moment) : StepM Moment := do
  let m ← rSub a.mean b.mean
  let v ← varSum mode.swap a.var b.var
  pure ⟨m, v⟩

/-- The covariance c of R189. -/
def covariance (mode : CovMode) (va vb : FVal) : StepM FVal := do
  let sa ← rSqrt va
  let sb ← rSqrt vb
  match mode with
  | .rho r => rMul (← rMul r sa) sb
  | .ant =>
    let c ← rMul sa sb
    pure c.neg
  | _ => rMul sa sb

def stepMmul (mode : CovMode) (a b : Moment) : StepM Moment := do
  let t ← rMul (← rMul a.mean a.mean) b.var
  let t ← rFma (← rMul b.mean b.mean) a.var t
  let t ← rFma a.var b.var t
  if mode = .ind then
    let m ← rMul a.mean b.mean
    pure ⟨m, t⟩
  else
    let c ← covariance mode a.var b.var
    let m ← rFma a.mean b.mean c
    let q ← rMul twoF (← rMul a.mean b.mean)
    let t ← rFma q c t
    let v ← rFma c c t
    pure ⟨m, v⟩

/-! Single-operand rules (R190 to R194). -/

def stepMscl (k : FVal) (a : Moment) : StepM Moment := do
  let m ← rMul k a.mean
  let v ← rMul (← rMul k k) a.var
  pure ⟨m, v⟩
def stepMaff (w b : FVal) (a : Moment) : StepM Moment := do
  let m ← rFma w a.mean b
  let v ← rMul (← rMul w w) a.var
  pure ⟨m, v⟩
def stepMneg (a : Moment) : StepM Moment := pure ⟨a.mean.neg, a.var⟩
def stepMsqr (a : Moment) : StepM Moment := do
  let q ← rMul a.mean a.mean
  let m ← rAdd q a.var
  let t ← rMul (← rMul fourF q) a.var
  let v ← rFma (← rMul twoF a.var) a.var t
  pure ⟨m, v⟩
def stepMrelu (a : Moment) : StepM Moment := do
  if a.var.isZero then pure ⟨if FVal.lt plusZero a.mean then a.mean else plusZero, plusZero⟩
  else
    let sg ← rSqrt a.var
    let al ← rDiv a.mean sg
    let p ← keep (fcdf al)
    let d ← keep (fpdf al)
    let m ← rFma sg d (← rMul a.mean p)
    let q ← rFma a.mean a.mean a.var
    let t ← rMul q p
    let t ← rFma (← rMul a.mean sg) d t
    let v ← rFma m.neg m t
    pure ⟨m, v⟩
def stepMexp (x : Moment) : StepM Moment := do
  let a ← rAdd x.mean (← rMul halfF x.var)
  let m ← keep (fexp .rne a)
  let b ← rAdd (← rMul twoF x.mean) x.var
  let e1 ← keep (fexpm1 .rne x.var)
  let e2 ← keep (fexp .rne b)
  let v ← rMul e1 e2
  pure ⟨m, v⟩
/-- π/8 as fp32 (R194). -/
def lambda2 : FVal := fp32.decode 0x3EC90FDB
def stepMsig (x : Moment) : StepM Moment := do
  let lam ← rSqrt lambda2
  let k ← rSqrt (← rFma lambda2 x.var oneF)
  let z ← rDiv (← rMul lam x.mean) k
  let m ← keep (fcdf z)
  let g ← rSub oneF (← rDiv oneF k)
  let v ← rMul (← rMul m (← rSub oneF m)) g
  pure ⟨m, v⟩

/-! Sampling (R197). -/

/-- One Philox round on the counter under a key. -/
def philoxRound (k0 k1 : Nat) (c : Nat × Nat × Nat × Nat) : Nat × Nat × Nat × Nat :=
  let p0 := 0xD2511F53 * c.1
  let p1 := 0xCD9E8D57 * c.2.2.1
  (Nat.xor (Nat.xor (p1 / 2 ^ 32) c.2.1) k0, p1 % 2 ^ 32, Nat.xor (Nat.xor (p0 / 2 ^ 32) c.2.2.2) k1, p0 % 2 ^ 32)
def philox (k0 k1 : Nat) (c : Nat × Nat × Nat × Nat) : Nat × Nat × Nat × Nat :=
  (List.range 10).foldl (fun x r => philoxRound ((k0 + r * 0x9E3779B9) % 2 ^ 32) ((k1 + r * 0xBB67AE85) % 2 ^ 32) x) c

/-- The normal variate z_e; its own steps set no flag. -/
def normalVariate (seed : Word) (e tag index : Nat) : FVal :=
  let c := philox (seed.toNat % 2 ^ 32) (seed.toNat / 2 ^ 32) (e, tag, index, 0)
  let u1 := c.1 / 256 + 1
  let u2 := c.2.1 / 256
  (runSteps (do
    let l ← rMul twoF.neg (lnReal fp32 .rne u1 (-24)).val
    let r ← rSqrt l
    rMul r (cos2PiReal fp32 .rne u2).val)).val

/-! Reduction (R198). -/

def sumTree : Nat → List Moment → StepM Moment
  | 0, l => pure (l.headD ⟨minusZero, plusZero⟩)
  | n + 1, l => do
    let l' ← (List.zip (l.take (2 ^ n)) (l.drop (2 ^ n))).mapM (fun p => do
      let m ← rAdd p.1.mean p.2.mean
      let v ← rAdd p.1.var p.2.var
      pure (⟨m, v⟩ : Moment))
    sumTree n l'

/-- An input of MSUM checked by R183. -/
def checkMoment (m : Moment) : StepM Moment := withMoments [m] (fun l => pure (l.headD m))

/-! The instructions: elements, activity (R180, R182). -/

/-- Moment element `e` and plain fp32 element `e` of a register. -/
def momentElem (v : VWord) (e : Nat) : Moment := decodeMoment (elem 64 v e)
def plainElem (v : VWord) (e : Nat) : FVal := fp32.decode (elem 32 v e)
def activeMoment (s : State) (q : Option Prd) (e : Nat) : Bool := isActive s q 64 (effLen s 16) e

def flagMoment (x : StepM Moment) : Flagged Nat :=
  let r := runSteps x
  ⟨encodeMoment r.val, r.flags⟩
def flagPlain (x : StepM FVal) : Flagged Nat :=
  let r := runSteps x
  ⟨fp32.encode r.val, r.flags⟩

/-- A moment result into X. -/
def State.completeM (s : State) (x : Idx) (q : Option Prd) (f : Nat → Flagged Nat) (extra : FlagSet) : State :=
  let r := buildElems 64 16 (activeMoment s q) (s.v x) f
  s.completeV x ⟨r.val, r.flags ||| extra⟩
/-- A plain result into fp32 elements 0 to 15 of X. -/
def State.completePlain (s : State) (x : Idx) (q : Option Prd) (f : Nat → Flagged Nat) : State :=
  s.completeV x (buildElems 32 32 (fun e => decide (e < 16) && activeMoment s q e) (s.v x) f)

def mbinCheck (s : State) (a : MBin) : Except Stop Unit := do
  s.me.checkV 0 a.x
  s.me.checkV 1 a.y
  s.me.checkVZ a.z

def runMBin (f : CovMode → Moment → Moment → StepM Moment) (a : MBin) (s : State) : Answer :=
  finish s (do
    mbinCheck s a
    let (p, q) := match a.z with
      | some z => (s.v a.y, s.v z)
      | none => (s.v a.x, s.v a.y)
    let mode := covMode s.me
    let any := (List.range 16).any (activeMoment s a.prd)
    pure (s.completeM a.x a.prd (fun e => flagMoment (withMoments [momentElem p e, momentElem q e] (fun l =>
      match l with
      | [m, n] => f mode.val m n
      | _ => pure ⟨.nan, plusZero⟩))) (flagIf any mode.flags)))
def execMadd (a : MBin) (s : State) : Answer := runMBin stepMadd a s
def execMsub (a : MBin) (s : State) : Answer := runMBin stepMsub a s
def execMmul (a : MBin) (s : State) : Answer := runMBin stepMmul a s

/-- One moment input. -/
def oneMoment (f : Moment → StepM Moment) (m : Moment) : StepM Moment := withMoments [m] (fun l => f (l.headD m))

def runMTri (f : FVal → FVal → Moment → StepM Moment) (a : MTri) (s : State) : Answer :=
  finish s (do
    s.me.checkV 0 a.x
    s.me.checkV 1 a.y
    s.me.checkV 2 a.z
    pure (s.completeM a.x a.prd (fun e => flagMoment
      (oneMoment (f (plainElem (s.v a.z) e) (plainElem (s.v a.z) (16 + e))) (momentElem (s.v a.y) e))) 0))
def execMscl (a : MTri) (s : State) : Answer := runMTri (fun k _ m => stepMscl k m) a s
def execMaff (a : MTri) (s : State) : Answer := runMTri stepMaff a s

def runMUn (f : Moment → StepM Moment) (a : MUn) (s : State) : Answer :=
  finish s (do
    s.me.checkV 0 a.x
    s.me.checkV 1 a.y
    pure (s.completeM a.x a.prd (fun e => flagMoment (oneMoment f (momentElem (s.v a.y) e))) 0))
def execMneg (a : MUn) (s : State) : Answer := runMUn stepMneg a s
def execMrelu (a : MUn) (s : State) : Answer := runMUn stepMrelu a s
def execMexp (a : MUn) (s : State) : Answer := runMUn stepMexp a s
def execMsig (a : MUn) (s : State) : Answer := runMUn stepMsig a s
def execMsqr (a : MUn) (s : State) : Answer := runMUn stepMsqr a s

/-- MMK (R195): without THR the variance is +0. A NaN mean is stored as the canonical NaN (R183). -/
def execMmk (a : MBin) (s : State) : Answer :=
  finish s (do
    mbinCheck s a
    pure (s.completeM a.x a.prd (fun e =>
      let var := match a.z with
        | some z => plainElem (s.v z) e
        | none => plusZero
      flagMoment (oneMoment pure ⟨plainElem (s.v a.y) e, var⟩)) 0))

def runMPlain (f : Nat → Flagged Nat) (a : MUn) (s : State) : Answer :=
  finish s (do
    s.me.checkV 0 a.x
    s.me.checkV 1 a.y
    pure (s.completePlain a.x a.prd (fun e => f (elem 64 (s.v a.y) e))))
/-- MMEAN copies bits (R195). -/
def execMmean (a : MUn) (s : State) : Answer := runMPlain (fun w => ⟨w % 2 ^ 32, 0⟩) a s
/-- MVAR: the variance after the input check (R195). -/
def execMvar (a : MUn) (s : State) : Answer :=
  runMPlain (fun w =>
    let r := runSteps (oneMoment pure (decodeMoment w))
    ⟨fp32.encode r.val.var, r.flags⟩) a s

/-- One element of MCOL (R196). -/
def stepMcol (mode : ColMode) (k z : FVal) (m : Moment) : StepM FVal := do
  let r ← oneMoment (fun x => do
    match mode with
    | .mean => pure x
    | .upper =>
      let sg ← rSqrt x.var
      let y ← rFma k sg x.mean
      pure ⟨y, plusZero⟩
    | .lower =>
      let sg ← rSqrt x.var
      let y ← rFma k.neg sg x.mean
      pure ⟨y, plusZero⟩
    | .sample =>
      let sg ← rSqrt x.var
      let y ← rFma sg z x.mean
      pure ⟨y, plusZero⟩) m
  pure r.mean

def execMcol (a : MCol) (s : State) : Answer :=
  finish s (do
    s.me.checkV 0 a.x
    s.me.checkV 1 a.y
    s.me.checkZ (a.z.map (·.2))
    let (mode, k) := match a.z with
      | some (m, r) => (m, f32 (s.g r))
      | none => (ColMode.mean, plusZero)
    pure (s.completePlain a.x a.prd (fun e => flagPlain
      (stepMcol mode k (if mode = .sample then normalVariate s.me.mseed e s.me.ttag.toNat a.y.val else plusZero)
        (momentElem (s.v a.y) e)))))

/-- MSUM (R198): the checks of the elements and of the scalar, the tree, the scalar last. -/
def sumMoments (l : List (Option Moment)) (w : Moment) : StepM Moment := do
  let l' ← l.mapM (fun m => match m with
    | some x => checkMoment x
    | none => pure ⟨minusZero, plusZero⟩)
  let x ← checkMoment w
  if x.mean.isNan then pure ⟨.nan, plusZero⟩
  else
    let t ← sumTree 4 l'
    let m ← rAdd x.mean t.mean
    let v ← fixVar (← rAdd x.var t.var)
    pure ⟨m, v⟩

def execMsum (a : MSum) (s : State) : Answer :=
  finish s (do
    s.me.checkG 0 a.x
    s.me.checkV 1 a.y
    s.me.checkZ a.z
    let l := (List.range 16).map (fun e => if activeMoment s a.prd e then some (momentElem (s.v a.y) e) else none)
    let r := flagMoment (sumMoments l (decodeMoment (s.g (a.z.getD a.x)).toNat))
    pure (s.complete a.x (w64 r.val) r.flags))

/-- The mask of Table 07-4. -/
def momentMask (s : State) (q : Option Prd) (v : VWord) : Nat :=
  (List.range 16).foldl (fun a e =>
    let m := momentElem v e
    if !activeMoment s q e then a
    else a + (if m.var.isNan || m.var.negative then 2 ^ e else 0) + (if m.mean.isNan then 2 ^ (16 + e) else 0) +
      (if m.var.isInf && !m.var.isNeg then 2 ^ (32 + e) else 0)) 0
def execMchk (a : MChk) (s : State) : Answer :=
  finish s (do
    s.me.checkG 0 a.x
    s.me.checkV 1 a.y
    pure (s.complete a.x (w64 (momentMask s a.prd (s.v a.y))) 0))

end Sys2Proof.Machine
end

