-- ==== Sys2Proof/Machine/Atomics.lean ====
section
/-! DEFINITION. Atomics (R317 to R323): the new value of each member, where it is performed, and the reply. -/

namespace Sys2Proof.Machine

/-- The members of Table 14-2. -/
inductive AtomOp
  | add | and | or | xor | min | max | swp | cas | cas2 | binc | bdec | fadd | madd
  deriving DecidableEq, Repr

def AtomOp.code : AtomOp → Nat
  | .add => 0 | .and => 1 | .or => 2 | .xor => 3 | .min => 4 | .max => 5 | .swp => 6 | .cas => 7 | .cas2 => 8 | .binc => 9
  | .bdec => 10 | .fadd => 11 | .madd => 12
def AtomOp.ofCode : Nat → AtomOp
  | 0 => .add | 1 => .and | 2 => .or | 3 => .xor | 4 => .min | 5 => .max | 6 => .swp | 7 => .cas | 8 => .cas2 | 9 => .binc
  | 10 => .bdec | 11 => .fadd | _ => .madd

/-- What an atomic finds and leaves: the value to write, if it writes, and its flags. -/
structure AtomResult where
  new : Option Nat
  flags : FlagSet
  deriving DecidableEq, Repr

/-- `a < b` as integers of `n` bytes (R318). -/
def atomLess (n : Nat) (signed : Bool) (a b : Nat) : Bool :=
  if signed then decide (signedOf (8 * n) a < signedOf (8 * n) b) else decide (a < b)

/-- fp32 addition of an AFADD, in RNE (R320). -/
def atomFadd (old x : Nat) : AtomResult :=
  let r := fadd32 .rne (w64 old) (w64 x)
  ⟨some r.val.toNat, r.flags⟩
/-- The moment sum of an AMADD, as independent quantities (R320). -/
def atomMadd (old x : Nat) : AtomResult :=
  let r := runSteps (withMoments [decodeMoment old, decodeMoment x] (fun l =>
    stepMadd .ind (l.getD 0 ⟨.nan, plusZero⟩) (l.getD 1 ⟨.nan, plusZero⟩)))
  ⟨some (encodeMoment r.val), r.flags⟩

/-- Table 14-2 on `n` bytes: `x` is the operand or the expected value, `y` the new value of a compare and swap. -/
def atomNew (op : AtomOp) (n : Nat) (signed : Bool) (x y old : Nat) : AtomResult :=
  let m := 2 ^ (8 * n)
  match op with
  | .add => ⟨some ((old + x) % m), 0⟩
  | .and => ⟨some (Nat.land old x), 0⟩
  | .or => ⟨some (Nat.lor old x), 0⟩
  | .xor => ⟨some (Nat.xor old x), 0⟩
  | .min => ⟨some (if atomLess n signed x old then x else old), 0⟩
  | .max => ⟨some (if atomLess n signed old x then x else old), 0⟩
  | .swp => ⟨some x, 0⟩
  | .cas | .cas2 => ⟨if old = x then some y else none, 0⟩
  | .binc => ⟨if atomLess n signed old x then some ((old + 1) % m) else none, 0⟩
  | .bdec => ⟨if atomLess n signed x old then some ((old + m - 1) % m) else none, 0⟩
  | .fadd => atomFadd old x
  | .madd => atomMadd old x

/-- The element of an atomic by its type (Table 14-2): its bytes and whether it is signed; `none` for a type not listed. -/
def atomType (op : AtomOp) (f : Option Fmt) : Option (Nat × Bool) :=
  match op with
  | .cas2 => some (16, false)
  | .fadd => if f.getD .fp32 = .fp32 then some (4, false) else none
  | .madd => if f.getD .m64 = .m64 then some (8, false) else none
  | _ =>
    match f.getD .i64 with
    | .i32 => some (4, true)
    | .i64 => some (8, true)
    | .n32 => some (4, false)
    | .n64 => some (8, false)
    | _ => none

/-- PCIe has an AtomicOp for the member (R322). -/
def AtomOp.pcie : AtomOp → Bool
  | .add | .swp | .cas | .cas2 => true
  | _ => false

/-! Where an atomic is performed (Table 14-3). -/

/-- Every L1 that owns a line in a hall gives it up, its dirty bytes written back. -/
def recallHall (s : State) (hall key line : Nat) : State :=
  (holders s key line (fun k l => l.owned && stallHall k == hall)).foldl (fun t k => recallLine t key line k) s
/-- The Shared copies of a line in an arcade go. -/
def dropArcade (s : State) (ak key line : Nat) : State :=
  (holders s key line (fun k l => !l.owned && stallArcade k == ak)).foldl (fun t k => dropLine t k key line) s
/-- The hall's visitor copy of a line goes, its dirty bytes written back; a home copy stays. -/
def dropVisitor (s : State) (hall key line : Nat) : State :=
  if homeIn hall (line * 128) then s else dropL2 s hall key line

/-- Read, compute and write at the storage or the home copy. A device defines the result of an atomic on it, and so does a hall
register's block, which the spec gives no atomic: the old value is free and nothing else changes (R322; log entry 9). -/
def atomHome (s : State) (p : Place) (n : Nat) (f : Nat → AtomResult) : State × List Byte × FlagSet :=
  match storageOf p.pa with
  | .hallRegs _ _ | .aperture _ _ _ | .crier _ => (s, leBytes n (Config.deviceRead p.pa n s.tick), 0)
  | _ =>
    let old := homeBytes s p.key p.pa n
    let r := f (leNat old)
    (match r.new with
     | some v => writeHome s p.key p.pa (leBytes n v)
     | none => s, old, r.flags)

/-- Host memory: every copy of the line in the package goes, its dirty bytes written back to the host, so that the host's home agent
performs the atomic (Table 14-3, R440). -/
def recallHost (s : State) (pkg key line : Nat) : State :=
  (pkgHalls pkg).foldl (fun t h =>
    let t1 := recallHall t h key line
    dropL2 { t1 with l1 := t1.l1.filter (fun e => !(stallHall (l1Stall e.1) == h && l1KeyId e.1 == key && l1LineNo e.1 == line)) } h key
      (line / 2)) s

def isHost (pa : Nat) : Bool :=
  match storageOf pa with
  | .host _ => true
  | _ => false

/-- An atomic of context `c` in its own package: the old bytes, the flags, and whether it is complete at once (R321, R323). -/
def atomLocal (s : State) (c : Nat) (p : Place) (scope : Scope) (n : Nat) (f : Nat → AtomResult) :
    State × List Byte × FlagSet × Bool :=
  let hall := ctxHall c
  let line := p.pa / 64
  if isHost p.pa then
    let (s1, old, fl) := atomHome (if p.cached then recallHost s (ctxPkg c) p.key line else s) p n f
    (s1.updCtx c (fun v => { v with hostAddr := some p.pa }), old, fl, false)
  else if p.cached then
    if Scope.le scope .ac then
      let mine := ((s.l1.lookup (l1Key (ctxStall c) p.key line)).map (·.owned)).getD false
      let (s1, old, _) := loadPlace (ownLine s (ctxStall c) p false) c p n .page
      let r := f (leNat old)
      (match r.new with
       | some v => storeL1 s1 c p (leBytes n v) false false
       | none => s1, old, r.flags, mine)
    else
      let s1 := dropArcade (recallHall s hall p.key line) (ctxArcade c) p.key line
      if scope = .ha then
        let (s2, old) := hallRead s1 hall p n
        let r := f (leNat old)
        (match r.new with
         | some v => hallWrite s2 hall p (leBytes n v)
         | none => s2, old, r.flags, false)
      else
        let s2 := dropVisitor s1 hall p.key (p.pa / 128)
        let s3 := if isDram p.pa then recallHall s2 (homeHall p.pa) p.key line else s2
        let (s4, old, fl) := atomHome s3 p n f
        (s4, old, fl, false)
  else
    let (s1, old, fl) := atomHome s p n f
    let near := match storageOf p.pa with
      | .tcm k _ => k == ctxStall c
      | .scratch a _ => a == ctxArcade c
      | _ => false
    (s1, old, fl, near)

/-- The values of `n` registers from X on, low word first (R319). -/
def groupValue (s : State) (x : GReg) (first n : Nat) : Nat :=
  (List.range n).foldr (fun i a => (s.g (GReg.succ (first + i) x)).toNat + 2 ^ 64 * a) 0

/-- The registers an atomic names from X on. -/
def AtomOp.regs : AtomOp → Nat
  | .cas => 2
  | .cas2 => 4
  | _ => 1

/-- x (or the expected value) and the new value, of `n` bytes (R317, R319). -/
def atomOperands (op : AtomOp) (s : State) (x : GReg) (n : Nat) : Nat × Nat :=
  let m := 2 ^ (8 * n)
  match op with
  | .cas => ((s.g x).toNat % m, (s.g (GReg.succ 1 x)).toNat % m)
  | .cas2 => (groupValue s x 0 2, groupValue s x 2 2)
  | _ => ((s.g x).toNat % m, 0)

/-- The format code that a request carries (R447). -/
def atomFmt (op : AtomOp) (f : Option Fmt) : Nat :=
  match op with
  | .cas2 => 0
  | .fadd => (f.getD .fp32).code
  | .madd => (f.getD .m64).code
  | _ => (f.getD .i64).code

/-- The bytes of the operand registers (R447). -/
def groupBytes (s : State) (x : GReg) (n : Nat) : List Byte :=
  (List.range n).flatMap (fun i => leBytes 8 (s.g (GReg.succ i x)).toNat)

/-- A checked atomic is performed after the context's issued stores, with the acquire that its ORD asks for (R312, R317). -/
def performAtom (op : AtomOp) (n : Nat) (signed : Bool) (a : Atom) (va : Nat) (p : Place) (s : State) : Except Stop State := do
  let c := s.cur
  let scope := (a.ord.map (·.scope)).getD .ac
  let (x, y) := atomOperands op s a.x n
  let d : Dest := if op = .cas2 then .pairValue a.x else .scalar a.x n signed
  let s0 ← settledLoad s c
  let s1 := s0.upd (fun v => { v with tbm := v.tbm ||| tbmBit c p })
  if isRemote c p then
    requestRemote s1 va p (requestHeader .atomic p.pa n (op.code % 8) (op.code / 8) (atomFmt op a.fmt) ++ groupBytes s a.x op.regs) d
      (acquireScope a.ord)
  else
    let (s2, old, fl, now) := atomLocal (acquireOf s1 a.ord) c p scope n (atomNew op n signed x y)
    pure (reply s2 d old now fl)

/-- The scope of an atomic reaches the home copy in the line's home hall (Table 14-3). -/
def atomFar (a : Atom) : Bool := Scope.le .pk ((a.ord.map (·.scope)).getD .ac)

/-- An atomic instruction. -/
def runAtom (op : AtomOp) (a : Atom) (s : State) : Answer :=
  finish s (do
    s.me.checkG 0 a.x op.regs
    s.me.checkG 1 a.y
    s.me.checkG 2 a.z
    match atomType op a.fmt with
    | none => throw (illcombo 1 0)
    | some (n, signed) =>
      let va := effAddr s a.y (some a.z) a.imm n
      if va % n ≠ 0 then throw (alignTrap 3 va)
      let acc : Acc := ⟨3, true, !op.pcie, !s.me.pl⟩
      let (s1, l) ← translateFar (atomFar a) s va acc
      checkPoison s1 acc va l.place n
      match releaseOf a.ord with
      | none => performAtom op n signed a va l.place s1
      | some sc => withRelease s1 sc (engineOf a.ord) (performAtom op n signed a va l.place))

def execAadd (a : Atom) (s : State) : Answer := runAtom .add a s
def execAand (a : Atom) (s : State) : Answer := runAtom .and a s
def execAor (a : Atom) (s : State) : Answer := runAtom .or a s
def execAxor (a : Atom) (s : State) : Answer := runAtom .xor a s
def execAmin (a : Atom) (s : State) : Answer := runAtom .min a s
def execAmax (a : Atom) (s : State) : Answer := runAtom .max a s
def execAswp (a : Atom) (s : State) : Answer := runAtom .swp a s
def execAcas (a : Atom) (s : State) : Answer := runAtom .cas a s
def execAcas2 (a : Atom) (s : State) : Answer := runAtom .cas2 a s
def execAbinc (a : Atom) (s : State) : Answer := runAtom .binc a s
def execAbdec (a : Atom) (s : State) : Answer := runAtom .bdec a s
def execAfadd (a : Atom) (s : State) : Answer := runAtom .fadd a s
def execAmadd (a : Atom) (s : State) : Answer := runAtom .madd a s

end Sys2Proof.Machine
end

