-- ==== Sys2Proof/Machine/VectorUnit.lean ====
section
/-! DEFINITION. Vector and predicate instructions that touch no memory (R136 to R138, R143 to R151). -/

namespace Sys2Proof.Machine

/-! Element arithmetic (R136). -/

/-- A vector instruction with sources a, b, c for each element: `srcs` gives them from X, Y and Z. -/
def runVBin (op : VecOp) (ok : Fmt → Bool) (a : VBin) (s : State) : Answer :=
  finish s (do
    s.me.checkV 0 a.x
    s.me.checkV 1 a.y
    s.me.checkVZ a.z
    let t := elemType s a.fmt
    requireType ok t
    let w := t.width
    let n := elemCount t
    let x := s.v a.x
    let y := s.v a.y
    let fused := op == .fma || op == .fms
    let p := match a.z with
      | some _ => y
      | none => if fused then y else x
    let q := match a.z with
      | some z => s.v z
      | none => y
    pure (s.completeV a.x (buildElems w n (isActive s a.prd w (effLen s n)) x
      (fun i => vecElem op t s.mode (elem w p i) (elem w q i) (elem w x i)))))

def runVUn (ok : Fmt → Bool) (f : Fmt → RMode → Nat → Flagged Nat) (a : VUn) (s : State) : Answer :=
  finish s (do
    s.me.checkV 0 a.x
    s.me.checkV 1 a.y
    let t := elemType s a.fmt
    requireType ok t
    let w := t.width
    let n := elemCount t
    pure (s.completeV a.x (buildElems w n (isActive s a.prd w (effLen s n)) (s.v a.x)
      (fun i => f t s.mode (elem w (s.v a.y) i)))))

def execVadd (a : VBin) (s : State) : Answer := runVBin .add acceptsArith a s
def execVsub (a : VBin) (s : State) : Answer := runVBin .sub acceptsArith a s
def execVmul (a : VBin) (s : State) : Answer := runVBin .mul acceptsArith a s
def execVmin (a : VBin) (s : State) : Answer := runVBin .min acceptsArith a s
def execVmax (a : VBin) (s : State) : Answer := runVBin .max acceptsArith a s
def execVand (a : VBin) (s : State) : Answer := runVBin .and acceptsAny a s
def execVor (a : VBin) (s : State) : Answer := runVBin .or acceptsAny a s
def execVxor (a : VBin) (s : State) : Answer := runVBin .xor acceptsAny a s
def execVfma (a : VBin) (s : State) : Answer := runVBin .fma acceptsArith a s
def execVfms (a : VBin) (s : State) : Answer := runVBin .fms acceptsArith a s
def execVabs (a : VUn) (s : State) : Answer := runVUn acceptsArith (fun t m x => vecElem .abs t m x 0 0) a s
def execVneg (a : VUn) (s : State) : Answer := runVUn acceptsArith (fun t m x => vecElem .neg t m x 0 0) a s
def execVshl (a : VBin) (s : State) : Answer := runVBin .shl acceptsInt a s
def execVshr (a : VBin) (s : State) : Answer := runVBin .shr acceptsInt a s
def execVsra (a : VBin) (s : State) : Answer := runVBin .sra acceptsInt a s
def execVdiv (a : VBin) (s : State) : Answer := runVBin .div acceptsArith a s

/-! Compares (R137). -/

/-- A predicate from a condition on element numbers: every lane bit of element i (R137, R138). -/
def lanesOf (w n : Nat) (f : Nat → Bool) : Word128 :=
  BitVec.ofNat 128 ((List.range n).foldl (fun a i => if f i then a + onesAt (w / 8) (i * (w / 8)) else a) 0)

def State.completeP (s : State) (x : Idx) (w : Word128) : State := (s.upd (fun v => v.setPred x.val w)).advance

def runVCmp (k : VecCond) (a : VTri) (s : State) : Answer :=
  finish s (do
    checkP 0 a.x
    s.me.checkV 1 a.y
    s.me.checkV 2 a.z
    let t := elemType s a.fmt
    requireType acceptsArith t
    let w := t.width
    let n := elemCount t
    pure (s.completeP a.x (lanesOf w n (fun i =>
      isActive s a.prd w (effLen s n) i && condElem k t (elem w (s.v a.y) i) (elem w (s.v a.z) i)))))
def execVceq (a : VTri) (s : State) : Answer := runVCmp .eq a s
def execVcne (a : VTri) (s : State) : Answer := runVCmp .ne a s
def execVclt (a : VTri) (s : State) : Answer := runVCmp .lt a s
def execVcle (a : VTri) (s : State) : Answer := runVCmp .le a s
def execVcgt (a : VTri) (s : State) : Answer := runVCmp .gt a s
def execVcge (a : VTri) (s : State) : Answer := runVCmp .ge a s

/-! Predicates (R138). -/

def runPBin (f : Word128 → Word128 → Word128) (a : PBin) (s : State) : Answer :=
  finish s (do
    checkP 0 a.x
    checkP 1 a.y
    match a.z with
    | some z =>
      checkP 2 z
      pure (s.completeP a.x (f (s.me.pred a.y.val) (s.me.pred z.val)))
    | none => pure (s.completeP a.x (f (s.me.pred a.x.val) (s.me.pred a.y.val))))
def execPand (a : PBin) (s : State) : Answer := runPBin (· &&& ·) a s
def execPor (a : PBin) (s : State) : Answer := runPBin (· ||| ·) a s
def execPxor (a : PBin) (s : State) : Answer := runPBin (· ^^^ ·) a s
def execPnot (a : PUn) (s : State) : Answer :=
  finish s (do
    checkP 0 a.x
    checkP 1 a.y
    pure (s.completeP a.x (~~~(s.me.pred a.y.val))))
def execPset (a : PSet) (s : State) : Answer :=
  finish s (do
    checkP 0 a.x
    s.me.checkG 1 a.y
    requireType acceptsAny s.me.vt
    let w := s.me.vt.width
    pure (s.completeP a.x (lanesOf w (elemCount s.me.vt) (fun i => decide (i < (s.g a.y).toNat)))))

/-- The elements whose lowest lane bit is 1 (Table 05-4). -/
def setElems (s : State) (y : Idx) : List Nat :=
  (List.range (elemCount s.me.vt)).filter (fun i => (s.me.pred y.val).getLsbD (i * s.me.vt.width / 8))
def runPCount (f : State → Idx → Nat) (a : PCount) (s : State) : Answer :=
  finish s (do
    s.me.checkG 0 a.x
    checkP 1 a.y
    requireType acceptsAny s.me.vt
    pure (s.complete a.x (w64 (f s a.y)) 0))
def execPcnt (a : PCount) (s : State) : Answer := runPCount (fun s y => (setElems s y).length) a s
def execPfirst (a : PCount) (s : State) : Answer :=
  runPCount (fun s y => (setElems s y).head?.getD (elemCount s.me.vt)) a s

/-! Reductions (R143). -/

/-- The identity of Table 05-6, as element bits. -/
def redIdentity (op : VecOp) (t : Fmt) : Nat :=
  match t.int?, t.float? with
  | some signed, _ =>
    match op with
    | .max => wrapTo t.width (intLow signed t.width)
    | .min => wrapTo t.width (intHigh signed t.width)
    | _ => 0
  | none, some f =>
    match op with
    | .max => f.encode (.inf true)
    | .min => f.encode (.inf false)
    | _ => f.encode (.fin true 0 0)
  | none, none => 0

/-- The pairing tree over 2^n elements. -/
def pairTree (op : Nat → Nat → Flagged Nat) : Nat → List Nat → FlagSet → Flagged Nat
  | 0, l, f => ⟨l.headD 0, f⟩
  | n + 1, l, f =>
    let rs := List.zipWith op (l.take (2 ^ n)) (l.drop (2 ^ n))
    pairTree op n (rs.map (·.val)) (rs.foldl (fun a r => a ||| r.flags) f)

def runVRed (op : VecOp) (a : VRed) (s : State) : Answer :=
  finish s (do
    s.me.checkG 0 a.x
    s.me.checkV 1 a.y
    s.me.checkZ a.z
    let t := elemType s a.fmt
    requireType acceptsArith t
    let w := t.width
    let n := elemCount t
    let step (p q : Nat) : Flagged Nat := vecElem op t s.mode p q 0
    let l := (List.range n).map (fun i => if isActive s a.prd w (effLen s n) i then elem w (s.v a.y) i else redIdentity op t)
    let r := pairTree step (Nat.log2 n) l 0
    let scalar := (s.g (a.z.getD a.x)).toNat % 2 ^ w
    let z := step scalar r.val
    pure (s.complete a.x (extendElem t z.val) (r.flags ||| z.flags)))
def execVrsum (a : VRed) (s : State) : Answer := runVRed .add a s
def execVrmax (a : VRed) (s : State) : Answer := runVRed .max a s
def execVrmin (a : VRed) (s : State) : Answer := runVRed .min a s

/-! Movement (R144). -/

def execVext (a : VExt) (s : State) : Answer :=
  finish s (do
    s.me.checkG 0 a.x
    s.me.checkV 1 a.y
    s.me.checkZ a.z
    let t := elemType s a.fmt
    requireType acceptsAny t
    let n := (s.g (a.z.getD a.x)).toNat
    pure (s.complete a.x (if n < elemCount t then extendElem t (elem t.width (s.v a.y) n) else 0) 0))

/-- Element `i` of a ramp Y + i·Z (Table 05-7): element 0 is Y, a NaN made canonical. -/
def rampElem (t : Fmt) (mode : RMode) (y z i : Nat) : Flagged Nat :=
  match t.int?, t.float? with
  | some signed, _ => ⟨wrapTo t.width (intElem signed t.width y + i * intElem signed t.width z), 0⟩
  | none, some f =>
    if i = 0 then ⟨f.encode (f.decode y), 0⟩
    else
      let p := FVal.mul (FVal.ofInt i) (f.decode z)
      encodeFlagged f (f.finish mode (FVal.add mode (f.decode y) p.val))
  | none, none => ⟨y, 0⟩

def execVbcst (a : VBcst) (s : State) : Answer :=
  finish s (do
    s.me.checkV 0 a.x
    s.me.checkG 1 a.y
    s.me.checkZ a.z
    let t := elemType s a.fmt
    requireType (if a.z.isSome then acceptsArith else acceptsAny) t
    let w := t.width
    let n := elemCount t
    let y := (s.g a.y).toNat % 2 ^ w
    let f (i : Nat) : Flagged Nat := match a.z with
      | some z => rampElem t s.mode y ((s.g z).toNat % 2 ^ w) i
      | none => ⟨y, 0⟩
    pure (s.completeV a.x (buildElems w n (isActive s a.prd w (effLen s n)) (s.v a.x) f)))

def execVsel (a : VBin) (s : State) : Answer :=
  finish s (do
    s.me.checkV 0 a.x
    s.me.checkV 1 a.y
    s.me.checkVZ a.z
    let t := elemType s a.fmt
    requireType acceptsAny t
    let w := t.width
    let n := elemCount t
    let el := effLen s n
    let act := isActive s a.prd w el
    match a.z with
    | none => pure (s.completeV a.x (buildElems w n act (s.v a.x) (fun i => ⟨elem w (s.v a.y) i, 0⟩)))
    | some z =>
      pure (s.completeV a.x (buildElems w n (fun i => decide (i < el)) (s.v a.x)
        (fun i => ⟨if act i then elem w (s.v a.y) i else elem w (s.v z) i, 0⟩))))

def execVperm (a : VBin) (s : State) : Answer :=
  finish s (do
    s.me.checkV 0 a.x
    s.me.checkV 1 a.y
    s.me.checkVZ a.z
    let t := elemType s a.fmt
    requireType acceptsAny t
    let w := t.width
    let n := elemCount t
    let (src, idx) := match a.z with
      | some z => (s.v a.y, s.v z)
      | none => (s.v a.x, s.v a.y)
    pure (s.completeV a.x (buildElems w n (isActive s a.prd w (effLen s n)) (s.v a.x)
      (fun i => ⟨if elem w idx i < n then elem w src (elem w idx i) else 0, 0⟩))))

def execVslide (a : VSlide) (s : State) : Answer :=
  finish s (do
    s.me.checkV 0 a.x
    let (src, d) ← (match a.src with
      | .own d => do
        s.me.checkG 1 d
        pure (a.x, d)
      | .other y d => do
        s.me.checkV 1 y
        s.me.checkG 2 d
        pure (y, d))
    let t := elemType s a.fmt
    requireType acceptsAny t
    let w := t.width
    let n := elemCount t
    let dist := (s.g d).toInt
    pure (s.completeV a.x (buildElems w n (isActive s a.prd w (effLen s n)) (s.v a.x) (fun i =>
      let j := (i : Int) + dist
      ⟨if 0 ≤ j ∧ j < n then elem w (s.v src) j.toNat else 0, 0⟩))))

/-! Conversions and packed blocks (R145 to R148). -/

/-- The conversion of R145 from an element of type `t` to type `u`. -/
def convertElem (t u : Fmt) (mode : RMode) (x : Nat) : Flagged Nat :=
  match u.int?, u.float? with
  | some signed, _ =>
    match t.int? with
    | some from' =>
      let (k, clamped) := saturate (intElem from' t.width x) (intLow signed u.width) (intHigh signed u.width)
      ⟨wrapTo u.width k, flagIf clamped flagQS⟩
    | none =>
      let r := convertToInt signed u.width mode (fmtValue t x)
      ⟨wrapTo u.width r.val, r.flags⟩
  | none, some f =>
    if u = .e4m3 ∨ u = .e5m2 then encodeFlagged f (convertSmall f mode (fmtValue t x))
    else encodeFlagged f (f.roundVal mode (fmtValue t x))
  | none, none => roundDs8 (fmtValue t x)

def convertible (t : Fmt) : Bool := t != .fa56 && t != .m64

def execVcvt (a : VUn) (s : State) : Answer :=
  finish s (do
    s.me.checkV 0 a.x
    s.me.checkV 1 a.y
    let t := s.me.vt
    let u := elemType s a.fmt
    requireType convertible t
    requireType convertible u
    let el := effLen s (min (elemCount t) (elemCount u))
    pure (s.completeV a.x (buildElems u.width (elemCount u) (isActive s a.prd t.width el) (s.v a.x)
      (fun i => convertElem t u s.mode (elem t.width (s.v a.y) i)))))

/-- ceil(log2) of a positive magnitude. -/
def ceilLog2 (m : Nat) (e : Int) : Int := if 2 ^ Nat.log2 m = m then topExp m e else topExp m e + 1

/-- The block scale E of R147. -/
def blockScale (pack : Option FloatFmt) (vals : List FVal) : Nat :=
  let amax := (vals.map FVal.abs).foldl FVal.max (.fin false 0 0)
  let clampE (x : Int) : Nat := (saturate x 0 254).1.toNat
  match amax with
  | .nan => 255
  | .inf _ => 254
  | .fin _ m e =>
    if m = 0 then 127
    else match pack with
      | some q => clampE (topExp m e - topExp q.maxM q.maxE + 127)
      | none => clampE (ceilLog2 m e - 1 + 127)

/-- A value scaled by 2^k. -/
def FVal.scale (k : Int) : FVal → FVal
  | .fin n m e => .fin n m (e + k)
  | x => x

/-- VPACK and VQDS (R147): all of bits [263:0] of X. -/
def runPack (pack : Option FloatFmt) (a : VUn) (s : State) : State :=
  let el := min s.me.vl.toNat 32
  let act := isActive s a.prd 32 el
  let val (i : Nat) : FVal := fp32.decode (elem 32 (s.v a.y) i)
  let e := blockScale pack (((List.range 32).filter act).map val)
  let rs := (List.range 32).map (fun i =>
    if act i then
      let x := (val i).scale (127 - (e : Int))
      match pack with
      | some q => if e = 255 then ⟨q.nan, 0⟩ else encodeFlagged q (convertSmall q s.mode x)
      | none => roundDs8 x
    else (⟨if pack.isSome then 0x00 else 0x77, 0⟩ : Flagged Nat))
  let bytes := leBytes 33 (rs.foldr (fun r acc => r.val % 256 + 256 * acc) 0 + e * 2 ^ 256)
  s.completeV a.x ⟨replaceBytes 1024 (s.v a.x) 0 bytes, rs.foldl (fun f r => f ||| r.flags) 0⟩

def execVpack (a : VUn) (s : State) : Answer :=
  finish s (do
    s.me.checkV 0 a.x
    s.me.checkV 1 a.y
    requireType acceptsFp32 s.me.vt
    match a.fmt with
    | some .e4m3 => pure (runPack (some e4m3) a s)
    | some .e5m2 => pure (runPack (some e5m2) a s)
    | _ => throw vecCombo)

def execVqds (a : VUn) (s : State) : Answer :=
  finish s (do
    s.me.checkV 0 a.x
    s.me.checkV 1 a.y
    requireType acceptsFp32 s.me.vt
    if a.fmt = none ∨ a.fmt = some .ds8 then pure (runPack none a s) else throw vecCombo)

def execVunpk (a : VUn) (s : State) : Answer :=
  finish s (do
    s.me.checkV 0 a.x
    s.me.checkV 1 a.y
    requireType acceptsFp32 s.me.vt
    let q ← (match a.fmt with
      | some .e4m3 => pure Fmt.e4m3
      | some .e5m2 => pure Fmt.e5m2
      | some .ds8 => pure Fmt.ds8
      | _ => throw vecCombo)
    let el := min s.me.vl.toNat 32
    let e := bitsOf (s.v a.y).toNat 263 256
    pure (s.completeV a.x (buildElems 32 32 (isActive s a.prd 32 el) (s.v a.x) (fun i =>
      if e = 255 then ⟨fp32.nan, 0⟩
      else encodeFlagged fp32 (fp32.roundVal s.mode ((fmtValue q (elem 8 (s.v a.y) i)).scale ((e : Int) - 127)))))))

/-! Correctly rounded functions (R149). -/

def runVFun (f : RMode → FVal → Flagged FVal) (a : VUn) (s : State) : Answer :=
  runVUn acceptsFp32 (fun _ m x => encodeFlagged fp32 (f m (fp32.decode x))) a s
def execVexp (a : VUn) (s : State) : Answer := runVFun fexp a s
def execVrcp (a : VUn) (s : State) : Answer := runVFun frcp a s
def execVrsq (a : VUn) (s : State) : Answer := runVFun frsq a s
def execVerf (a : VUn) (s : State) : Answer := runVFun ferf a s

/-! Type and length (R150, R151). -/

def execVsett (a : VSet) (s : State) : Answer :=
  finish s (do
    s.me.checkG 0 a.x
    s.me.checkG 1 a.y
    let t := elemType s a.fmt
    requireType acceptsAny t
    let n := min (s.g a.y).toNat (elemCount t)
    let s1 := s.upd (fun v => { v.setFmtwField 8 4 t.code with vl := BitVec.ofNat 8 n })
    pure (s1.complete a.x (w64 n) 0))
def execVlen (a : VLen) (s : State) : Answer :=
  finish s (do
    s.me.checkG 0 a.x
    let t := elemType s a.fmt
    requireType acceptsAny t
    pure (s.complete a.x (w64 (elemCount t)) 0))
def execViota (a : VIota) (s : State) : Answer :=
  finish s (do
    s.me.checkV 0 a.x
    let t := elemType s a.fmt
    requireType acceptsArith t
    let n := elemCount t
    let el := effLen s n
    pure (s.completeV a.x (buildElems t.width n (fun i => decide (i < el)) (s.v a.x) (fun i =>
      match t.float? with
      | some f => ⟨f.encode (FVal.ofInt i), 0⟩
      | none => ⟨i, 0⟩))))

end Sys2Proof.Machine
end

