-- ==== Sys2Proof/Machine/VectorMemory.lean ====
section
/-! DEFINITION. Vector memory access (R139 to R142). -/

namespace Sys2Proof.Machine

/-- An element access that has been checked: the element's number, its address and its place. -/
structure ElemAt where
  i : Nat
  va : Nat
  place : Place
  deriving DecidableEq, Repr

/-- Elements checked one at a time in increasing number (R140): alignment, then translation, and poison (log entry 127). -/
def checkElems (size : Nat) (acc : Acc) (s : State) : List (Nat × Nat) → Except Stop (State × List ElemAt)
  | [] => .ok (s, [])
  | (i, va) :: r =>
    if va % size ≠ 0 then .error (alignTrap acc.kind va)
    else do
      let (s1, l) ← translate s va acc
      if acc.kind = 0 then checkPoison s1 acc va l.place size
      let (s2, es) ← checkElems size acc s1 r
      pure (s2, ⟨i, va, l.place⟩ :: es)

/-- The 128-byte blocks of other packages that elements touch, in increasing address (R447). -/
def remoteBlocks (c : Nat) (es : List ElemAt) : List Nat :=
  (((es.filter (fun e => isRemote c e.place)).map (fun e => e.place.pa / 128)).dedup).mergeSort (fun a b => decide (a ≤ b))

/-- The elements in a block. -/
def blockElems (b : Nat) (es : List ElemAt) : List ElemAt := es.filter (fun e => e.place.pa / 128 == b)

/-- One request for a block (R447): its stream and number, the first address, the elements with their offsets. -/
def requestBlock (c : Nat) (es : List ElemAt) (s : State) (b : Nat) : State × List (Nat × Nat × Nat × List (Nat × Nat)) :=
  match blockElems b es with
  | [] => (s, [])
  | e :: r =>
    let hall := targetHall (b * 128)
    let key := streamKey (ctxHall c) hall 0
    let st := s.stream key
    let seq := (st.next + st.waiting.length) % 2 ^ 32
    (sendMessage s (ctxHall c) hall 0 (s.ctx c).ttag.toNat (.access e.place.key c []) (requestHeader .load (b * 128) 128 0 0 0),
      [(key, seq, e.va, (e :: r).map (fun x => (x.i, x.place.pa % 128)))])

/-- Elements of the own package read in increasing number: their bytes, and whether all were there at once. -/
def readElems (c size : Nat) (policy : Policy) (s : State) : List ElemAt → Except Stop (State × List (Nat × List Byte) × Bool)
  | [] => .ok (s, [], true)
  | e :: r => do
    let (s1, bs, now) ← readPlace s c e.place size policy
    let (s2, rest, all) ← readElems c size policy s1 r
    pure (s2, (e.i, bs) :: rest, now && all)

/-- A vector load of checked elements into register `x`. -/
def loadElems (s : State) (x size : Nat) (es : List ElemAt) (ord : Option OrdQ) : Except Stop State := do
  let c := s.cur
  let (s1, got, now) ← readElems c size (policyOf ord) (acquireOf s ord) (es.filter (fun e => !isRemote c e.place))
  match remoteBlocks c es with
  | [] => pure (reply s1 (.vector x size (got.map (·.1)) false) (got.flatMap (·.2)) now 0)
  | bs => do
    let s2 ← settledLoad s1 c
    let (s3, parts) := bs.foldl (fun (p : State × List (Nat × Nat × Nat × List (Nat × Nat))) b =>
      let (t, q) := requestBlock c es p.1 b
      (t, p.2 ++ q)) (s2, [])
    pure (block s3 c .wmem (.gather x size parts got (acquireScope ord)))

/-- How a vector access names its elements: Y + imm + the offset of element i. -/
def elemAddrs (s : State) (y : GReg) (imm : Word) (n : Nat) (act : Nat → Bool) (off : Nat → Word) : List (Nat × Nat) :=
  ((List.range n).filter act).map (fun i => (i, (s.g y + imm + off i).toNat))

/-- The checks of registers and type shared by major 2.4, with the element size and count (R139). -/
def vmemCheck (s : State) (x : Idx) (y : GReg) (z : Except Stop Unit) (f : Option Fmt) : Except Stop (Nat × Nat) := do
  s.me.checkV 0 x
  s.me.checkG 1 y
  z
  let t := elemType s f
  requireType acceptsAny t
  pure (t.width / 8, elemCount t)

def runVLoad (x : Idx) (y : GReg) (z : Except Stop Unit) (imm : Word) (ord : Option OrdQ) (f : Option Fmt) (q : Option Prd)
    (off : Nat → Nat → Word) (s : State) : Answer :=
  finish s (do
    let (size, n) ← vmemCheck s x y z f
    let addrs := elemAddrs s y imm n (isActive s q (8 * size) (effLen s n)) (off size)
    let (s1, es) ← checkElems size ⟨0, false, true, !s.me.pl⟩ s addrs
    if es.isEmpty then pure (acquireOf s1 ord).advance
    else loadElems s1 x.val size es ord)

/-- Store the active elements of X in increasing number (R141), with the release of the instruction as a whole (R142); the blocks of
other packages after the elements of the own one, as one message each (R447; log entry 127). -/
def issueElems (s : State) (v : VWord) (size : Nat) (es : List ElemAt) (q : Option OrdQ) : Except Stop State :=
  let c := s.cur
  let policy := policyOf q
  let data (e : ElemAt) : List Byte := leBytes size (elem (8 * size) v e.i)
  let entry (rel : Bool) (b : Option (Nat × Nat)) (e : ElemAt) : QStore :=
    ⟨e.va, e.place, data e, rel, (q.map (·.scope)).getD .th, policy, b⟩
  let own := es.filter (fun e => !isRemote c e.place)
  let blocks (rel : Bool) (t : State) : State :=
    (remoteBlocks c es).foldl (fun u b => pushBlock u c ((blockElems b es).map (entry rel (some (s.tick, b))))) t
  let push (rel : Bool) (t : State) : State := blocks rel (own.foldl (fun u e => pushStore u c (entry rel none e)) t)
  let near := own.any (fun e => isNearStorage e.place)
  match releaseOf q with
  | none => (roomFor s c es.length near).map (fun t => (push false t).advance)
  | some sc =>
    if Scope.le .ha sc then
      withRelease s sc (engineOf q) (fun s1 =>
        let s2 := own.foldl (fun t e =>
          (performThrough t c (entry true none e)).upd (fun w => { w with tbm := w.tbm ||| tbmBit c e.place })) s1
        let s3 := drain (blocks true s2) c
        if (remoteBlocks c es).isEmpty then .ok s3.advance else .ok (s3.upd (fun w => { w with wait := .posted (sc == .sy) })))
    else (roomFor s c es.length near).map (fun t => (push true (narrowRelease t c sc)).advance)

def runVStore (x : Idx) (y : GReg) (z : Except Stop Unit) (imm : Word) (ord : Option OrdQ) (f : Option Fmt) (q : Option Prd)
    (off : Nat → Nat → Word) (s : State) : Answer :=
  finish s (do
    let (size, n) ← vmemCheck s x y z f
    let addrs := elemAddrs s y imm n (isActive s q (8 * size) (effLen s n)) (off size)
    let (s1, es) ← checkElems size ⟨1, true, true, !s.me.pl⟩ s addrs
    issueElems s1 (s.v x) size es ord)

/-- Offsets of consecutive elements (VLD, VST). -/
def offUnit (s : State) (z : Option GReg) (size i : Nat) : Word :=
  w64 (i * size) + (match z with
    | some r => 128 * s.g r
    | none => 0)
/-- Offsets with a signed stride (VLDS, VSTS). -/
def offStride (s : State) (z : Option GReg) (size i : Nat) : Word :=
  match z with
  | some r => w64 (i * size) * s.g r
  | none => w64 (i * size)
/-- Offsets by index elements (VGATH, VSCAT). -/
def offIndex (s : State) (z : Option Idx) (size i : Nat) : Word :=
  match z with
  | some r => BitVec.ofInt 64 (size * signedOf (8 * size) (elem (8 * size) (s.v r) i))
  | none => w64 (i * size)

def execVld (a : VMem) (s : State) : Answer :=
  runVLoad a.x a.y (s.me.checkZ a.z) a.imm a.ord a.fmt a.prd (offUnit s a.z) s
def execVst (a : VMem) (s : State) : Answer :=
  runVStore a.x a.y (s.me.checkZ a.z) a.imm a.ord a.fmt a.prd (offUnit s a.z) s
def execVlds (a : VMem) (s : State) : Answer :=
  runVLoad a.x a.y (s.me.checkZ a.z) a.imm a.ord a.fmt a.prd (offStride s a.z) s
def execVsts (a : VMem) (s : State) : Answer :=
  runVStore a.x a.y (s.me.checkZ a.z) a.imm a.ord a.fmt a.prd (offStride s a.z) s
def execVgath (a : VGather) (s : State) : Answer :=
  runVLoad a.x a.y (s.me.checkVZ a.z) a.imm a.ord a.fmt a.prd (offIndex s a.z) s
def execVscat (a : VGather) (s : State) : Answer :=
  runVStore a.x a.y (s.me.checkVZ a.z) a.imm a.ord a.fmt a.prd (offIndex s a.z) s

/-- VLDB: one element, broadcast into the active ones (R139). -/
def execVldb (a : VMem) (s : State) : Answer :=
  finish s (do
    let (size, n) ← vmemCheck s a.x a.y (s.me.checkZ a.z) a.fmt
    let act := (List.range n).filter (isActive s a.prd (8 * size) (effLen s n))
    let va := effAddr s a.y a.z a.imm size
    let (s1, es) ← checkElems size ⟨0, false, true, !s.me.pl⟩ s (if act.isEmpty then [] else [(0, va)])
    match es with
    | [] => pure (acquireOf s1 a.ord).advance
    | e :: _ =>
      if isRemote s1.cur e.place then loadElems s1 a.x.val size (act.map (fun i => { e with i := i })) a.ord
      else startLoad s1 e.va e.place size (.vector a.x.val size act true) a.ord)

end Sys2Proof.Machine
end

