-- ==== Sys2Proof/Machine/MatrixUnit.lean ====
section
/-! DEFINITION. Tile descriptors and their checks (R152 to R156), accumulator pairs (R158 to R163), the acceptance of matrix commands
(R164 to R166, R175, R202), MWAIT and MSTAT (R173, R174), tile registers (R172). -/

namespace Sys2Proof.Machine

/-! Tiles. -/

/-- A tile descriptor (Table 06-1). -/
structure Tile where
  base : Nat
  space : Nat
  dir : Bool
  fmt : Fmt
  rows : Nat
  cols : Nat
  stride : Nat
  smode : Nat
  soff : Nat
  deriving DecidableEq, Repr

def tileOf (w : Word128) : Tile :=
  let n := w.toNat
  { base := bitsOf n 56 0, space := bitsOf n 58 57, dir := bitOf n 59, fmt := Raw.fmtOf (bitsOf n 63 60), rows := bitsOf n 70 64 + 1,
    cols := bitsOf n 77 71 + 1, stride := bitsOf n 97 78, smode := bitsOf n 99 98, soff := bitsOf n 127 100 }

def Tile.size (t : Tile) : Nat := t.fmt.width / 8
/-- The address of element (r, c) (R153). -/
def Tile.addr (t : Tile) (r c : Nat) : Nat :=
  t.base + (if t.dir then c * t.stride + r else r * t.stride + c) * t.size
/-- The stored rows: the address of the first element of each, and how many elements it holds. -/
def Tile.stored (t : Tile) : List (Nat × Nat) :=
  let (n, len) := if t.dir then (t.cols, t.rows) else (t.rows, t.cols)
  (List.range n).map (fun i => (t.base + i * t.stride * t.size, len))
/-- The element addresses, stored row by row. An address that fails is met before any higher one that fails. -/
def Tile.addrs (t : Tile) : List Nat :=
  t.stored.flatMap (fun e => (List.range e.2).map (fun i => e.1 + i * t.size))

/-- [lo, hi] lies in a window, or shares no byte with it. -/
def insideWindow (base size lo hi : Nat) : Bool := decide (base ≤ lo) && decide (hi < base + size)
def outsideWindow (base size lo hi : Nat) : Bool := decide (hi < base) || decide (base + size ≤ lo)

/-- The SPACE rules of R154 but for DIR. -/
def Tile.spaceOk (t : Tile) : Bool :=
  t.stored.all (fun e =>
    let hi := e.1 + (e.2 - 1) * t.size
    match t.space with
    | 1 => insideWindow scratchWindow (2 ^ 22) e.1 hi
    | 2 => insideWindow tcmWindow (2 ^ 18) e.1 hi
    | _ => outsideWindow scratchWindow (2 ^ 22) e.1 hi && outsideWindow tcmWindow (2 ^ 18) e.1 hi)

/-- SMODE and the formats it allows (Table 06-2); none but mode 0 on a q56 pairing, a solver (reason 6) or an m64 operand (R202). -/
def Tile.smodeOk (t : Tile) (k : Nat) (plain : Bool) : Bool :=
  if t.smode = 0 then true
  else if plain then false
  else if t.smode = 2 then (t.fmt == .e4m3 || t.fmt == .e5m2 || t.fmt == .ds8) && decide (k % 32 = 0)
  else t.fmt == .fp32 || t.fmt == .bf16 || t.fmt == .fp16 || t.fmt == .e4m3 || t.fmt == .e5m2 || t.fmt == .ds8

/-- The address of the scales modulo 2⁶⁴ (log entry 128), and the addresses read there for `lines` lines of K elements (Table 06-2). -/
def Tile.scaleBase (t : Tile) (sclp : Word) : Nat := (sclp.toNat + t.soff) % 2 ^ 64
def Tile.scaleAddrs (t : Tile) (sclp : Word) (lines k : Nat) : List Nat :=
  let b := t.scaleBase sclp
  match t.smode with
  | 0 => []
  | 1 => [b]
  | 2 => (List.range (lines * (k / 32))).map (fun i => b + i)
  | _ => (List.range lines).map (fun i => b + 2 * i)

/-- The size of a scale (Table 06-2). -/
def Tile.scaleSize (t : Tile) : Nat :=
  match t.smode with
  | 1 => 4
  | 2 => 1
  | _ => 2

/-- The addresses of the elements that `need` selects, in logical order, row by row. -/
def Tile.logical (t : Tile) (need : Nat → Nat → Bool) : List Nat :=
  (List.range t.rows).flatMap (fun r => ((List.range t.cols).filter (need r)).map (fun c => t.addr r c))

/-- How an access is translated: by an instruction, which may wait for a walk, or by the device at once. -/
abbrev Translator := State → Nat → Acc → Except Stop (State × Located)
def translateFor (c : Nat) : Translator := fun s va a =>
  match translateNow s c va a with
  | .ok r => .ok r
  | .error t => .error (.trap t)

/-- The translation that an access of context `c` used. -/
def usedTlb (s : State) (c va : Nat) : List Tlb := if windowBase ≤ va then [] else (findTlb s c va).toList

/-- Addresses checked in order; the translations they used. -/
def checkAddrs (tr : Translator) (c : Nat) (a : Acc) : State → List Tlb → List Nat → Except Stop (State × List Tlb)
  | s, ts, [] => .ok (s, ts)
  | s, ts, va :: r =>
    match tr s va a with
    | .error e => .error e
    | .ok (s1, _) => checkAddrs tr c a s1 (ts ++ (usedTlb s1 c va).filter (fun t => !ts.contains t)) r

/-- Whether the ALIGN conditions of R156 hold, else the address at fault. -/
def Tile.misaligned (t : Tile) (sclp : Word) : Option Nat :=
  if t.base % t.size ≠ 0 then some t.base
  else
    let b := t.scaleBase sclp
    if (t.smode = 1 ∧ b % 4 ≠ 0) ∨ (t.smode = 3 ∧ b % 2 ≠ 0) then some b else none

/-- An operand of a command: which operand it is, its tile, its lines, the depth K, whether scales are excluded. -/
structure TileUse where
  oper : Nat
  tile : Tile
  lines : Nat
  k : Nat
  plain : Bool
  writes : Bool
  deriving DecidableEq, Repr

/-- The lowest of reasons 3 to 6 that applies to an operand of the MMA family (R156). -/
def TileUse.combo (u : TileUse) : Except Stop Unit :=
  if 64 < u.lines then .error (illcombo 3 u.oper)
  else if !u.tile.spaceOk then .error (illcombo 4 u.oper)
  else if u.tile.dir && u.tile.space != 1 then .error (illcombo 5 u.oper)
  else if !u.tile.smodeOk u.k u.plain then .error (illcombo 6 u.oper)
  else .ok ()

/-- ALIGN of every operand, then the translation of every operand, elements before scales (R156). -/
def checkTiles (tr : Translator) (s : State) (c : Nat) (sclp : Word) (us : List TileUse) : Except Stop (State × List Tlb) :=
  match us.findSome? (fun u => u.tile.misaligned sclp) with
  | some va => .error (alignTrap 4 va)
  | none =>
    us.foldlM (fun p u =>
      checkAddrs tr c ⟨4, u.writes, true, !(s.ctx c).pl⟩ p.1 p.2 (u.tile.addrs ++ u.tile.scaleAddrs sclp u.lines u.k)) (s, [])

/-! Pairings (Table 06-6, Table 07-6). -/

def isE8 (f : Fmt) : Bool := f == .e4m3 || f == .e5m2
def isI8 (f : Fmt) : Bool := f == .i8 || f == .n8

/-- The bank mode of an MMA pairing: `some true` for q56. -/
def mmaPairing (a b : Fmt) : Option Bool :=
  if isE8 a && isE8 b then some false
  else if (a == .bf16 && b == .bf16) || (a == .fp16 && b == .fp16) || (a == .fp32 && b == .fp32) then some false
  else if isI8 a && isI8 b then some true
  else if (a == .e4m3 && b == .ds8) || (a == .bf16 && b == .ds8) then some false
  else if a == .i8 && b == .ds8 then some true
  else none
/-- The pairings of MMAM, all in fa56. -/
def mmamPairing (a b : Fmt) : Option Bool :=
  if (a == .m64 && (b == .e4m3 || b == .bf16 || b == .fp32 || b == .ds8)) || (b == .m64 && (a == .e4m3 || a == .bf16)) then some false
  else none

/-- The group size G (R61). -/
def groupSize (a b : Fmt) : Nat :=
  if a == .fp32 || b == .fp32 || a == .m64 || b == .m64 then 16
  else if a.width = 16 || b.width = 16 then 32 else 64

/-! Accumulator banks. -/

def Pair.mode (p : Pair) (bank : Nat) : Bool := if bank = 0 then p.q0 else p.q1
def Pair.scale (p : Pair) (bank : Nat) : BitVec 32 := if bank = 0 then p.scale0 else p.scale1
def Pair.setMode (p : Pair) (bank : Nat) (q : Bool) : Pair := if bank = 0 then { p with q0 := q } else { p with q1 := q }
def Pair.setScale (p : Pair) (bank : Nat) (x : BitVec 32) : Pair :=
  if bank = 0 then { p with scale0 := x } else { p with scale1 := x }

def bankBase (pair bank : Nat) : Nat := 8192 * pair + 4096 * bank
/-- The 4,096 cells of a bank, by 64 i + j. -/
def bankCells (k : Stall) (pair bank : Nat) : Array (BitVec 56) :=
  let b := bankBase pair bank
  (k.acc.filter (fun e => decide (b ≤ e.1) && decide (e.1 < b + 4096))).foldl
    (fun a e => a.set! (e.1 - b) e.2) (Array.replicate 4096 0)
/-- All cells of a bank are written. -/
def setBank (k : Stall) (pair bank : Nat) (f : Nat → BitVec 56) : Stall :=
  let b := bankBase pair bank
  { k with
    acc := k.acc.filter (fun e => decide (e.1 < b)) ++
      ((List.range 4096).filterMap (fun i => if f i = 0 then none else some (b + i, f i))) ++
      k.acc.filter (fun e => decide (b + 4096 ≤ e.1)) }

/-- A freed pair is cleared to the state of R158, and granted again when the clearing is done (R159). -/
def freePair (s : State) (k pair : Nat) : State :=
  (s.updStall k (fun v =>
    (setBank (setBank v pair 0 (fun _ => 0)) pair 1 (fun _ => 0)).setPair pair { Pair.reset with clearing := true })).cause
    (.pairClearDone k pair)

/-! What is outstanding (R159 to R161, R173). -/

/-- The banks a command targets; a solver targets none. -/
def Cmd.banks (x : Cmd) : List (Nat × Nat) :=
  match x.kind with
  | .mma _ => [(x.pair, x.bank)]
  | .mmam => [(x.pair, 0), (x.pair, 1)]
  | _ => []
def Transfer.banks (x : Transfer) : List (Nat × Nat) :=
  if x.both then [(x.pair, 0), (x.pair, 1)] else [(x.pair, x.bank)]

/-- The outstanding commands of a stall, follow-ons that wait for a slot included (R347). -/
def outstanding (s : State) (k : Nat) : List Cmd :=
  let v := s.stall k
  v.closing ++ v.running.toList ++ v.low ++ v.high ++
    ((s.arcade (stallArcade k)).passed.filter (fun e => e.1 == k)).map (·.2)

def countFor (s : State) (c : Nat) (high : Bool) : Nat :=
  (outstanding s (ctxStall c)).countP (fun x => x.ctx == c && x.high == high)

/-- The stall, pair and bank that the block of a follow-on names (Table 16-4). -/
def followTarget (s : State) (ak : Nat) (f : FollowOn) : Nat × Nat × Nat :=
  let ctl := leNat (homeBytes s 0 (scratchBase ak + f.foff + 32) 8)
  (arcadeStall ak (bitsOf ctl 7 5), bitsOf ctl 4 3, bitsOf ctl 2 2)

/-- The banks of a stall that follow-ons handed on and not yet checked target: they count as commands of the holder (R173, R347). -/
def handedBanks (s : State) (k : Nat) : List (Nat × Nat) :=
  let ak := stallArcade k
  ((s.arcade ak).handed.map (followTarget s ak)).filterMap (fun t => if t.1 = k then some t.2 else none)

/-- The follow-ons handed on and not yet checked that count as commands of a context, the holder of the pair they name (R354). -/
def handedFor (s : State) (c : Nat) (high : Bool) : Nat :=
  let ak := stallArcade (ctxStall c)
  (s.arcade ak).handed.countP (fun f =>
    f.high == high && (followTarget s ak f).1 == ctxStall c && s.held c == some (followTarget s ak f).2.1)

/-- Some command or transfer still has to complete on one of the banks. -/
def banksBusy (s : State) (k : Nat) (bs : List (Nat × Nat)) : Bool :=
  (handedBanks s k).any bs.contains || (outstanding s k).any (fun x => x.banks.any bs.contains) || (s.stall k).transfers.any (fun x => x.banks.any bs.contains)

/-- What a wait for the matrix unit of a stall waits for. -/
def unitEvents (k : Nat) : List Event := [.bankTransferComplete k, .matrixStart k, .matrixComplete k, .followOnHandoff (stallArcade k)]

/-- The wait of R160 for the banks of the pair that the context holds. -/
def waitBanks (s : State) (bs : List (Nat × Nat)) : Except Stop Unit :=
  if banksBusy s (ctxStall s.cur) bs then .error (.wait (unitEvents (ctxStall s.cur))) else .ok ()

/-! Pairs. -/

/-- AACQ (R158). -/
def execAacq (a : GOne) (s : State) : Answer :=
  finish s (do
    s.me.checkG 0 a.x
    let k := ctxStall s.cur
    match s.held s.cur with
    | some p => pure (s.complete a.x (w64 p) 0)
    | none =>
      if pairBudgetSpent s s.cur then pure (s.complete a.x (BitVec.ofInt 64 (-2)) 0)
      else
        match (List.range 4).find? (fun i => ((s.stall k).pair i).holder.isNone && !((s.stall k).pair i).clearing) with
        | some p =>
          pure ((s.updStall k (fun v => v.setPair p { Pair.reset with holder := some s.cur })).complete a.x (w64 p) 0)
        | none => pure (s.complete a.x (BitVec.ofInt 64 (-1)) 0))

/-- AREL (R159). -/
def execArel (s : State) : Answer :=
  finish s (match s.held s.cur with
    | none => .ok s.advance
    | some p => do
      waitBanks s [(p, 0), (p, 1)]
      pure (freePair s (ctxStall s.cur) p).advance)

/-- AZERO (Table 06-5). -/
def execAzero (a : AZero) (s : State) : Answer :=
  finish s (do
    let p ← s.checkA 0 a.x
    waitBanks s [(p, a.x.val)]
    pure (s.updMyStall (fun k =>
      let k1 := setBank k p a.x.val (fun _ => 0)
      k1.setPair p (((k1.pair p).setMode a.x.val a.q56).setScale a.x.val 0x3F800000))).advance)

/-- ASCALE (Table 06-5). -/
def execAscale (a : IG) (s : State) : Answer :=
  finish s (do
    let p ← s.checkA 0 a.x
    s.me.checkG 1 a.y
    waitBanks s [(p, a.x.val)]
    let x : BitVec 32 := BitVec.truncate 32 (s.g a.y)
    pure (s.updMyStall (fun k => k.setPair p ((k.pair p).setScale a.x.val x))).advance)

/-! Rows and vectors (R162, R163). -/

/-- A cell as a value. -/
def cellValue (q56 : Bool) (w : BitVec 56) : FVal := if q56 then FVal.ofInt (signedOf 56 w.toNat) else fa56.decode w.toNat

/-- cell · scale, exactly (R162). -/
def scaledCell (p : Pair) (bank : Nat) (w : BitVec 56) : Flagged FVal :=
  FVal.mul (cellValue (p.mode bank) w) (fp32.decode (p.scale bank).toNat)

/-- An element of AROWV (R162); an infinity or NaN from a q56 bank as R53 has it (log entry 110). -/
def rowElem (t : Fmt) (q56 : Bool) (mode : RMode) (x : Flagged FVal) : Flagged Nat :=
  match t.int? with
  | some signed =>
    if q56 then
      match x.val with
      | .fin n m e =>
        let (k, inexact) := roundInt mode n m e
        let (k', clamped) := saturate k (intLow signed t.width) (intHigh signed t.width)
        ⟨wrapTo t.width k', x.flags ||| flagIf inexact flagIX ||| flagIf clamped flagQS⟩
      | v =>
        let r := convertToInt signed t.width mode v
        ⟨wrapTo t.width r.val, x.flags ||| r.flags⟩
    else
      let r := convertToInt signed t.width mode x.val
      ⟨wrapTo t.width r.val, x.flags ||| r.flags⟩
  | none =>
    match t.float? with
    | some f => encodeFlagged f (f.finish mode x)
    | none => ⟨0, 0⟩

def execArowv (a : IIG) (s : State) : Answer :=
  finish s (do
    s.me.checkV 0 a.x
    let p ← s.checkA 1 a.y
    s.me.checkG 2 a.z
    let t := s.me.vt
    if t.int?.isNone && t != .fp32 && t != .bf16 && t != .fp16 then throw (illcombo 1 0)
    waitBanks s [(p, a.y.val)]
    let z := (s.g a.z).toNat
    let row := bitsOf z 11 6
    let col := bitsOf z 5 0
    let k := s.myStall
    let cells := bankCells k p a.y.val
    let q := (k.pair p).mode a.y.val
    let rs := (List.range (elemCount t)).map (fun i =>
      if 64 ≤ col + i then (⟨0, 0⟩ : Flagged Nat)
      else rowElem t q s.mode (scaledCell (k.pair p) a.y.val (cells.getD (64 * row + col + i) 0)))
    pure (s.completeV a.x ⟨packElems t.width (rs.map (·.val)), rs.foldl (fun f r => f ||| r.flags) 0⟩))

/-- An element as a cell (R163), with the flags of the conversion (log entry 107). -/
def cellOf (t : Fmt) (q56 : Bool) (x : Nat) : Flagged (BitVec 56) :=
  if q56 then
    let (v, clamped) := saturate (intElem (t.int?.getD true) t.width x) (intLow true 56) (intHigh true 56)
    ⟨BitVec.ofNat 56 (wrapTo 56 v), flagIf clamped flagAOS⟩
  else
    let r := fa56.roundVal .rne (fmtValue t x)
    ⟨BitVec.ofNat 56 (fa56.encode r.val), r.flags⟩

def execAvrow (a : IIG) (s : State) : Answer :=
  finish s (do
    let p ← s.checkA 0 a.x
    s.me.checkV 1 a.y
    s.me.checkG 2 a.z
    let t := s.me.vt
    let q := (s.myStall.pair p).mode a.x.val
    if t = .m64 ∨ t = .fa56 ∨ (q = true ∧ t.int?.isNone) then throw (illcombo 1 0)
    waitBanks s [(p, a.x.val)]
    let z := (s.g a.z).toNat
    let at0 := 64 * bitsOf z 11 6 + bitsOf z 5 0
    let n := min (elemCount t) (64 - bitsOf z 5 0)
    let rs := (List.range n).map (fun i => cellOf t q (elem t.width (s.v a.y) i))
    let s1 := s.updMyStall (fun k =>
      let cells := bankCells k p a.x.val
      let new := rs.zipIdx.foldl (fun (m : Array (BitVec 56)) e => m.set! (at0 + e.2) e.1.val) cells
      setBank k p a.x.val (fun i => new.getD i 0))
    pure ((s1.raise s.cur (rs.foldl (fun f r => f ||| r.flags) 0)).advance))

/-! Bank transfers (R161, R203). -/

/-- The addresses of the cells in increasing i, then j, modulo 2⁶⁴ (log entry 128). -/
def cellAddrs (va stride : Nat) : List Nat :=
  (List.range 64).flatMap (fun i => (List.range 64).map (fun j => (va + i * stride + 8 * j) % 2 ^ 64))

/-- The checks of a bank transfer: alignment, then translation, in increasing i and j (R203). -/
def checkTransfer (s : State) (va stride : Nat) (a : Acc) : Except Stop (State × List Tlb) :=
  let l := cellAddrs va stride
  match l.find? (fun x => x % 8 != 0) with
  | some x => .error (alignTrap a.kind x)
  | none => checkAddrs translate s.cur a s [] l

/-- Where an address lies through translations made before (R161, R166). -/
def placeThrough (c : Nat) (ts : List Tlb) (va : Nat) : Place :=
  if windowBase ≤ va then ⟨(windowPa c va).getD 0, false, false, 0, 1⟩
  else
    match ts.find? (fun t => decide (t.vbase ≤ va) && decide (va < t.vbase + t.size)) with
    | some t =>
      let pa := t.pbase + (va - t.vbase)
      ⟨pa, paCached (ctxPkg c) pa t.mtype, t.near, t.key, t.mtype⟩
    | none => ⟨va, false, false, 0, 1⟩

/-- Bytes that an engine of context `c`'s stall reads: SPACE 3 from the L2 of the hall or an L1 of the arcade that owns the line, the
others as a load (R154, R349), which leaves no copy of a line that a Carter has taken; another package's at their home copy. Scales take the path of
their tile (log entry 113). -/
def engineRead (s : State) (c : Nat) (ts : List Tlb) (l2 : Bool) (va n : Nat) : State × List Byte × Bool :=
  let p := placeThrough c ts va
  if isRemote c p || !p.cached then (s, (readNow s c p n).2, isPoisoned s c p n)
  else if l2 then arcadeRead s (ctxArcade c) p n
  else
    let (s1, bs, _) := loadPlace s c p n (if carterHolds s (ctxArcade c) p.key (p.pa / 64) then .nal else .page)
    (s1, bs, isPoisoned s c p n)

/-- Values read at addresses in order, each as it is now or as `early` has it, and the first address whose data is in error. -/
def readValues (tick c : Nat) (ts : List Tlb) (l2 : Bool) (n : Nat) (early : List Nat) (s : State) (vas : List Nat) :
    State × Array Nat × Option Nat :=
  let old := early.toArray
  vas.foldl (fun (p : State × Array Nat × Option Nat) va =>
    let (t, bs, bad) := engineRead p.1 c ts l2 va n
    let i := p.2.1.size
    if decide (i < old.size) && Config.readsEarly tick va then (p.1, p.2.1.push (old.getD i 0), p.2.2)
    else (t, p.2.1.push (leNat bs), if bad then p.2.2.orElse (fun _ => some va) else p.2.2)) (s, #[], none)

/-- The word of a cell in memory (R58). -/
def cellWord (q56 : Bool) (w : BitVec 56) : Nat := if q56 then (BitVec.signExtend 64 w).toNat else w.toNat

/-- Words stored for a context at once, in order: at `.ha` and wider through to the point of the scope (R312). -/
def storeWords (s : State) (c : Nat) (ts : List Tlb) (rel : Option Scope) (policy : Policy) (l : List (Nat × Nat)) : State :=
  l.foldl (fun t e =>
    let p := placeThrough c ts e.1
    let bs := leBytes 8 e.2
    let q : QStore := ⟨e.1, p, bs, rel.isSome, rel.getD .th, policy, none⟩
    let t1 := if rel.isSome && Scope.le .ha q.scope then performThrough t c q else performAt t c q
    t1.updCtx c (fun v => { v with tbm := v.tbm ||| tbmBit c p })) s

/-- A bank store: the words are read at issue and stored, with the release its ORD asks for (R116, R161). -/
def runBankStore (s : State) (va stride : Nat) (ord : Option OrdQ) (words : State → List Nat) (flags : FlagSet) : Except Stop State := do
  let (s1, ts) ← checkTransfer s va stride ⟨1, true, false, !s.me.pl⟩
  let l := (cellAddrs va stride).zip (words s)
  let c := s.cur
  match releaseOf ord with
  | none => do
    let s2 ← settled s1 c
    pure ((storeWords s2 c ts none (policyOf ord) l).raise c flags).advance
  | some sc =>
    withRelease s1 sc (engineOf ord) (fun s2 =>
      let s3 := (storeWords s2 c ts (some sc) (policyOf ord) l).raise c flags
      if Scope.le .ha sc && l.any (fun e => isRemote c (placeThrough c ts e.1)) then
        .ok (s3.upd (fun v => { v with wait := .posted (sc == .sy) }))
      else .ok s3.advance)

/-- A bank load starts: its banks are busy until the transfer completes. Words of another package are not read before the stores that the
context has posted are performed there (R161); one that acquires, and reads all of them at once, waits for that. -/
def runBankLoad (s : State) (x : Transfer) (ord : Option OrdQ) : Except Stop State := do
  let (s1, ts) ← checkTransfer s x.va x.stride ⟨0, false, false, !s.me.pl⟩
  let c := s.cur
  let l := cellAddrs x.va x.stride
  match l.find? (fun va => isPoisoned s1 c (placeThrough c ts va) 8) with
  | some va => throw (.trap ((⟨0, false, false, !s.me.pl⟩ : Acc).ecc va false))
  | none =>
    let s2 ← settledLoad s1 c
    let behind := s2.me.posted != 0 && l.any (fun va => isRemote c (placeThrough c ts va))
    let acquires := (acquireScope ord).isSome
    if behind && acquires then throw (.wait [.storePerform c])
    let s3 := acquireOf s2 ord
    let (s4, ws, _) := readValues s3.tick c ts false 8 [] s3 l
    let y : Transfer := { x with trans := ts, early := if behind then [] else ws.toList, acquires := acquires }
    pure (((if y.acquires then s4 else s3).updMyStall (fun k => { k with transfers := k.transfers ++ [y] })).cause
      (.bankTransferComplete (ctxStall c))).advance

/-- The first address and the row pitch of a bank transfer. -/
def transferBase (s : State) (y : GReg) (imm : Word) : Nat := (s.g y + imm).toNat
def transferPitch (s : State) (z : Option GReg) : Nat :=
  match z with
  | some r => (s.g r).toNat
  | none => 512

def execAload (a : AMem) (s : State) : Answer :=
  finish s (do
    let p ← s.checkA 0 a.x
    s.me.checkG 1 a.y
    s.me.checkZ a.z
    waitBanks s [(p, a.x.val)]
    runBankLoad s ⟨s.cur, p, a.x.val, false, transferBase s a.y a.imm, transferPitch s a.z, [], [], false⟩ a.ord)

def execAstore (a : AMem) (s : State) : Answer :=
  finish s (do
    let p ← s.checkA 0 a.x
    s.me.checkG 1 a.y
    s.me.checkZ a.z
    waitBanks s [(p, a.x.val)]
    runBankStore s (transferBase s a.y a.imm) (transferPitch s a.z) a.ord
      (fun t => ((bankCells t.myStall p a.x.val).map (cellWord ((t.myStall.pair p).mode a.x.val))).toList) 0)

/-- The m64 word of a cell pair (R203), with the flags of its scaling, IV among them (log entry 129). -/
def momentWord (p : Pair) (m v : BitVec 56) : Flagged Nat :=
  let a := fp32.finish .rne (scaledCell p 0 m)
  let b := fp32.finish .rne (scaledCell p 1 v)
  let r := runSteps (fixVar b.val)
  ⟨encodeMoment ⟨a.val, r.val⟩, a.flags ||| b.flags ||| r.flags⟩

def momentWords (s : State) (p : Nat) : List (Flagged Nat) :=
  let k := s.myStall
  List.zipWith (momentWord (k.pair p)) (bankCells k p 0).toList (bankCells k p 1).toList

/-- MASTM and MALDM name the held pair as a whole (R186). -/
def checkPair (s : State) : Except Stop Nat := s.checkA 0 0

def execMastm (a : PMem) (s : State) : Answer :=
  finish s (do
    let p ← checkPair s
    s.me.checkG 1 a.y
    s.me.checkZ a.z
    waitBanks s [(p, 0), (p, 1)]
    let ws := momentWords s p
    runBankStore s (transferBase s a.y a.imm) (transferPitch s a.z) a.ord (fun _ => ws.map (·.val))
      (ws.foldl (fun f w => f ||| w.flags) 0))

def execMaldm (a : PMem) (s : State) : Answer :=
  finish s (do
    let p ← checkPair s
    s.me.checkG 1 a.y
    s.me.checkZ a.z
    let pr := s.myStall.pair p
    if pr.q0 || pr.q1 then throw (illcombo 7 0)
    waitBanks s [(p, 0), (p, 1)]
    runBankLoad s ⟨s.cur, p, 0, true, transferBase s a.y a.imm, transferPitch s a.z, [], [], false⟩ a.ord)

/-! Tile registers (R172). -/

def execTset (a : IGG) (s : State) : Answer :=
  finish s (do
    checkT 0 a.x
    s.me.checkG 1 a.y
    s.me.checkZ a.z
    pure (s.upd (fun v =>
      let t1 := setHalf (v.tile a.x.val) 0 (s.g a.y)
      v.setTile a.x.val (match a.z with
        | some z => setHalf t1 1 (s.g z)
        | none => t1))).advance)

/-- TGET (R172); where Y and Z are one register the high half stays (log entry 112). -/
def execTget (a : IGG) (s : State) : Answer :=
  finish s (do
    checkT 0 a.x
    s.me.checkG 1 a.y
    s.me.checkZ a.z
    let c := s.cur
    let t := s.me.tile a.x.val
    let s1 := s.putG c a.y (half128 t 0)
    let s2 := match a.z with
      | some z => s1.putG c z (half128 t 1)
      | none => s1
    pure (s2.upd (fun v => { v with lat := half128 t 0 })).advance)

def setBase (w : Word128) (d : Int) : Word128 :=
  BitVec.ofNat 128 (w.toNat / 2 ^ 57 * 2 ^ 57 + (((w.toNat % 2 ^ 57 : Nat) : Int) + d).toNat % 2 ^ 57)

/-- BASE moves by a signed number of bytes, modulo 2⁵⁷. -/
def moveBase (w : Word128) (d : Int) : Word128 := setBase w (d % 2 ^ 57)

def execTadv (a : TAdv) (s : State) : Answer :=
  finish s (do
    checkT 0 a.x
    s.me.checkG 1 a.y
    s.me.checkZ a.z
    let w := s.me.tile a.x.val
    let t := tileOf w
    let y := (s.g a.y).toInt
    match a.z with
    | none => pure (s.upd (fun v => v.setTile a.x.val (moveBase w (y + a.imm.toInt)))).advance
    | some z =>
      if t.fmt = .fa56 then throw (illcombo 1 0)
      let d := (y * t.stride + (s.g z).toInt) * t.size + a.imm.toInt
      pure (s.upd (fun v => v.setTile a.x.val (moveBase w d))).advance)

/-- Replace 7 bits of a descriptor. -/
def setSeven (w : Word128) (lo x : Nat) : Word128 :=
  BitVec.ofNat 128 (w.toNat - w.toNat / 2 ^ lo % 128 * 2 ^ lo + x % 128 * 2 ^ lo)

def execTshape (a : IGG) (s : State) : Answer :=
  finish s (do
    checkT 0 a.x
    s.me.checkG 1 a.y
    s.me.checkZ a.z
    let w := setSeven (s.me.tile a.x.val) 64 (s.g a.y).toNat
    let w' := match a.z with
      | some z => setSeven w 71 (s.g z).toNat
      | none => w
    pure (s.upd (fun v => v.setTile a.x.val w')).advance)

/-! Acceptance (R156, R166). -/

/-- The checks of MMA and MMAM on two tiles and a pair (R156, R165, R202); the translations made. -/
def checkMma (tr : Translator) (mmam : Bool) (s : State) (c pair bank : Nat) (a b : Tile) (sclp : Word) :
    Except Stop (State × List Tlb) :=
  let p := (s.stall (ctxStall c)).pair pair
  match if mmam then mmamPairing a.fmt b.fmt else mmaPairing a.fmt b.fmt with
  | none => .error (illcombo 1 0)
  | some q =>
    if a.cols ≠ b.rows ∨ a.cols % groupSize a.fmt b.fmt ≠ 0 then .error (illcombo 2 0)
    else if (mmam && (p.q0 || p.q1)) || (!mmam && p.mode bank != q) then .error (illcombo 7 0)
    else if mmam && (s.ctx c).mmode != 0 then .error (illcombo 9 0)
    else
      let ua : TileUse := ⟨1, a, a.rows, a.cols, q, false⟩
      let ub : TileUse := ⟨2, b, b.cols, a.cols, q, false⟩
      match ua.combo, ub.combo with
      | .error e, _ => .error e
      | _, .error e => .error e
      | .ok _, .ok _ => checkTiles tr s c sclp [ua, ub]

def queueOf (k : Stall) (high : Bool) : List Cmd := if high then k.high else k.low

/-- The lists of addresses that a command reads, with how: through the tile fetch unit or as loads, and how many bytes (R153, R155): an
MMA the elements and scales of A, then of B; MCHOL the lower triangle of its tile; a triangular solve the triangle it needs and Y;
MRFN A, the lower triangle of L, b and x (R176 to R178). -/
def Cmd.reads (x : Cmd) : List (Bool × Nat × List Nat) :=
  let a := tileOf x.a
  let b := tileOf x.b
  let all (t : Tile) : Bool × Nat × List Nat := (false, 4, t.logical (fun _ _ => true))
  let scales (t : Tile) (lines k : Nat) : Bool × Nat × List Nat := (t.space == 3, t.scaleSize, t.scaleAddrs x.sclp lines k)
  match x.kind with
  | .mma _ | .mmam =>
    [(a.space == 3, a.size, a.logical (fun _ _ => true)), scales a a.rows a.cols,
     (b.space == 3, b.size, b.logical (fun _ _ => true)), scales b b.cols b.rows]
  | .chol => [(false, 4, a.logical (fun r c => decide (c ≤ r)))]
  | .trsl => [(false, 4, a.logical (fun r c => decide (c ≤ r))), all b]
  | .trsu => [(false, 4, a.logical (fun r c => decide (r ≤ c))), all b]
  | .rfn => [all a, (false, 4, (tileOf x.a2).logical (fun r c => decide (c ≤ r))), all b, all (tileOf x.b2)]

/-- What the reads of a command would find now, list by list; a list that reaches another package, to which its context has posted stores
that are not performed there yet, is read at completion alone (R167). -/
def snapshot (s : State) (x : Cmd) : List (List Nat) :=
  x.reads.map (fun r =>
    if (s.ctx x.ctx).posted != 0 && r.2.2.any (fun va => isRemote x.ctx (placeThrough x.ctx x.trans va)) then []
    else (readValues s.tick x.ctx x.trans r.1 r.2.1 [] s r.2.2).2.1.toList)

/-- A command enters its class queue (R166). -/
def enterQueue (s : State) (k : Nat) (x : Cmd) : State :=
  let y : Cmd := { x with early := snapshot s x }
  (s.updStall k (fun v => if x.high then { v with high := v.high ++ [y] } else { v with low := v.low ++ [y] })).cause (.matrixStart k)

/-- A checked command of the running context is accepted when its queue has a slot, its earlier stores performed (R166, R167). -/
def acceptCmd (s : State) (x : Cmd) : Except Stop State :=
  let k := ctxStall s.cur
  if 4 ≤ (queueOf (s.stall k) x.high).length then .error (.wait (unitEvents k))
  else (settled s s.cur).map (fun s1 => enterQueue s1 k { x with seq := s.tick })

def newCmd (s : State) (kind : CmdKind) (high : Bool) (pair bank : Nat) (a b : Word128) (ts : List Tlb) : Cmd :=
  { seq := s.tick, kind := kind, high := high, ctx := s.cur, pair := pair, bank := bank, a := a, b := b, a2 := 0, b2 := 0, zval := 0,
    sclp := s.me.sclp, dest := none, trans := ts, early := [] }

/-- The MMA family (R164 to R166). -/
def runMma (zero high : Bool) (a : ITri) (s : State) : Answer :=
  finish s (do
    let p ← s.checkA 0 a.x
    checkT 1 a.y
    checkT 2 a.z
    let ta := s.me.tile a.y.val
    let tb := s.me.tile a.z.val
    let (s1, ts) ← checkMma translate false s s.cur p a.x.val (tileOf ta) (tileOf tb) s.me.sclp
    let s2 ← acceptCmd s1 (newCmd s1 (.mma zero) high p a.x.val ta tb ts)
    pure s2.advance)

def execMma (a : ITri) (s : State) : Answer := runMma false false a s
def execMmaz (a : ITri) (s : State) : Answer := runMma true false a s
def execMmah (a : ITri) (s : State) : Answer := runMma false true a s
def execMmazh (a : ITri) (s : State) : Answer := runMma true true a s

/-- MMAM (R200 to R202). -/
def execMmam (a : II) (s : State) : Answer :=
  finish s (do
    let p ← checkPair s
    checkT 1 a.x
    checkT 2 a.y
    let ta := s.me.tile a.x.val
    let tb := s.me.tile a.y.val
    let (s1, ts) ← checkMma translate true s s.cur p 0 (tileOf ta) (tileOf tb) s.me.sclp
    let s2 ← acceptCmd s1 (newCmd s1 .mmam false p 0 ta tb ts)
    pure s2.advance)

/-- A context's outstanding commands of a class (R173, R354). -/
def outstandingOf (s : State) (c : Nat) (high : Bool) : Nat := countFor s c high + handedFor s c high

/-- MWAIT (R173). -/
def execMwait (a : GOne) (s : State) : Answer :=
  finish s (do
    s.me.checkG 0 a.x
    if outstandingOf s s.cur false + outstandingOf s s.cur true ≤ (s.g a.x).toNat then pure s.advance
    else throw (.wait (unitEvents (ctxStall s.cur))))

/-- The status word of Table 06-9. -/
def statusWord (s : State) (c : Nat) : Nat :=
  let k := s.stall (ctxStall c)
  let held := match k.heldBy c with
    | some p => (if (k.pair p).q1 then 2 ^ 12 else 0) + (if (k.pair p).q0 then 2 ^ 11 else 0) + 2 ^ 10 + p * 2 ^ 8
    | none => 0
  k.low.length * 2 ^ 20 + k.high.length * 2 ^ 16 + held + outstandingOf s c false % 16 * 2 ^ 4 + outstandingOf s c true % 16

def execMstat (a : GOne) (s : State) : Answer :=
  finish s (do
    s.me.checkG 0 a.x
    pure (s.complete a.x (w64 (statusWord s s.cur)) 0))

/-! Solvers (R175). -/

/-- The lowest of reasons 4, 5, 6 and 8 that applies to a solver's operand. -/
def solverCombo (u : TileUse) (shape : Bool) : Except Stop Unit :=
  if !u.tile.spaceOk then .error (illcombo 4 u.oper)
  else if u.tile.dir && u.tile.space != 1 then .error (illcombo 5 u.oper)
  else if u.tile.smode ≠ 0 then .error (illcombo 6 u.oper)
  else if u.tile.fmt ≠ .fp32 ∨ (u.tile.space ≠ 1 ∧ u.tile.space ≠ 2) ∨ !shape then .error (illcombo 8 u.oper)
  else .ok ()

def solverUse (oper : Nat) (t : Tile) (writes : Bool) : TileUse := ⟨oper, t, 0, 0, true, writes⟩

/-- A solver is accepted when its tiles pass the checks, tile by tile (log entry 111), and its context issues no more until it completes. -/
def acceptSolver (s : State) (us : List (TileUse × Bool)) (mk : List Tlb → Cmd) : Except Stop State := do
  us.forM (fun e => solverCombo e.1 e.2)
  let (s1, ts) ← checkTiles translate s s.cur 0 (us.map (·.1))
  let s2 ← acceptCmd s1 (mk ts)
  pure (s2.advance.upd (fun v => { v with wait := .solver }))

def execMchol (a : MChol) (s : State) : Answer :=
  finish s (do
    checkT 0 a.x
    s.me.checkZ a.z
    let w := s.me.tile a.x.val
    let t := tileOf w
    acceptSolver s [(solverUse 0 t true, t.rows == t.cols && decide (t.rows ≤ 64))]
      (fun ts => { newCmd s .chol false 4 0 w 0 ts with dest := a.z }))

def runTriangle (kind : CmdKind) (a : II) (s : State) : Answer :=
  finish s (do
    checkT 0 a.x
    checkT 1 a.y
    let wx := s.me.tile a.x.val
    let wy := s.me.tile a.y.val
    let x := tileOf wx
    let y := tileOf wy
    acceptSolver s [(solverUse 0 x false, x.rows == x.cols), (solverUse 1 y true, y.rows == x.rows && decide (y.cols ≤ 64))]
      (fun ts => newCmd s kind false 4 0 wx wy ts))

def execMtrsl (a : II) (s : State) : Answer := runTriangle .trsl a s
def execMtrsu (a : II) (s : State) : Answer := runTriangle .trsu a s

def execMrfn (a : IIG) (s : State) : Answer :=
  finish s (do
    checkT 0 a.x
    checkT 1 a.y
    s.me.checkG 2 a.z
    let wa := s.me.tile a.x.val
    let wl := s.me.tile (a.x.val + 1)
    let wb := s.me.tile a.y.val
    let wx := s.me.tile (a.y.val + 1)
    let ta := tileOf wa
    let tl := tileOf wl
    let tb := tileOf wb
    let tx := tileOf wx
    acceptSolver s
      [(solverUse 0 ta false, ta.rows == ta.cols), (solverUse 0 tl false, tl.rows == ta.rows && tl.cols == ta.rows),
       (solverUse 1 tb false, tb.rows == ta.rows && decide (tb.cols ≤ 8)),
       (solverUse 1 tx true, tx.rows == ta.rows && tx.cols == tb.cols)]
      (fun ts => { newCmd s .rfn false 4 0 wa wb ts with a2 := wl, b2 := wx, zval := s.g a.z, dest := some a.z }))

end Sys2Proof.Machine
end

