-- ==== Sys2Proof/Machine/Counters.lean ====
section
/-! DEFINITION. The device's accesses to frames, counters and queues, join counters (R224, R225), frames and counter slots (R228), the
overflow queue and the return buffer (R235, R236). -/

namespace Sys2Proof.Machine

/-! The device's accesses: KIND 5, performed at the home copy or the storage itself, so that every context sees them (log entry 16). -/

def devAcc (writes user : Bool) : Acc := ⟨5, writes, false, user⟩

/-- Bytes within one 64-byte line, for a context; registers and devices as a load or a store of the program reaches them (log entry
9). -/
def devRead (s : State) (c : Nat) (p : Place) (n : Nat) : State × List Byte :=
  if isDevice p.pa then (s, leBytes n (Config.deviceRead p.pa n s.tick))
  else match storageOf p.pa with
  | .hallRegs h off => (s, hallRegBytes s h off n)
  | _ =>
    if isRemote c p then (s, homeBytes s p.key p.pa n)
    else
      let (s1, bs, _, _) := atomLocal s c p .pk n (fun _ => ⟨none, 0⟩)
      (s1, bs)
def devWrite (s : State) (c : Nat) (p : Place) (bs : List Byte) : State :=
  if isDevice p.pa then s
  else match storageOf p.pa with
  | .hallRegs h off => writeHallRegBytes s h off bs
  | _ =>
    if isRemote c p then writeHome s p.key p.pa bs
    else (atomLocal s c p .pk bs.length (fun _ => ⟨some (leNat bs), 0⟩)).1

/-- The pieces of [va, va + n) that lie in one 64-byte line each. -/
def linePieces : Nat → Nat → Nat → List (Nat × Nat)
  | 0, _, _ => []
  | k + 1, va, n =>
    let m := min n (64 - va % 64)
    if n = 0 then [] else (va, m) :: linePieces k (va + m) (n - m)
def pieces (va n : Nat) : List (Nat × Nat) := linePieces (n / 64 + 2) va n

/-- Check every line of a range. -/
def checkSpan (tr : Translator) (a : Acc) (s : State) (va n : Nat) : Except Stop State :=
  (pieces va n).foldlM (fun t e => do
    let (t1, _) ← tr t e.1 a
    pure t1) s

/-- Read a range: the bytes, and the first address of an uncorrectable error. -/
def readSpan (tr : Translator) (c : Nat) (a : Acc) (s : State) (va n : Nat) : Except Stop (State × List Byte × Option Nat) :=
  (pieces va n).foldlM (fun p e => do
    let (t1, l) ← tr p.1 e.1 a
    let (t2, bs) := devRead t1 c l.place e.2
    pure (t2, p.2.1 ++ bs, p.2.2.orElse (fun _ => if isPoisoned t1 c l.place e.2 then some e.1 else none))) (s, [], none)

/-- Write a range. -/
def writeSpan (tr : Translator) (c : Nat) (a : Acc) (s : State) (va : Nat) (bs : List Byte) : Except Stop State :=
  (pieces va bs.length).foldlM (fun t e => do
    let (t1, l) ← tr t e.1 a
    pure (devWrite t1 c l.place ((bs.drop (e.1 - va)).take e.2))) s

/-- A number read from a frame or a queue, and one written to it. -/
def readWord (tr : Translator) (c : Nat) (user : Bool) (s : State) (va n : Nat) : Except Stop (State × Nat) := do
  let (t, bs, _) ← readSpan tr c (devAcc false user) s va n
  pure (t, leNat bs)
def writeWord (tr : Translator) (c : Nat) (user : Bool) (s : State) (va n x : Nat) : Except Stop State :=
  writeSpan tr c (devAcc true user) s va (leBytes n x)

/-- Issued stores of the running context go before what the device does for it. -/
def settle (s : State) : Except Stop State := settled s s.cur

/-- A translation under a PTBR and key table of its own, for an engine that stands where context `c` does; no TLB takes part. -/
def translateAs (s : State) (c : Nat) (ptbr keyt : Word) (va : Nat) (a : Acc) : Except Trap (State × Located) :=
  if 2 ^ 57 ≤ va then .error (a.page va 0 0 true)
  else if windowBase ≤ va then (throughWindow s c a va).map (fun l => (s, l))
  else if !rootOk ptbr then .error (a.page va 3 1)
  else
    match walkLeaf s c ptbr keyt va a with
    | .error t => .error t
    | .ok (s1, t) => (throughTlb s1 c t a va).map (fun l => (s1, l))

/-- The engines of a package stand at its context 0 (log entry 17). -/
def pkgCtx (p : Nat) : Nat := p * 32768
def Region.keyt (r : Region) : Word := w64 (r.rcb + 0x50)
def regionTranslator (r : Region) (pkg : Nat) : Translator := fun s va a =>
  match translateAs s (pkgCtx pkg) r.ptbr r.keyt va a with
  | .ok x => .ok x
  | .error t => .error (.trap t)

/-! The join scope (R226). -/

/-- The arcades of a set. -/
def asetArcades (w : BitVec 64) : List Nat := (List.range 64).filter (fun a => w.getLsbD a)
/-- The narrowest scope that contains arcades of one package. -/
def arcadesScope (l : List Nat) : Scope :=
  match l with
  | [] => .ac
  | a :: r => if r.all (· == a) then .ac else if r.all (fun b => gridHall b == gridHall a) then .ha else .pk
def Region.joinScope (r : Region) : Scope := if bitOf r.barrow.toNat 13 then .sy else arcadesScope (asetArcades r.aset)
/-- J for a context; one that is bound to no region stands alone in its arcade (log entry 17). -/
def joinScopeOf (s : State) (c : Nat) : Scope := ((s.regionOf c).map Region.joinScope).getD .ac

/-! Join counters. -/

/-- The operations of Table 10-4. -/
inductive CounterOp
  | jinc | jdec | jdead | jadd (n : Int) | jsus | jcall | jcas | jmark | jinit
  deriving DecidableEq, Repr
/-- Their results. -/
inductive CounterResult
  | none | resume | release | under | zero | wait | value (n : Nat)
  deriving DecidableEq, Repr

/-- The fields of Table 10-3. -/
structure JoinCounter where
  count : Nat
  cas : Nat
  s : Bool
  d : Bool
  deriving DecidableEq, Repr
def JoinCounter.of (w : Nat) : JoinCounter := ⟨w % 2 ^ 32, bitsOf w 47 32, bitOf w 48, bitOf w 49⟩
def JoinCounter.word (j : JoinCounter) : Nat :=
  j.count + j.cas * 2 ^ 32 + (if j.s then 2 ^ 48 else 0) + (if j.d then 2 ^ 49 else 0)

/-- The result of a DEC-type operation, S cleared on RESUME (R225). -/
def JoinCounter.settled (j : JoinCounter) : JoinCounter × CounterResult :=
  if j.count = 0 ∧ j.s then ({ j with s := false }, .resume)
  else if j.count = 0 ∧ j.d then (j, .release)
  else (j, .none)

/-- Table 10-4. -/
def applyCounter (op : CounterOp) (j : JoinCounter) : JoinCounter × CounterResult :=
  match op with
  | .jinc => ({ j with count := (j.count + 1) % 2 ^ 32 }, .none)
  | .jdec => if j.count = 0 then (j, .under) else { j with count := j.count - 1 }.settled
  | .jdead => if j.count = 0 then (j, .under) else { j with count := j.count - 1, cas := min (j.cas + 1) 0xFFFF }.settled
  | .jadd n =>
    let x := (j.count : Int) + n
    if x < 0 ∨ 2 ^ 32 ≤ x then (j, .under)
    else if 0 ≤ n then ({ j with count := x.toNat }, .none)
    else { j with count := x.toNat }.settled
  | .jsus => if j.count = 0 then (j, .zero) else ({ j with s := true }, .wait)
  | .jcall => ({ j with count := (j.count + 1) % 2 ^ 32, s := true }, .none)
  | .jcas => ({ j with cas := 0 }, .value j.cas)
  | .jmark => ({ j with d := true }, if j.count = 0 then .release else .none)
  | .jinit => (⟨0, 0, false, false⟩, .none)

/-- The counter region of a scratchpad (R224): its arcade and slot. -/
def counterSlot (pa : Nat) : Option (Nat × Nat) :=
  match storageOf pa with
  | .scratch ak off => if off < 2 ^ 16 ∧ off % 8 = 0 then some (ak, off / 8) else none
  | _ => none
def counterArcade (pa : Nat) : Nat := ((counterSlot pa).map (·.1)).getD 0
def readCounter (s : State) (pa : Nat) : JoinCounter := JoinCounter.of (leNat (homeBytes s 0 pa 8))

/-- An operation at the counter's bank, whole (R224). -/
def counterOp (s : State) (pa : Nat) (op : CounterOp) : State × CounterResult :=
  let (j, r) := applyCounter op (readCounter s pa)
  (putBytes s pa (leBytes 8 j.word), r)

/-- A context, or the device for it, acts on a counter (R224): in another arcade as its message is delivered there; the reply follows,
and an instruction is complete when it has come (R227). -/
def atCounter (who : Turn) (s : State) (c pa : Nat) : Except Stop State := do
  let ak := counterArcade pa
  let s1 ← visit who s c ak .counterOp
  let reply (t : State) (act : Effect) : State :=
    sendTo t ak (ctxArcade c) (newMessage t (some (ctxStall c)) (t.ctx c).ttag.toNat (ctxStall c) .counterReply act)
  pure (if ak = ctxArcade c then s1
    else match who with
      | .issue _ => (reply s1 (.answer c s1.tick)).updCtx c (fun v => { v with wait := .answer s1.tick none })
      | _ => reply s1 .none)

/-- A value that an instruction reads at a counter goes to its register: from another arcade with the reply (R227, R393). -/
def putReply (s : State) (pa : Nat) (x : GReg) (w : Word) : State :=
  if counterArcade pa = ctxArcade s.cur then s.writeG s.cur x w
  else match s.me.wait with
    | .answer sent _ => s.upd (fun v => { v with wait := .answer sent (some (x, w)) })
    | _ => s.writeG s.cur x w

/-- The reply to a counter operation arrives: its instruction is complete. -/
def arriveReply (s : State) (c sent : Nat) : State :=
  match (s.ctx c).wait with
  | .answer n value =>
    if n ≠ sent then s
    else
      let s1 := s.updCtx c (fun v => { v with wait := .none })
      match value with
      | some (x, w) => s1.writeG c x w
      | none => s1
  | _ => s

/-- An operation that an instruction of a context makes, and one that an event makes for a context. -/
def turnOp (who : Turn) (s : State) (c pa : Nat) (op : CounterOp) : Except Stop (State × CounterResult) := do
  let s1 ← atCounter who s c pa
  pure (counterOp s1 pa op)
def contextOp (s : State) (c pa : Nat) (op : CounterOp) : Except Stop (State × CounterResult) := turnOp (.issue c) s c pa op
def eventOp (e : Event) (s : State) (c pa : Nat) (op : CounterOp) : Except Stop (State × CounterResult) := turnOp (.event e) s c pa op

/-- The return buffer of the counter's arcade is full, so that an operation that would return RESUME is held unperformed (R236). -/
def counterHeld (s : State) (pa : Nat) (op : CounterOp) : Bool :=
  (applyCounter op (readCounter s pa)).2 == .resume && decide (16 ≤ (s.arcade (counterArcade pa)).returns.length)

/-- An operation that may return RESUME: held unperformed while the return buffer of its arcade is full (R236). -/
def contextDec (s : State) (c pa : Nat) (op : CounterOp) : Except Stop (State × CounterResult) := do
  let s1 ← atCounter (.issue c) s c pa
  if counterHeld s1 pa op then throw (.wait [.counterReoffer (counterArcade pa)])
  pure (counterOp s1 pa op)

/-- Where a counter named by an address lies: 8-byte aligned and in a counter region (R224, R227); a user may name it (Table 13-4). -/
def locateCounter (tr : Translator) (s : State) (writes user : Bool) (va : Nat) : Except Stop (State × Nat) := do
  if va % 8 ≠ 0 then throw (alignTrap 5 va)
  let a : Acc := { devAcc writes user with wide := true }
  let (s1, l) ← tr s va a
  if (counterSlot l.place.pa).isNone then throw (.trap (a.prot va l.level 7))
  pure (s1, l.place.pa)

/-- The continuation that a counter suspends is known at its bank (Table 10-2). -/
def suspendAt (s : State) (pa : Nat) (e : Entry) (rcb : Nat) : State :=
  match counterSlot pa with
  | some (ak, i) => s.updArcade ak (fun a => { a with suspended := Store.put a.suspended i (e, rcb) })
  | none => s
/-- A RESUME passes it on, once. -/
def unsuspend (s : State) (pa : Nat) : State × Option (Entry × Nat) :=
  match counterSlot pa with
  | some (ak, i) =>
    (s.updArcade ak (fun a => { a with suspended := Store.del a.suspended i }), (s.arcade ak).suspended.lookup i)
  | none => (s, none)

/-! Frames (R228). -/

/-- The size FALLOC rounds to. -/
def roundFrame (n : Nat) : Nat := max 128 ((n + 63) / 64 * 64)

/-- Frames that share the pool's address space with a region. -/
def framesNear (s : State) (pkg : Nat) (r : Region) : List Frame :=
  (s.pkg pkg).frames.filter (fun f => ((s.region pkg f.rcb).map (·.ptbr)) == some r.ptbr)

def poolBase (r : Region) : Nat := bitsOf r.fpool.toNat 56 12 * 4096
def poolSize (r : Region) : Nat := r.fpool.toNat % 2 ^ 12 * 2 ^ 16

/-- [a, a + n) lies in the pool and overlaps no frame. -/
def poolFits (r : Region) (fs : List Frame) (n a : Nat) : Bool :=
  decide (poolBase r ≤ a) && decide (a + n ≤ poolBase r + poolSize r) &&
    fs.all (fun f => decide (f.addr + f.size ≤ a) || decide (a + n ≤ f.addr))

/-- Where a frame of `n` bytes is taken: a place that is a multiple of `n` from the pool's base, from a free one on, so that frames of
one size fill the pool; else the first border that fits (R228, R272; log entry 6). -/
def findFrame (s : State) (pkg : Nat) (r : Region) (n : Nat) : Option Nat :=
  let fs := framesNear s pkg r
  let m := poolSize r / n
  let places := (List.range m).map (fun i => poolBase r + (Config.freeFrame s.tick + i) % m * n)
  let borders := (poolBase r :: fs.map (fun f => f.addr + f.size)).mergeSort (fun a b => decide (a ≤ b))
  (places ++ borders).find? (poolFits r fs n)

/-- A free counter slot of an arcade, from a free starting place on (log entry 6). -/
def findSlotFrom (used : List (Nat × Nat)) : Nat → Nat → Option Nat
  | 0, _ => none
  | n + 1, i => if (used.lookup i).isNone then some i else findSlotFrom used n ((i + 1) % 8192)
def findSlot (s : State) (ak : Nat) : Option Nat :=
  findSlotFrom (s.arcade ak).slots 8192 (Config.freeSlot s.tick % 8192)

def slotPa (ak i : Nat) : Nat := scratchBase ak + 8 * i

/-- A frame of `n` bytes for a region, its counter in arcade `ak`: the state with header and counter written, and the frame; `none`
when the pool or the slots are exhausted. -/
def allocFrame (tr : Translator) (s : State) (c : Nat) (user falloc : Bool) (pkg : Nat) (r : Region) (ak n : Nat) :
    Except Stop (Option (State × Frame)) :=
  if 65536 < n then .ok none
  else
    match findFrame s pkg r n, findSlot s ak with
    | some a, some i => do
      let f : Frame := ⟨a, n, r.rcb, slotPa ak i, falloc⟩
      let own := r.spmap + ak % 64 * 2 ^ 22 + 8 * i
      let s1 ← writeSpan tr c (devAcc true user) s a (leBytes 16 0 ++ leBytes 8 own ++ leBytes 104 0)
      let s2 := putBytes s1 (slotPa ak i) (leBytes 8 0)
      let s3 := s2.updArcade ak (fun v => { v with slots := Store.put v.slots i a })
      .ok (some (s3.updPkg pkg (fun p => { p with frames := p.frames ++ [f] }), f))
    | _, _ => .ok none

/-- A counter slot returns to its pool. -/
def releaseSlot (s : State) (pa : Nat) : State :=
  match counterSlot pa with
  | some (ak, i) => s.updArcade ak (fun a => { a with slots := Store.del a.slots i, suspended := Store.del a.suspended i })
  | none => s
/-- A frame returns to its pool, and the counter at `pa` to its own. -/
def releaseWith (s : State) (pkg : Nat) (f : Frame) (pa : Nat) : State :=
  releaseSlot (s.updPkg pkg (fun p => { p with frames := p.frames.filter (· != f) })) pa
/-- A frame and its counter slot return to their pools. -/
def releaseFrame (s : State) (pkg : Nat) (f : Frame) : State := releaseWith s pkg f f.counter

/-- The frame whose counter lies at an address, and its release (RELEASE of R225). A frame that no pool gave stays software's. -/
def frameOfCounter (s : State) (pa : Nat) : Option Frame := (s.pkg (pkgOf pa)).frames.find? (fun f => f.counter == pa)
def releaseByCounter (s : State) (pa : Nat) : State :=
  match frameOfCounter s pa with
  | some f => releaseFrame s (pkgOf pa) f
  | none => s

/-- The frame at an address in the address space of a context. -/
def frameAt (s : State) (c addr : Nat) : Option Frame :=
  (s.pkg (ctxPkg c)).frames.find? (fun f =>
    f.addr == addr && (f.rcb == (s.ctx c).rcbp.toNat ||
      ((s.region (ctxPkg c) f.rcb).map (·.ptbr)) == some (s.ctx c).ptbr))
/-- The size of a frame; one that no pool gave is taken as 128 bytes (R375). -/
def frameSize (s : State) (c addr : Nat) : Nat := ((frameAt s c addr).map (·.size)).getD 128

/-! The overflow queue (Table 10-7). -/

/-- A continuation entry as bits (Table 10-1). -/
def Entry.bits (e : Entry) : Nat :=
  (if e.spilled then 1 else 0) + e.aff % 4 * 2 + e.nt % 8 * 8 + e.frame / 64 * 64 % 2 ^ 57 + e.rpc % 2 ^ 57 * 2 ^ 64
def Entry.ofBits (n : Nat) : Entry := ⟨bitsOf n 120 64, bitsOf n 56 6 * 64, bitsOf n 5 3, bitsOf n 2 1, bitOf n 0⟩

structure QueueHead where
  head : Nat
  tail : Nat
  cap : Nat
  lwm : Nat
  deriving DecidableEq, Repr
def QueueHead.used (q : QueueHead) : Nat := (q.tail + 2 ^ 64 - q.head) % 2 ^ 64
def QueueHead.free (q : QueueHead) : Nat := q.cap - q.used

/-- The header of a queue, read by the device. -/
def readQueue (tr : Translator) (c : Nat) (user : Bool) (s : State) (ovq : Nat) : Except Stop (State × QueueHead) := do
  let (s1, bs, _) ← readSpan tr c (devAcc false user) s ovq 32
  let n := leNat bs
  pure (s1, ⟨bitsOf n 63 0, bitsOf n 127 64, bitsOf n 191 128, bitsOf n 255 192⟩)

/-- Entries are written at the tail, and TAIL advances (R233, R235). -/
def pushEntries (tr : Translator) (c : Nat) (user : Bool) (s : State) (ovq : Nat) (q : QueueHead) (es : List Entry) :
    Except Stop State := do
  let s1 ← es.zipIdx.foldlM (fun t e =>
    writeSpan tr c (devAcc true user) t (ovq + 0x40 + 16 * ((q.tail + e.2) % q.cap)) (leBytes 16 e.1.bits)) s
  writeWord tr c user s1 (ovq + 8) 8 ((q.tail + es.length) % 2 ^ 64)

/-- The device appends one entry inside the reserved band; `none` when the queue is full or cannot be reached (R235, R236). -/
def returnEntry (s : State) (pkg rcb : Nat) (e : Entry) : Option State :=
  match s.region pkg rcb with
  | none => none
  | some r =>
    let tr := regionTranslator r pkg
    let go : Except Stop State := do
      let (s1, q) ← readQueue tr (pkgCtx pkg) false s r.ovq
      if q.cap ≤ q.used then throw (.wait [])
      pushEntries tr (pkgCtx pkg) false s1 r.ovq q [{ e with spilled := true }]
    go.toOption

/-- The device hands a resumed continuation on: to the overflow queue, else to the arcade's return buffer (R236). A region that has
been purged discards it (R369). -/
def handOver (s : State) (ak : Nat) (e : Entry) (rcb : Nat) : State :=
  if (s.region (arcadePkg ak) rcb).isNone then s
  else
    match returnEntry s (arcadePkg ak) rcb e with
    | some t => t
    | none => (s.updArcade ak (fun a => { a with returns := a.returns ++ [(e, rcb)] })).cause (.counterReoffer ak)

/-- What a counter bank does with a result that no context waits for (R225). -/
def settleCounter (s : State) (pa : Nat) (r : CounterResult) : State :=
  match r with
  | .resume =>
    let (s1, x) := unsuspend s pa
    match x with
    | some (e, rcb) => handOver s1 (counterArcade pa) e rcb
    | none => s1
  | .release => releaseByCounter s pa
  | _ => s

/-- A counter operation that the device makes on its own. -/
def bankOp (s : State) (pa : Nat) (op : CounterOp) : State :=
  let (s1, r) := counterOp s pa op
  settleCounter s1 pa r

/-- A counter operation as an event: held while the return buffer is full (R236). An address outside every counter region names no
counter. -/
def counterEvent (s : State) (pa : Nat) (op : CounterOp) (again : Event) : Answer :=
  if (counterSlot pa).isNone then .next s
  else if counterHeld s pa op then .next (s.cause again)
  else .next (bankOp s pa op)

def execJinc (counter : Nat) (s : State) : Answer := counterEvent s counter .jinc (.jinc counter)
def execJdec (counter : Nat) (s : State) : Answer := counterEvent s counter .jdec (.jdec counter)
def execJdead (counter : Nat) (s : State) : Answer := counterEvent s counter .jdead (.jdead counter)
def execJaddn (counter : Nat) (n : Int) (s : State) : Answer := counterEvent s counter (.jadd n) (.jaddn counter n)
def execJsus (counter : Nat) (s : State) : Answer := counterEvent s counter .jsus (.jsus counter)
def execJcall (counter : Nat) (s : State) : Answer := counterEvent s counter .jcall (.jcall counter)
def execJcas (counter : Nat) (s : State) : Answer := counterEvent s counter .jcas (.jcas counter)
def execJmark (counter : Nat) (s : State) : Answer := counterEvent s counter .jmark (.jmark counter)

/-- A counter bank offers the oldest continuation of its return buffer again (R236). -/
def execCounterReoffer (arcade : Nat) (s : State) : Answer :=
  match (s.arcade arcade).returns with
  | [] => .next s
  | (e, rcb) :: rest =>
    let s1 := s.updArcade arcade (fun a => { a with returns := rest })
    if (s.region (arcadePkg arcade) rcb).isNone then .next s1
    else
      match returnEntry s1 (arcadePkg arcade) rcb e with
      | some t => .next t
      | none => .next (s.cause (.counterReoffer arcade))

end Sys2Proof.Machine
end

