-- ==== Sys2Proof/Machine/SaveArea.lean ====
section
/-! DEFINITION. Frame headers (Table 09-5), the liveness table (R92, R93), the save area and its layout (R94), a saved accumulator pair
(R171), and how a task begins or resumes (R221). -/

namespace Sys2Proof.Machine

/-! Liveness. -/

/-- What an entry of the liveness table marks live (Table 03-11). -/
structure LiveSet where
  g : List Nat
  o : List Nat
  lat : Bool
  p : List Nat
  t : List Nat
  v : List Nat
  deriving DecidableEq, Repr

def setBits (lo hi n : Nat) : List Nat := (List.range hi).filter (fun i => decide (lo ≤ i) && bitOf n i)

/-- The live registers of an entry's words GLO, GHI, VMASK and the word at +0x20. -/
def LiveSet.of (glo ghi vmask w : Nat) : LiveSet :=
  { g := setBits 1 64 glo ++ (setBits 0 64 ghi).map (· + 64), o := setBits 0 8 (w % 256), lat := bitOf w 24,
    p := setBits 0 8 (bitsOf w 15 8), t := setBits 0 8 (bitsOf w 23 16), v := setBits 0 64 vmask }

/-- The whole window (R93). -/
def LiveSet.whole (v : Ctx) : LiveSet :=
  { g := (List.range v.gsize).drop 1, o := List.range 8, lat := true, p := List.range 8, t := List.range 8, v := List.range v.vsize }

/-- The device reads the table at supervisor level (R93); as a load (log entry 18). -/
def liveAcc : Acc := ⟨0, false, false, false⟩

/-- Bytes of the liveness table; an uncorrectable error is an ECC. -/
def readLive (tr : Translator) (c : Nat) (s : State) (va n : Nat) : Except Stop (State × Nat) := do
  let (s1, bs, bad) ← readSpan tr c liveAcc s va n
  match bad with
  | some x => throw (.trap (liveAcc.ecc x false))
  | none => pure (s1, leNat bs)

/-- The search of R93, `lo` and `hi` closing in. -/
def findFrom (tr : Translator) (c liveb pc : Nat) : Nat → State → Nat → Nat → Except Stop (State × Option LiveSet)
  | 0, s, _, _ => .ok (s, none)
  | n + 1, s, lo, hi =>
    if hi ≤ lo then .ok (s, none)
    else do
      let mid := (lo + hi) / 2
      let (s1, e) ← readLive tr c s (liveb + 16 + 48 * mid) 48
      let x := bitsOf e 56 1 * 2
      if x = pc then
        .ok (s1, some (LiveSet.of (bitsOf e 127 64) (bitsOf e 191 128) (bitsOf e 255 192) (bitsOf e 319 256)))
      else if x < pc then findFrom tr c liveb pc n s1 (mid + 1) hi
      else findFrom tr c liveb pc n s1 lo mid

/-- The entry of a PC in the live table of a context; the table lies at LIVEB whatever that is (log entry 124). -/
def findLive (tr : Translator) (s : State) (c pc : Nat) : Except Stop (State × Option LiveSet) := do
  let b := (s.ctx c).liveb.toNat
  let (s1, h) ← readLive tr c s b 16
  findFrom tr c b pc 25 s1 0 (h % 2 ^ 24)

/-- The entry a save uses: none where LIVEB is 0 or a read fails (R93). -/
def saveEntry (s : State) (c pc : Nat) : State × Option LiveSet :=
  if (s.ctx c).liveb = 0 then (s, none) else ((findLive (translateFor c) s c pc).toOption).getD (s, none)

/-! The layout (R94). -/

inductive SaveItem
  | g (i : Nat) | o (i : Nat) | lat | p (i : Nat) | t (i : Nat) | v (i : Nat)
  deriving DecidableEq, Repr

def SaveItem.size : SaveItem → Nat
  | .g _ | .o _ | .lat => 8
  | .p _ | .t _ => 16
  | .v _ => 128

/-- The items before the vector registers, in order. -/
def LiveSet.scalars (l : LiveSet) : List SaveItem :=
  l.g.map .g ++ l.o.map .o ++ (if l.lat then [.lat] else []) ++ l.p.map .p ++ l.t.map .t
def LiveSet.vectors (l : LiveSet) : List SaveItem := l.v.map .v

/-- Items at rising offsets. -/
def placeItems : Nat → List SaveItem → List (SaveItem × Nat)
  | _, [] => []
  | off, i :: r => (i, off) :: placeItems (off + i.size) r
def itemsEnd (off : Nat) (l : List SaveItem) : Nat := l.foldl (fun a i => a + i.size) off
def roundUp (n m : Nat) : Nat := (n + m - 1) / m * m

/-- Every item with its offset from the frame. -/
def LiveSet.layout (l : LiveSet) : List (SaveItem × Nat) :=
  placeItems 0x80 l.scalars ++ placeItems (roundUp (itemsEnd 0x80 l.scalars) 128) l.vectors
/-- The offset of the area's end. -/
def LiveSet.areaEnd (l : LiveSet) : Nat :=
  if l.v.isEmpty then itemsEnd 0x80 l.scalars else itemsEnd (roundUp (itemsEnd 0x80 l.scalars) 128) l.vectors
/-- S: the bytes of the save. -/
def LiveSet.bytes (l : LiveSet) : Nat := l.areaEnd - 0x80
/-- The pair's bytes (R171), and the offset of a saved pair. -/
def pairBytes : Nat := 57344
def LiveSet.pairAt (l : LiveSet) : Nat := roundUp l.areaEnd 128

/-- A register's bytes as saved: zero beyond the window (R94). -/
def itemBytes (s : State) (c : Nat) : SaveItem → List Byte
  | .g i => leBytes 8 (if i < (s.ctx c).gsize then (s.readG c (.g (Fin.ofNat 128 i))).toNat else 0)
  | .o i => leBytes 8 (s.readG c (.o (Fin.ofNat 8 i))).toNat
  | .lat => leBytes 8 (s.ctx c).lat.toNat
  | .p i => leBytes 16 ((s.ctx c).pred i).toNat
  | .t i => leBytes 16 ((s.ctx c).tile i).toNat
  | .v i => leBytes 128 (if i < (s.ctx c).vsize then (s.readV c i).toNat else 0)

/-- A register restored; a slot beyond the window is ignored, and `lat` is restored only by CTXLOAD (R18, R94). -/
def restoreItem (s : State) (c : Nat) (lat : Bool) (n : Nat) : SaveItem → State
  | .g i => if i < (s.ctx c).gsize then s.putG c (.g (Fin.ofNat 128 i)) (w64 n) else s
  | .o i => s.putG c (.o (Fin.ofNat 8 i)) (w64 n)
  | .lat => if lat then s.putG c .lat (w64 n) else s
  | .p i => s.updCtx c (fun v => v.setPred i (BitVec.ofNat 128 n))
  | .t i => s.updCtx c (fun v => v.setTile i (BitVec.ofNat 128 n))
  | .v i => if i < (s.ctx c).vsize then s.writeV c i (BitVec.ofNat 1024 n) else s

def saveRegs (tr : Translator) (c : Nat) (user : Bool) (s : State) (frame : Nat) (l : LiveSet) : Except Stop State :=
  l.layout.foldlM (fun t e => writeSpan tr c (devAcc true user) t (frame + e.2) (itemBytes s c e.1)) s

def restoreRegs (tr : Translator) (c : Nat) (user lat : Bool) (s : State) (frame : Nat) (l : LiveSet) : Except Stop State :=
  l.layout.foldlM (fun t e => do
    let (t1, n) ← readWord tr c user t (frame + e.2) e.1.size
    pure (restoreItem t1 c lat n e.1)) s

/-! A pair in a save area (R171): bank 0 before bank 1, rows in order, 7 bytes a cell, low byte first (log entry 15). -/

def pairCells (k : Stall) (pair : Nat) : List (BitVec 56) := (bankCells k pair 0).toList ++ (bankCells k pair 1).toList
def savePair (tr : Translator) (c : Nat) (user : Bool) (s : State) (va pair : Nat) : Except Stop State :=
  writeSpan tr c (devAcc true user) s va ((pairCells (s.stall (ctxStall c)) pair).flatMap (fun w => leBytes 7 w.toNat))

/-- Bytes in groups of seven. -/
def sevens : Nat → List Byte → List (BitVec 56)
  | 0, _ => []
  | n + 1, bs => BitVec.ofNat 56 (leNat (bs.take 7)) :: sevens n (bs.drop 7)

/-- A pair is unpacked. Its modes and scales, which no save area holds, are free (log entry 15). -/
def loadPair (tr : Translator) (c : Nat) (user : Bool) (s : State) (va pair : Nat) : Except Stop State := do
  let (s1, bs, _) ← readSpan tr c (devAcc false user) s va pairBytes
  let cells := (sevens 8192 bs).toArray
  let x := Config.freePair s.tick
  pure (s1.updStall (ctxStall c) (fun k =>
    (setBank (setBank k pair 0 (fun i => cells.getD i 0)) pair 1 (fun i => cells.getD (4096 + i) 0)).setPair pair
      { holder := some c, clearing := false, q0 := x.getLsbD 64, q1 := x.getLsbD 65, scale0 := BitVec.truncate 32 x,
        scale1 := BitVec.truncate 32 (x >>> 32) }))

/-- The lowest free pair of a stall (R158, R237). -/
def freePairOf (k : Stall) : Option Nat :=
  (List.range 4).find? (fun i => (k.pair i).holder.isNone && !(k.pair i).clearing)

/-! Frame headers. -/

structure FrameHeader where
  rpc : Nat
  pframe : Nat
  ownjc : Nat
  parjc : Nat
  tag : Nat
  ptag : Nat
  fmtw : Nat
  sclp : Nat
  fflags : Nat
  deriving DecidableEq, Repr

def readHeader (tr : Translator) (c : Nat) (user : Bool) (s : State) (frame : Nat) : Except Stop (State × FrameHeader) := do
  let (s1, n) ← readWord tr c user s frame 64
  pure (s1, ⟨bitsOf n 63 0, bitsOf n 127 64, bitsOf n 191 128, bitsOf n 255 192, bitsOf n 287 256, bitsOf n 319 288,
    bitsOf n 383 320, bitsOf n 447 384, bitsOf n 511 448⟩)

/-- FFLAGS (Table 09-6). -/
structure FrameFlags where
  cflags : BitVec 11
  wake : Nat
  nt : Nat
  acc : Bool
  full : Bool
  saved : Bool
  root : Bool
  deriving DecidableEq, Repr
def FrameFlags.of (n : Nat) : FrameFlags :=
  ⟨BitVec.ofNat 11 (bitsOf n 42 32), bitsOf n 15 8, bitsOf n 6 4, bitOf n 3, bitOf n 2, bitOf n 1, bitOf n 0⟩
def FrameFlags.word (f : FrameFlags) : Nat :=
  f.cflags.toNat * 2 ^ 32 + f.wake * 2 ^ 8 + f.nt * 16 + (if f.acc then 8 else 0) + (if f.full then 4 else 0) +
    (if f.saved then 2 else 0) + (if f.root then 1 else 0)

/-- RPC, FMTW, SCLP and FFLAGS of a task that leaves its context or spawns (R232, R237, R375). -/
def writeHeader (tr : Translator) (c : Nat) (user : Bool) (s : State) (frame rpc : Nat) (f : FrameFlags) : Except Stop State := do
  let v := s.ctx c
  let s1 ← writeWord tr c user s frame 8 rpc
  writeSpan tr c (devAcc true user) s1 (frame + 0x28)
    (leBytes 8 v.fmtw.toNat ++ leBytes 8 v.sclp.toNat ++ leBytes 8 f.word)

/-! Beginning and resuming (Table 09-7). -/

/-- A new task tag of a stall (R219). -/
def newTag (s : State) (k : Nat) : State × BitVec 32 :=
  let n := (s.stall k).taskCounter
  (s.updStall k (fun v => { v with taskCounter := if n = 0x7FFFFF then 1 else n + 1 }), BitVec.ofNat 32 (k % 512 * 2 ^ 23 + n))

/-- A hunt ends at once when its context gets work, but for what a take of it has removed (R241). -/
def endHunt (h : Option Hunt) : Option Hunt :=
  h.bind (fun x => if x.got.isSome || x.kept.isSome || x.donated.isSome then some x else none)

/-- A PC read from a frame: its bit 0 is always zero (R37). -/
def evenPc (n : Nat) : Nat := bitsOf n 56 1 * 2

/-- Every state a task brings to a context; `lat` and TBM read zero (R18, R221, R294). -/
def Ctx.bear (v : Ctx) (pc : Nat) (tag ptag : Nat) (frame pframe ownjc parjc : Nat) (fmtw sclp : Nat) (flags : BitVec 11)
    (nt : Nat) (root : Bool) : Ctx :=
  { v with
    pc := BitVec.ofNat 57 (evenPc pc)
    ttag := BitVec.ofNat 32 tag
    ptag := BitVec.ofNat 32 ptag
    framep := w64 frame
    pframe := w64 pframe
    ownjc := w64 ownjc
    parjc := w64 parjc
    fmtw := BitVec.ofNat 16 fmtw
    sclp := w64 sclp
    flags := flags
    nt := nt
    root := root
    lat := 0
    tbm := 0
    covered := none
    walked := []
    missed := none
    saved := none
    wait := .none
    holding := none
    hunt := endHunt v.hunt }

/-- A task begins (R218): its region counts it. -/
def countTask (s : State) (c : Nat) (d : Int) : State :=
  s.updRegion (ctxPkg c) (s.ctx c).rcbp.toNat (fun r => { r with live := ((r.live : Int) + d).toNat })

/-- A task dies of an error that none of its instructions raised. -/
def dieAsync (s : State) (c : Nat) (t : Trap) : State :=
  s.beginDeath c { (s.ctx c).trapDeath t with async := true, dbl := false, notrap := false, next := (s.ctx c).unissuedPc }

/-- The pair of a restored task: the lowest free one, or a wait in WMSG (R237, R378). -/
def restorePair (s : State) (c : Nat) (va pc : Nat) : Except Stop State :=
  match freePairOf (s.stall (ctxStall c)) with
  | some p => loadPair (translateFor c) c false s va p
  | none => .ok (block s c .wmsg (.pair va pc))

/-- The save area of a task at RPC is restored, with its pair (R93, R94, R171); by the whole window where the table holds its entry no
more (log entry 108), a whole window being that of the context it is restored to (log entry 124). -/
def restoreArea (s : State) (c frame rpc : Nat) (f : FrameFlags) (pc : Nat) (lat : Bool) : Except Stop State := do
  if !f.saved then pure s
  else
    let tr := translateFor c
    let (s1, l) ← if f.full then pure (s, LiveSet.whole (s.ctx c)) else do
      let (t, e) ← findLive tr s c (evenPc rpc)
      pure (t, e.getD (LiveSet.whole (s.ctx c)))
    let s2 ← restoreRegs tr c false lat s1 frame l
    if f.acc then restorePair s2 c (frame + l.pairAt) pc else pure s2

/-- A continuation resumes on a context from its frame (R221): NT from its entry, or from FFLAGS. A frame or a liveness table that
cannot be read kills the task (R93; log entry 19). -/
def resumeTask (s : State) (c frame : Nat) (nt : Option Nat) : State :=
  let running (t : State) : State := if (t.ctx c).wait == .none then enter t c .run else t
  match readHeader (translateFor c) c false s frame with
  | .error (.trap t) =>
    dieAsync (enter (s.updCtx c (fun v => v.bear 0 0 0 frame 0 0 0 v.fmtw.toNat 0 0 0 false)) c .run) c t
  | .error _ => enter (s.updCtx c (fun v => v.bear 0 0 0 frame 0 0 0 v.fmtw.toNat 0 0 0 false)) c .run
  | .ok (s1, h) =>
    let f := FrameFlags.of h.fflags
    let s2 := s1.updCtx c (fun v => v.bear h.rpc h.tag h.ptag frame h.pframe h.ownjc h.parjc h.fmtw h.sclp f.cflags
      (nt.getD f.nt) f.root)
    match restoreArea s2 c frame h.rpc f (evenPc h.rpc) false with
    | .ok s3 => running s3
    | .error (.trap t) => dieAsync (enter s2 c .run) c t
    | .error _ => enter s2 c .run

end Sys2Proof.Machine
end

