-- ==== Sys2Proof/Machine/Contexts.lean ====
section
/-! DEFINITION. Binding contexts to regions and freeing them (R254, R255, R372), STATE of a region (Table 11-2), how a context becomes
IDLE, how a task's end counts (R258, R421). -/

namespace Sys2Proof.Machine

/-! STATE. -/

def Region.stateWord (r : Region) (code : Nat) : Nat := r.casr * 2 ^ 32 + r.left * 2 ^ 16 + code * 2 ^ 8 + r.st
/-- STATE is written into the RCB. -/
def putRegionState (s : State) (pkg : Nat) (r : Region) (code : Nat) : State :=
  devWrite s (pkgCtx pkg) { r.place with pa := r.place.pa + 0x90 } (leBytes 8 (r.stateWord code))
/-- A region's record changes, and its STATE with it. -/
def updRegionState (s : State) (pkg rcb : Nat) (f : Region → Region) : State :=
  let s1 := s.updRegion pkg rcb f
  match s1.region pkg rcb with
  | some r => putRegionState s1 pkg r 0
  | none => s1

/-! Ranks (R254). -/

/-- The arcades of the launch rectangle in row-major order (R249). -/
def Region.rect (r : Region) : List Nat :=
  (List.range r.rows).flatMap (fun i => (List.range r.cols).map (fun j => 8 * (r.row0 + i) + (r.col0 + j)))
def Region.gsz (r : Region) : Nat := 8 * r.rows * r.cols
/-- The stall of a rank, and the rank of a stall. -/
def Region.rankStall (r : Region) (pkg rank : Nat) : Nat := arcadeStall (64 * pkg + r.rect.getD (rank / 8) 0) (rank % 8)
def Region.rankOf (r : Region) (k : Nat) : Nat :=
  let a := stallArcade k % 64
  8 * ((a / 8 - r.row0) * r.cols + (a % 8 - r.col0)) + k % 8
/-- The stalls of the rectangle by rank. -/
def Region.stalls (r : Region) (pkg : Nat) : List Nat := (List.range r.gsz).map (r.rankStall pkg)

/-! Binding (R255). -/

/-- What binding sets on a context. -/
def bindContext (s : State) (c : Nat) (r : Region) : State :=
  let n := (s.stall (ctxStall c)).ctxn
  regate (s.updCtx c (fun v =>
    { v with
      deque := (v.strays.filter (fun e => e.1 == r.rcb)).map (·.2)
      strays := v.strays.filter (fun e => e.1 != r.rcb)
      rcbp := w64 r.rcb
      ptbr := r.ptbr
      liveb := r.liveb
      keyt := r.keyt
      gsize := r.gwinb
      gbase := c % 64 * (2048 / n)
      vsize := r.vwinb
      vbase := c % 64 * (1024 / n)
      fmtw := r.fmtw
      sclp := 0
      pl := true
      ppl := false
      intrap := false
      ttag := 0
      rank := w64 (r.rankOf (ctxStall c))
      gsz := w64 r.gsz })) (ctxStall c)

/-- What a context has in its deque stays with the region it leaves. -/
def leaveDeque (s : State) (c : Nat) : State :=
  s.updCtx c (fun v => { v with deque := [], strays := v.strays ++ v.deque.map (fun e => (v.rcbp.toNat, e)) })

/-- A context leaves its region and returns to the ancestor it was bound to (R255). -/
def unbindContext (s : State) (c : Nat) : State :=
  let p := ctxPkg c
  let rcb := (s.ctx c).rcbp.toNat
  let before := ((s.region p rcb).bind (fun r => r.bound.lookup c)).getD 0
  let s1 := (leaveDeque s c).updRegion p rcb (fun r => { r with bound := r.bound.filter (fun e => e.1 != c), former := r.former ++ [c] })
  match s1.region p before.toNat with
  | some r => if before = 0 then s1.updCtx c (fun v => { v with rcbp := 0, rank := 0, gsz := 1 }) else bindContext s1 c r
  | none => s1.updCtx c (fun v => { v with rcbp := 0, rank := 0, gsz := 1 })

/-- TIME of a package in nanoseconds. -/
def State.timeOf (s : State) (pkg : Nat) : Nat := (Config.freeTime pkg s.tick + BitVec.ofInt 64 (s.pkg pkg).timeOffset).toNat

/-- A slice message of Veram to Veram of a package: of class 2 between packages (R437). -/
def sendSlice (s : State) (src dst : Nat) (e : Event) : State :=
  if src = dst then s.cause e else sendMessage s (4 * src) (4 * dst) 2 0 (.control e) (wireBytes (Config.messagePayload s.tick 12))

/-- Slices that waited for a context: once all are freed EVICTED is reported, or LATE where TSTART + GRACE has passed (Table 22-2, phase
3). -/
def noteFreed (s : State) (c : Nat) : State :=
  let p := ctxPkg c
  let rcbp := (s.ctx c).rcbp
  let hit := (s.pkg p).slices.filter (fun x => x.waiting.contains c)
  let s1 := s.updPkg p (fun k => { k with slices := k.slices.map (fun x =>
    if x.waiting.contains c then { x with waiting := x.waiting.filter (· != c), rebind := x.rebind ++ [(c, rcbp)] } else x) })
  hit.foldl (fun t x =>
    if x.waiting.all (· == c) then
      sendSlice t p x.coordinator (.sliceReport x.coordinator x.desc.slid p (decide (t.timeOf p ≤ x.desc.tstart + x.desc.grace)))
    else t) s1

/-- Every request on a context is satisfied; no deadline of theirs is left to pass (R372, R374). -/
def clearRequests (s : State) (c : Nat) : State :=
  let s1 := s.updCtx c (fun v => { v with request := none, also := [], hunt := endHunt v.hunt })
  { s1 with due := s1.due.filter (fun e => e != .preemptDeadline c) }

/-- A context is freed: unbound, its request satisfied; the wait list is examined (R269, R372). -/
def freeContext (s : State) (c : Nat) : State :=
  let s1 := noteFreed s c
  let s2 := unbindContext (clearRequests s1 c) c
  let s3 := if (s2.ctx c).rcbp = 0 then s2 else s2.cause (.huntRound c)
  s3.cause (.waitlistExamine (ctxPkg c))

/-- A context becomes IDLE: freed when a request is pending, which on a halted stall waits (R391), else its Haggler hunts (R239, R241,
R372). -/
def goIdle (s : State) (c : Nat) : State :=
  let s1 := enter (s.updCtx c (fun v => { v with wait := .none, holding := none, dying := none, root := false, nt := 0 })) c .idle
  if (s1.ctx c).request.isSome then (if isHalted s1 c then s1 else freeContext s1 c)
  else if (s1.ctx c).rcbp = 0 then s1.cause (.waitlistExamine (ctxPkg c))
  else (s1.cause (.huntRound c)).cause (.waitlistExamine (ctxPkg c))

/-! Ends of tasks. -/

/-- A region whose roots have ended and that has no task left ends (R258). -/
def checkEnd (s : State) (pkg rcb : Nat) : State :=
  match s.region pkg rcb with
  | some r => if r.live = 0 ∧ (r.abort ∨ (r.st = 3 ∧ r.left = 0)) then s.cause (.regionEnd pkg rcb) else s
  | none => s

/-- A task of a context's region has ended or died. -/
def taskOver (s : State) (c : Nat) : State :=
  checkEnd (countTask s c (-1)) (ctxPkg c) (s.ctx c).rcbp.toNat

/-- A root has ended, or died (R258). -/
def rootOver (s : State) (c : Nat) (died : Bool) : State :=
  updRegionState s (ctxPkg c) (s.ctx c).rcbp.toNat (fun r =>
    { r with left := r.left - 1, casr := if died then min (r.casr + 1) 0xFFFF else r.casr })

/-- A posted store of a tag is not yet acknowledged: it is kept at its source, or waits there. -/
def FabricMessage.isPostedBy (m : FabricMessage) (tag : Nat) : Bool :=
  match m.body with
  | .access _ _ _ => m.tag == tag && headerKind m.bytes == AccessKind.store.code
  | _ => false
def hasPosted (s : State) (p tag : Nat) : Bool :=
  s.streams.any (fun e => hallPkg (streamSrc e.1) == p && (e.2.sent.any (fun x => x.msg.isPostedBy tag) || e.2.waiting.any (·.isPostedBy tag)))

/-- A task is over: a posted store of it that is lost from now on has no task to report it (R421). -/
def noteOver (s : State) (c : Nat) : State :=
  s.updPkg (ctxPkg c) (fun p =>
    { p with ended := (p.ended.filter (· != (s.ctx c).ttag.toNat) ++ [(s.ctx c).ttag.toNat]).filter (hasPosted s (ctxPkg c)) })

/-- Lost posted stores that no release has reported count in LOSTP when the task ends (R421). -/
def reportLosses (s0 : State) (c : Nat) : State :=
  let s := noteOver s0 c
  let n := (s.ctx c).lost
  if n = 0 then s
  else
    ((s.updCtx c (fun v => { v with lost := 0 })).updHall (ctxHall c) (fun h =>
      { h with counters := { h.counters with lostp := h.counters.lostp + w64 n } })).updPkg (ctxPkg c) (fun p =>
        { p with log := p.log ++ [.lossEvent n] })

/-- Granules of an arcade return to the quota of their region (R287). -/
def freeGranules (s : State) (ak rcb : Nat) (f : Granule → Bool) : State :=
  let gone := (s.arcade ak).granules.filter (fun e => e.2.rcb == rcb && f e.2)
  let s1 := s.updArcade ak (fun a => { a with granules := a.granules.filter (fun e => !gone.contains e) })
  s1.updRegion (arcadePkg ak) rcb (fun r =>
    { r with quota := Store.set 0 r.quota (ak % 64) (Store.get 0 r.quota (ak % 64) - 64 * gone.length) })
/-- The granules of a task for its tile slots from `slot` on, wherever they lie in its package. -/
def freeTaskGranules (s : State) (c slot : Nat) : State :=
  let v := s.ctx c
  ((s.arcades.filter (fun e => arcadePkg e.1 == ctxPkg c)).map (·.1)).foldl
    (fun t ak => freeGranules t ak v.rcbp.toNat (fun g => g.tag == v.ttag.toNat && decide (slot ≤ g.slot))) s

end Sys2Proof.Machine
end

