-- ==== Sys2Proof/Machine/Fences.lean ====
section
/-! DEFINITION. Fences and cache maintenance (R324 to R327), a line recalled by its home slice (R281) or evicted (R282, R288). -/

namespace Sys2Proof.Machine

/-- A fence of a scope and order: its release steps, with engine order where `eng`, then its acquire steps (R324, R316). -/
def runFence (eng : Bool) (a : UOrd) (s : State) : Answer :=
  let scope : Scope := (a.ord.map (·.scope)).getD .ac
  let order : MemOrder := (a.ord.map (·.order)).getD .none
  let acquire (t : State) : State := if order = .rel then t else acquireCaches t t.cur scope
  finish s (if order = .acq then .ok (acquire s).advance else withRelease s scope eng (fun t => .ok (acquire t).advance))

def execFence (a : UOrd) (s : State) : Answer := runFence false a s
/-- FENCEE also orders engine commands (R316): a Carter gives back its lines, and drops the copies of its arcade, before its
completion can be observed. -/
def execFencee (a : UOrd) (s : State) : Answer := runFence true a s

/-- The dirty bytes of the own L1's line go to the home slice, those of the visitor line to the home copy at `.pk` and wider; the
write-backs set their TBM bits (R294, R326). -/
def flushLine (s : State) (c : Nat) (p : Place) (scope : Scope) : State :=
  let k := ctxStall c
  let far := Scope.le .pk scope && !homeIn (ctxHall c) p.pa
  let mine := ((s.l1.lookup (l1Key k p.key (p.pa / 64))).map (fun l => l.dirty != 0)).getD false
  let s1 := writeBackLine s k p.key (p.pa / 64)
  let visitor := far && ((s1.l2.lookup (l2Key (ctxHall c) p.key (p.pa / 128))).map (fun v => v.dirty != 0)).getD false
  let bits := (if mine then lineBit c (p.pa / 64) p.near else 0) ||| (if visitor then tbmBit c { p with near := true } else 0)
  (if far then writeBackL2 s1 (ctxHall c) p.key (p.pa / 128) else s1).updCtx c (fun v => { v with tbm := v.tbm ||| bits })

/-- FLUSH and INVAL: the translated line of the address. -/
def withLine (a : YMem) (s : State) (f : State → Place → Scope → Except Stop State) : Answer :=
  finish s (do
    s.me.checkG 1 a.y
    let va := effAddr s a.y none a.imm 1
    let (s1, l) ← translate s va ⟨0, false, false, !s.me.pl⟩
    f s1 l.place ((a.ord.map (·.scope)).getD .pk))

/-- FLUSH (R326). At `.sy` a line of another package is complete when the posted stores are acknowledged. -/
def execFlush (a : YMem) (s : State) : Answer :=
  withLine a s (fun s1 p scope => do
    let c := s1.cur
    if p.mtype ≠ 0 then pure s1.advance
    else
      let s2 ← settled s1 c
      if isRemote c p then pure (if scope = .sy ∧ s2.me.posted ≠ 0 then s2.stay else s2.advance)
      else if Scope.le .ha scope && p.cached then pure (flushLine s2 c p scope).advance
      else pure s2.advance)

/-- The stall's Shared copy is dropped, at `.pk` and wider also the hall's visitor copy; dirty bytes are written back first and
Owned lines kept (R326). -/
def invalLine (s : State) (c : Nat) (p : Place) (scope : Scope) : State :=
  let k := ctxStall c
  let s1 := flushLine s c p scope
  let s2 := match s1.l1.lookup (l1Key k p.key (p.pa / 64)) with
    | some l => if l.owned then s1 else dropLine s1 k p.key (p.pa / 64)
    | none => s1
  if Scope.le .pk scope then dropVisitor s2 (ctxHall c) p.key (p.pa / 128) else s2

def execInval (a : YMem) (s : State) : Answer :=
  withLine a s (fun s1 p scope => do
    let c := s1.cur
    if p.mtype == 0 && p.cached && Scope.le .ha scope then
      let s2 ← settled s1 c
      pure (invalLine s2 c p scope).advance
    else pure s1.advance)

/-- PREF (R326): the line is requested into L1, under policy 01 into L2 alone; a translation that fails drops it, and so does a line
that a Carter has taken, which it may not wait for. -/
def execPref (a : YMem) (s : State) : Answer :=
  finish s (do
    s.me.checkG 1 a.y
    let va := effAddr s a.y none a.imm 1
    let acc : Acc := ⟨0, false, false, !s.me.pl⟩
    match translateNow s s.cur va acc with
    | .error _ => pure s.advance
    | .ok (s1, l) =>
      if l.place.cached && (carterWait s1 s1.cur acc false l.place).isNone then
        pure (loadPlace s1 s1.cur l.place 1 (policyOf a.ord)).1.advance
      else pure s1.advance)

def execTbmc (s : State) : Answer := finish s (.ok (s.upd (fun v => { v with tbm := 0 })).advance)

/-! Events. -/

/-- The home slice of a hall recalls a line from the arcades that own it (R281); a line that a Carter has taken waits (R348). -/
def execHomeRecall (hall key line : Nat) (s : State) : Answer :=
  .next (if (carterOwner s hall key line).isSome then s else recallHall s hall key line)

/-- A line is evicted: its dirty bytes are written back, one level down, and the copy goes (R281, R288). -/
def execLineEviction (level : CacheLevel) (unit key line : Nat) (s : State) : Answer :=
  .next (match level with
    | .l1 => recallLine s key line unit
    | .l2 => if isPinned s unit key line then s else dropL2 s unit key line)

end Sys2Proof.Machine
end

