-- ==== Sys2Proof/Machine/SystemUnit.lean ====
section
/-! DEFINITION. Basic system instructions (R124 to R131), halt groups (R384, R388 to R394) and the Inspector's events (R395, R396). -/

namespace Sys2Proof.Machine

def execNop (s : State) : Answer := finish s (.ok s.advance)

/-- YIELD (R124): with a pre-emption request pending a blocking point, where the context may be evicted; otherwise NOP. -/
def execYield (s : State) : Answer :=
  if s.me.request.isSome then .next (block s s.cur .wmsg .yield) else finish s (.ok s.advance)

/-- The enabled flags that are set (R127). -/
def Ctx.enabledFlags (v : Ctx) : FlagSet := v.flags &&& v.ten
/-- ARITH (Table 04-9). -/
def arithTrap (v : Ctx) : Trap := ⟨.arith, v.enabledFlags.toNat, 0⟩

/-- A reader or writer of FLAGS or TEN waits until every earlier instruction of the context has set its flags (R126): those of a bank
transfer come when it completes (R203). Matrix commands are not waited for. -/
def flagWait (s : State) : Except Stop Unit :=
  if s.myStall.transfers.any (fun x => x.ctx == s.cur && x.both) then .error (.wait [.bankTransferComplete (ctxStall s.cur)]) else .ok ()

def execTrapf (s : State) : Answer :=
  finish s (do
    flagWait s
    if s.me.enabledFlags = 0 then pure s.advance else throw (.trap (arithTrap s.me)))

def execFlagr (a : GOne) (s : State) : Answer :=
  finish s (do
    s.me.checkG 0 a.x
    flagWait s
    pure (s.complete a.x (BitVec.zeroExtend 64 s.me.flags) 0))
def execFlagc (a : GOne) (s : State) : Answer :=
  finish s (do
    s.me.checkG 0 a.x
    flagWait s
    pure (s.upd (fun v => { v with flags := v.flags &&& ~~~(BitVec.truncate 11 (s.g a.x)) })).advance)

def execSysc (a : Num8) (s : State) : Answer := finish s (.error (.trap ⟨.sysc, a.n.toNat, 0⟩))

/-! Halt groups. -/

def haltEn (k : Stall) : Bool := k.haltg.getLsbD 8
def haltBkrt (k : Stall) : Bool := haltEn k && k.haltg.getLsbD 9
def haltGroup (k : Stall) : Nat := k.haltg.toNat % 256

/-- The member stalls of the group of stall `k` in its package (R388); a stall of no group stands alone (R389). -/
def groupOf (s : State) (k : Nat) : List Nat :=
  if haltEn (s.stall k) then
    (s.stalls.filter (fun e => stallPkg e.1 == stallPkg k && haltEn e.2 && haltGroup e.2 == haltGroup (s.stall k))).map (·.1)
  else [k]

/-- A stop or resume event goes to the members of a stall's group over the cross-trigger network (R389, R394). -/
def triggerGroup (s : State) (k : Nat) (stop : Bool) : State :=
  { s with sched := (groupOf s k).map (fun m => Turn.event (.crossTrigger m stop)) ++ s.sched }

/-- BKPT traps, or with BKRT halts the group and records itself in ISTAT (R128, R390). -/
def execBkpt (a : Num8) (s : State) : Answer :=
  let k := ctxStall s.cur
  if haltBkrt (s.stall k) then
    let s1 := s.updArcade (stallArcade k) (fun v =>
      if v.bvalid then v else { v with bvalid := true, bstall := k % 8, bctx := s.cur % 64, ibpc := s.me.pc.toNat })
    .next (triggerGroup s1.advance k true)
  else finish s (.error (.trap ⟨.bkpt, a.n.toNat, 0⟩))

/-- The contexts of a stall that hold state. -/
def stallContexts (s : State) (k : Nat) : List Nat := (s.ctxs.filter (fun e => ctxStall e.1 == k)).map (·.1)

/-- A context halts: from RUN it enters HALT, from a wait when the wait ends, and when an instruction that acts elsewhere is complete
(R391). -/
def haltContext (s : State) (c : Nat) : State :=
  s.updCtx c (fun v =>
    if v.st == .run && v.wait != .visit && v.saved.isNone then { v with halted := true, st := .halt, back := .run } else { v with halted := true })
/-- A context resumes to the state it would hold (R391, R394). -/
def resumeContext (s : State) (c : Nat) : State :=
  let s1 := s.updCtx c (fun v => if v.st == .halt then { v with halted := false, st := v.back } else { v with halted := false })
  if (s1.ctx c).request.isSome then s1.cause (.evict c) else s1

/-- A stall halts, its matrix unit starting nothing more (R391). -/
def haltStall (s : State) (k : Nat) : State :=
  (stallContexts s k).foldl haltContext (s.updStall k (fun v => { v with halted := true }))
/-- The Carter of a stall's arcade is frozen no more: what waited for it goes on (R392). -/
def thawCarter (s : State) (k : Nat) : State :=
  let ak := stallArcade k
  if carterFrozen s ak then s
  else ((wakeSlots s ak (fun _ => true)).causeOnce (.carterBeat ak)).causeOnce (.followOnHandoff ak)

/-- A stall resumes: its contexts return, its matrix unit, TAKEs and messages that waited go on (R391 to R394). -/
def resumeStall (s : State) (k : Nat) : State :=
  let s1 := (stallContexts s k).foldl resumeContext (s.updStall k (fun v => { v with halted := false }))
  let ak := stallArcade k
  ((s1.arcade ak).inbox.filter (fun m => m.dst == some k)).foldl (fun t _ => t.cause (.networkMessageDelivery ak))
    ((thawCarter s1 k).causeOnce (.matrixStart k))

/-- A stop or resume event reaches a stall (R389, R394). A stall already halted is left as it is. -/
def execCrossTrigger (stall : Nat) (stop : Bool) (s : State) : Answer :=
  .next (if stop then haltStall s stall else resumeStall s stall)

/-- The stalls of an arcade that a mask names. -/
def maskStalls (ak mask : Nat) : List Nat := ((List.range 8).filter (fun i => bitOf mask i)).map (arcadeStall ak)

/-- An ICTL write with HALT: a stop event on each stall named (R389, Table 19-3). -/
def execInspectorHalt (arcade stalls : Nat) (s : State) : Answer :=
  .next ((maskStalls arcade stalls).foldl (fun t k => triggerGroup t k true) s)
/-- An ICTL write with RESUME: the groups of the stalls named resume, BVALID clears (R394, Table 19-3). -/
def execInspectorResume (arcade stalls : Nat) (s : State) : Answer :=
  .next ((maskStalls arcade stalls).foldl (fun t k => triggerGroup t k false)
    (s.updArcade arcade (fun v => { v with bvalid := false })))

/-- An ICTL write with STEP (R396): the context that ISEL named at the write, when in HALT, issues one instruction and halts again. -/
def execInspectorStep (arcade : Nat) (s : State) : Answer :=
  let c := (s.arcade arcade).steps.headD (selContext arcade (s.arcade arcade).isel)
  let s1 := s.updArcade arcade (fun a => { a with steps := a.steps.drop 1 })
  .next (if (s1.ctx c).st == .halt then { s1 with sched := .step c :: s1.sched } else s1)

def execIdataRead (arcade : Nat) (s : State) : Answer :=
  .next (s.updArcade arcade (fun v => { v with idata := inspectRead s arcade }))
def execIdataWrite (arcade : Nat) (value : Word) (s : State) : Answer :=
  .next ((inspectWrite s arcade value).updArcade arcade (fun v => { v with idata := value }))
def execIdignReset (arcade : Nat) (s : State) : Answer := .next (resetDigest s arcade)

/-- HALT (R384): the group named by HALTG, or only the issuing context. -/
def execHalt (s : State) : Answer :=
  finish s (do
    s.me.checkPriv
    let k := ctxStall s.cur
    pure (if haltEn (s.stall k) then triggerGroup s.advance k true else haltContext s.advance s.cur))

/-! CSRs (R129, R130), markers (R131). -/

/-- PRIV for a supervisor CSR or configuration register in user mode (R24). -/
def checkCsr (v : Ctx) (r : Csr) : Except Stop Unit := if 0x100 ≤ r.addr then v.checkPriv else .ok ()

def execRdc (a : GCsr) (s : State) : Answer :=
  finish s (do
    checkCsr s.me a.csr
    s.me.checkG 0 a.x
    if a.csr = .flags ∨ a.csr = .ten then flagWait s
    pure (s.complete a.x (readCsr s s.cur a.csr) 0))

def execWrc (a : GCsr) (s : State) : Answer :=
  finish s (do
    if a.csr.readOnly then throw (s.me.illopBase 10)
    checkCsr s.me a.csr
    s.me.checkG 0 a.x
    if a.csr = .flags ∨ a.csr = .ten then flagWait s
    match writeCsr s s.cur a.csr (s.g a.x) with
    | some s1 => pure s1.advance
    | none => throw (s.me.illopBase 11))

def execTmark (a : GOne) (s : State) : Answer :=
  finish s (do
    s.me.checkG 0 a.x
    let s1 := if bitOf s.myStall.tracec.toNat 1 then logTimed s s.cur (2 ^ 30 + (s.g a.x).toNat % 2 ^ 24) else s
    pure s1.advance)

/-- ERET (R383): EPC is checked as a target (R110). -/
def execEret (s : State) : Answer :=
  finish s (do
    s.me.checkPriv
    let _ ← checkTarget s.me s.me.epc
    pure (s.upd Ctx.eret))

end Sys2Proof.Machine
end

