-- ==== Sys2Proof/Machine/Tasks.lean ====
section
/-! DEFINITION. SPAWN and its spill (R232 to R234), SYNC (R237, R238), TEND and TABORT (R239, R240), frames, counters and named tiles
(R227 to R231), the resumption of a continuation (R225, R246). -/

namespace Sys2Proof.Machine

def Ctx.user (v : Ctx) : Bool := !v.pl

/-- FFLAGS of the running task when it leaves its context or spawns. -/
def Ctx.frameFlags (v : Ctx) (saved full acc : Bool) (wake : Nat) : FrameFlags := ⟨v.flags, wake, v.nt, acc, full, saved, v.root⟩

/-! SPAWN. -/

/-- The counter of a frame's task: OWNJC of its header, located by the device for a context. -/
def ownCounterOf (s : State) (c frame : Nat) : Except Stop (State × Nat) := do
  let (s1, va) ← readWord (translateFor c) c false s (frame + 0x10) 8
  locateCounter (translateFor c) s1 true false va

/-- The overflow queue of a context's region has 16 + LWM free entries (R233). -/
def spillRoom (s : State) (c : Nat) : Bool :=
  match s.regionOf c with
  | none => false
  | some r =>
    match readQueue (translateFor c) c false s r.ovq with
    | .ok (_, q) => decide (16 + q.lwm ≤ q.free)
    | .error _ => false

/-- Spill16 (R233): JINC of each entry's counter in age order, the entries written with SPILLED = 1, TAIL advanced. `none` where the
queue has no room for them, or where it, a frame or a counter cannot be reached. -/
def spill16 (s : State) (c : Nat) : Except Stop (Option State) :=
  match s.regionOf c with
  | none => .ok none
  | some r =>
    let es := (s.ctx c).deque.take 16
    let go : Except Stop State := do
      let (s1, q) ← readQueue (translateFor c) c false s r.ovq
      if q.free < 16 + q.lwm then throw (.wait [])
      let s2 ← es.foldlM (fun t e => do
        let (t1, pa) ← ownCounterOf t c e.frame
        let (t2, _) ← contextOp t1 c pa .jinc
        pure t2) s1
      let s3 ← pushEntries (translateFor c) c false s2 r.ovq q (es.map (fun e => { e with spilled := true }))
      pure (s3.updCtx c (fun v => { v with deque := v.deque.drop 16 }))
    match go with
    | .ok t => .ok (some t)
    | .error (.visit ak kind) => .error (.visit ak kind)
    | .error _ => .ok none

/-- The entry point of the child (R232). -/
def spawnEntry (s : State) (t : Target) : Except Stop (BitVec 57) :=
  match t with
  | .label off => .ok (branchTarget s.me off)
  | .reg z => checkTarget s.me (s.g z)

/-- What SPAWN, SPAWNA and SPAWNF do, with the entry's affinity and the child's FMTW and SCLP. -/
def runSpawn (x : GReg) (t : Target) (aff fmtw sclp : Nat) (s : State) : Except Stop State := do
  let c := s.cur
  let v := s.me
  let child := (s.g x).toNat
  let frame := v.framep.toNat
  let user := v.user
  if child % 64 ≠ 0 then throw (alignTrap 5 child)
  if (s.held c).isSome then throw (frameTrap 5)
  if child = frame then throw (frameTrap 7)
  let s1 ← checkSpan translate (devAcc true user) s child 128
  let s2 ← checkSpan translate (devAcc true user) s1 frame 128
  let pc ← spawnEntry s2 t
  let enterChild (degraded : Bool) (u : State) : Except Stop State := do
    let u0 ← writeHeader translate c user u frame v.nextPc.toNat (v.frameFlags false false false 0)
    let e : Entry := ⟨v.nextPc.toNat, frame, v.nt, aff, false⟩
    let u1 ← if degraded then do
        let (w, pa) ← locateCounter translate u0 true user v.ownjc.toNat
        let (w1, _) ← contextOp w c pa .jcall
        pure (suspendAt w1 pa { e with aff := 0, spilled := true } v.rcbp.toNat)
      else pure (u0.upd (fun w => { w with deque := w.deque ++ [e] }))
    let (u2, own) ← readWord translate c user u1 (child + 0x10) 8
    let (u3, tag) := newTag u2 (ctxStall c)
    let u4 ← writeWord translate c user u3 (child + 0x08) 8 frame
    let u5 ← writeSpan translate c (devAcc true user) u4 (child + 0x18)
      (leBytes 8 v.ownjc.toNat ++ leBytes 4 tag.toNat ++ leBytes 4 v.ttag.toNat)
    let u6 := u5.upd (fun w =>
      w.bear pc.toNat tag.toNat v.ttag.toNat child frame own v.ownjc.toNat fmtw sclp 0 0 false)
    pure (countTask u6 c 1)
  let s3 ← settle s2
  if v.deque.length < 32 then enterChild false s3
  else if !spillRoom s3 c then enterChild true s3
  else
    withQuietRelease s3 (joinScopeOf s3 c) (fun u => do
      match ← spill16 u c with
      | none => enterChild true u
      | some w => enterChild false w)

def checkSpawn (s : State) (x : GReg) (t : Target) : Except Stop Unit := do
  s.me.checkG 0 x
  match t with
  | .label _ => pure ()
  | .reg z => s.me.checkG 2 z

def execSpawn (a : Spawn) (s : State) : Answer :=
  finish s (do
    checkSpawn s a.x a.target
    runSpawn a.x a.target 0 s.me.fmtw.toNat s.me.sclp.toNat s)

/-- REGLIM of a SPAWN with a Y operand of `n` registers. -/
def checkSpawn2 (s : State) (a : Spawn2) (n : Nat) : Except Stop Unit := do
  s.me.checkG 0 a.x
  s.me.checkG 1 a.y n
  checkSpawn s a.x a.target

def execSpawna (a : Spawn2) (s : State) : Answer :=
  finish s (do
    checkSpawn2 s a 1
    runSpawn a.x a.target ((s.g a.y).toNat % 4) s.me.fmtw.toNat s.me.sclp.toNat s)

def execSpawnf (a : Spawn2) (s : State) : Answer :=
  finish s (do
    checkSpawn2 s a 2
    runSpawn a.x a.target 0 ((s.g a.y).toNat % 2 ^ 16) (s.g (GReg.succ 1 a.y)).toNat s)

/-! SYNC. -/

/-- A task has left its context: the tail of the deque resumes, or the context becomes IDLE (R237). -/
def nextTask (s : State) (c : Nat) : State :=
  match (s.ctx c).deque.getLast? with
  | some e => resumeTask (s.updCtx c (fun v => { v with deque := v.deque.dropLast })) c e.frame (some e.nt)
  | none => goIdle s c

/-- QUOTA (R377): the bytes a save needs, and those the frame holds. -/
def quotaTrap (need size frame : Nat) : Stop := .trap ⟨.quota, need % 2 ^ 32 + (size - 0x80) * 2 ^ 32, frame⟩

/-- The banks of the pair a context holds. -/
def heldBanks (s : State) (c : Nat) : List (Nat × Nat) :=
  match s.held c with
  | some p => [(p, 0), (p, 1)]
  | none => []

/-- A SYNC with children outstanding saves its task (R237, R377); its JSUS follows in its next turn. -/
def saveTask (s : State) (pa : Nat) : Except Stop State := do
  let c := s.cur
  let v := s.me
  let frame := v.framep.toNat
  waitBanks s (heldBanks s c)
  let (s1, e) := saveEntry s c v.pc.toNat
  let l := e.getD (LiveSet.whole v)
  let pair := s.held c
  let need := if pair.isSome then l.pairAt - 0x80 + pairBytes else l.bytes
  let size := frameSize s c frame
  if size - 0x80 < need then throw (quotaTrap need size frame)
  let s2 ← saveRegs translate c v.user s1 frame l
  let s3 ← match pair with
    | some p => savePair translate c v.user s2 (frame + l.pairAt) p
    | none => pure s2
  let s4 ← writeHeader translate c v.user s3 frame v.pc.toNat (v.frameFlags true e.isNone pair.isSome 1)
  pure (s4.upd (fun w => { w with saved := some pa }))

/-- The pair a context holds is released, as AREL releases it (R159). -/
def leavePair (s : State) (c : Nat) : State :=
  match s.held c with
  | some p => freePair s (ctxStall c) p
  | none => s

/-- JSUS answers WAIT: the task leaves the context, and its continuation waits at the counter (R237). -/
def leaveTask (s : State) (pa : Nat) : State :=
  let c := s.cur
  let v := s.me
  let s1 := suspendAt s pa ⟨v.pc.toNat, v.framep.toNat, v.nt, 0, true⟩ v.rcbp.toNat
  nextTask (enter (leavePair (s1.upd (fun w => { w with saved := none })) c) c .wmsg) c

/-- JSUS answers ZERO: SAVED ← 0 in the frame's header, and the SYNC goes on with its registers intact (R237). -/
def clearSaved (s : State) : Except Stop State := do
  let c := s.cur
  let va := s.me.framep.toNat + 0x38
  let (s1, n) ← readWord (translateFor c) c s.me.user s va 8
  let s2 ← writeWord (translateFor c) c s.me.user s1 va 8 ({ FrameFlags.of n with saved := false }).word
  pure (s2.upd (fun w => { w with saved := none }))

/-- The join of SYNC, SYNCC and TEND, and what follows its completion at the counter's address (R237): in one turn the counter is read
and, unless it is zero, the task saved; in the next JSUS acts, which may find the children ended meanwhile. -/
def syncJoin (s : State) (rest : State → Nat → Except Stop State) : Except Stop State := do
  let c := s.cur
  let complete (t : State) (pa : Nat) : Except Stop State := rest (acquireCaches t c (joinScopeOf s c)) pa
  match s.me.saved with
  | some pa =>
    let (s1, r) ← contextOp s c pa .jsus
    if r = .zero then complete (← clearSaved s1) pa else pure (leaveTask s1 pa)
  | none =>
    let s0 ← settle s
    let (s1, pa) ← locateCounter translate s0 true s.me.user s.me.ownjc.toNat
    let s2 ← atCounter (.issue c) s1 c pa
    if (readCounter s2 pa).count ≠ 0 then saveTask s2 pa else complete s2 pa

def execSync (s : State) : Answer := finish s (syncJoin s (fun t _ => .ok t.advance))

def execSyncc (a : GOne) (s : State) : Answer :=
  finish s (do
    s.me.checkG 0 a.x
    syncJoin s (fun t pa => do
      let old := (readCounter t pa).cas
      let (u, _) ← contextOp t t.cur pa .jcas
      pure (putReply u pa a.x (w64 old)).advance))

def execSyncq (a : GOne) (s : State) : Answer :=
  finish s (do
    s.me.checkG 0 a.x
    let (s0, pa) ← locateCounter translate s false s.me.user s.me.ownjc.toNat
    let s1 ← atCounter (.issue s.cur) s0 s.cur pa
    pure (putReply s1 pa a.x (w64 (s.me.deque.length * 2 ^ 56 + (readCounter s1 pa).word))).advance)

/-! Ending a task. -/

/-- The death of FRAME reason 8 at a TEND (R239). -/
def tendDeath (v : Ctx) : Death :=
  { cause := Cause.frame.code, einfo := 8, eva := 0, async := false, dbl := false, notrap := false, purged := false, abort := false,
    detail := 0, atTend := true, quiet := false, stage := 0, stores := [], tbm := 0, time := 0, next := v.pc }

/-- The context receives RESUME and takes the parent's continuation (R225, R239). -/
def takeResume (s : State) (c pa frame : Nat) : State :=
  ((block (unsuspend s pa).1 c .wmsg .none).updCtx c (fun v => { v with holding := some frame })).next (.resumeContinuation c)

/-- The scope joining a context and the home of a counter (R239): `.sy` for one in another package. -/
def counterScope (c pa : Nat) : Scope := joinArcade (ctxStall c) (counterArcade pa)

/-- PARJC with bit 63 names a counter in another package (R224, R431). -/
def remoteCounter (parjc : Word) : Option Nat := if bitOf parjc.toNat 63 then some (parjc.toNat % 2 ^ 56) else none

/-- A JDEC or JDEAD for a counter in another package, or in the own one (R431). -/
def sendCounterOp (s : State) (c pa : Nat) (dead : Bool) : State :=
  if pkgOf pa = ctxPkg c then s.cause (.remoteCounterOp pa dead)
  else sendMessage s (ctxHall c) (targetHall pa) 0 (s.ctx c).ttag.toNat (.counter pa dead (some c)) (leBytes 8 pa)

/-- The parent's continuation is at the tail of the deque (R223). -/
def parentAtTail (v : Ctx) : Option Entry :=
  match v.deque.getLast? with
  | some e => if e.frame == v.pframe.toNat && v.pframe != 0 then some e else none
  | none => none

/-- What the end of a task leaves behind it: its pair, its granules, its unreported losses. -/
def clearTask (s : State) (c : Nat) : State := freeTaskGranules (reportLosses (leavePair s c) c) c 0
/-- The same with its frame, and the counter at OWNJC. -/
def freeOwn (s : State) (c own : Nat) : State :=
  let s1 := clearTask s c
  match frameAt s1 c (s1.ctx c).framep.toNat with
  | some f => releaseWith s1 (ctxPkg c) f own
  | none => s1

/-- TEND once its join has completed at its counter and no command uses its pair (R239). Its release of a pair, its frames and its
counter follow what it waits for, so that a wait finds the task as it was. -/
def endTask (s : State) (own : Nat) : Except Stop State := do
  let c := s.cur
  let v := s.me
  if v.root then
    pure (goIdle (taskOver (rootOver (clearTask s c) c false) c) c)
  else
    match parentAtTail v with
    | some _ => pure (nextTask (taskOver (freeOwn s c own) c) c)
    | none =>
      match remoteCounter v.parjc with
      | some pa => withQuietRelease s .sy (fun t => .ok (goIdle (taskOver (sendCounterOp (freeOwn t c own) c pa false) c) c))
      | none => do
        let (s1, pa) ← locateCounter translate s true v.user v.parjc.toNat
        withQuietRelease s1 (counterScope c pa) (fun t => do
          let (t1, r) ← contextDec t c pa .jdec
          let t2 := freeOwn t1 c own
          match r with
          | .resume => pure (takeResume (taskOver t2 c) c pa v.pframe.toNat)
          | .release => pure (goIdle (taskOver (releaseByCounter t2 pa) c) c)
          | .under => pure (t2.beginDeath c (tendDeath v))
          | _ => pure (goIdle (taskOver t2 c) c))

def execTend (s : State) : Answer :=
  finish s (do
    flagWait s
    if s.me.enabledFlags ≠ 0 then throw (.trap (arithTrap s.me))
    syncJoin s (fun t pa => do
      waitBanks t (heldBanks t t.cur)
      endTask t pa))

/-- TABORT (R240): the task dies as a casualty; the record names the instruction itself (log entry 116). -/
def execTabort (a : GOne) (s : State) : Answer :=
  finish s (do
    s.me.checkG 0 a.x
    pure (s.beginDeath s.cur
      { cause := 0, einfo := 0, eva := 0, async := false, dbl := false, notrap := false, purged := false, abort := true,
        detail := s.g a.x, atTend := false, quiet := false, stage := 0, stores := [], tbm := 0, time := 0, next := s.me.pc }))

/-- A continuation resumes: for the RESUME its context holds, an acquire at J and the frame (R225, R246); for a restored task, the pair
it waits for (R237). -/
def execResumeContinuation (ctx : Nat) (s : State) : Answer :=
  let v := s.ctx ctx
  match v.holding, v.wait with
  | some f, _ =>
    .next (resumeTask (acquireCaches (s.updCtx ctx (fun w => { w with holding := none })) ctx (joinScopeOf s ctx)) ctx f none)
  | none, .pair va pc =>
    if (freePairOf (s.stall (ctxStall ctx))).isNone || v.dying.isSome then .next s
    else
      match restorePair s ctx va pc with
      | .ok t => .next (wake (t.updCtx ctx (fun w => { w with pc := BitVec.ofNat 57 pc })) ctx)
      | .error (.trap t) => .next (dieAsync (wake s ctx) ctx t)
      | .error _ => .next (wake s ctx)
  | none, _ => .next s

/-! Frames. -/

def execFalloc (a : GUn) (s : State) : Answer :=
  finish s (do
    s.me.checkG 0 a.x
    s.me.checkG 1 a.y
    let c := s.cur
    let n := roundFrame (s.g a.y).toNat
    match s.regionOf c with
    | none => pure (s.complete a.x 0 0)
    | some r => do
      let s1 ← settle s
      match ← allocFrame (translateFor c) s1 c s.me.user true (ctxPkg c) r (ctxArcade c) n with
      | none => pure (s.complete a.x 0 0)
      | some (t, f) => pure (t.complete a.x (w64 f.addr) 0))

/-- FFREE (R228): the frame and the counter at the OWNJC of its header, which is read. -/
def execFfree (a : GOne) (s : State) : Answer :=
  finish s (do
    s.me.checkG 0 a.x
    let c := s.cur
    let user := s.me.user
    let x := (s.g a.x).toNat
    if x % 64 ≠ 0 then throw (alignTrap 5 x)
    match frameAt s c x with
    | none => throw (frameTrap 10)
    | some f =>
      if !f.falloc then throw (frameTrap 10)
      let s0 ← settle s
      let (s1, own) ← readWord translate c user s0 (x + 0x10) 8
      let (s2, pa) ← locateCounter translate s1 true user own
      let s3 ← atCounter (.issue c) s2 c pa
      let j := readCounter s3 pa
      if j.count ≠ 0 ∨ j.s ∨ j.d then throw (frameTrap 2)
      pure (releaseWith s3 (ctxPkg c) f pa).advance)

/-! Counters. -/

/-- A counter instruction at its address, with the order its ORD asks for; without ORD it has none (R227). -/
def runCounter (y : GReg) (z : Option GReg) (imm : Word) (ord : Option OrdQ) (s : State) (op : CounterOp) : Except Stop State := do
  let va := effAddr s y z imm 8
  let (s1, pa) ← locateCounter translate s true s.me.user va
  let act (t : State) : Except Stop State := do
    match ← contextDec t t.cur pa op with
    | (_, .under) => throw (frameTrap 6)
    | (u, r) => pure (acquireOf (settleCounter u pa r) ord).advance
  match releaseOf ord with
  | some sc => releaseThen s1 sc (engineOf ord) act
  | none => do act (← coverFor s1 (counterArcade pa) ord)

def execJinit (a : PMem) (s : State) : Answer :=
  finish s (do
    s.me.checkG 1 a.y
    s.me.checkZ a.z
    runCounter a.y a.z a.imm a.ord s .jinit)

def execJadd (a : GMem) (s : State) : Answer :=
  finish s (do
    s.me.checkG 0 a.x
    s.me.checkG 1 a.y
    s.me.checkZ a.z
    let n := (s.g a.x).toInt
    if n < -(2 ^ 31) ∨ 2 ^ 31 - 1 < n then throw (frameTrap 6)
    runCounter a.y a.z a.imm a.ord s (.jadd n))

/-! PUB (R230). -/

/-- The scope of a region's steal radius. -/
def radiusScope : Nat → Scope
  | 0 => .st | 1 => .ac | 2 => .ha | _ => .pk

/-- The lines of a piece of memory that carry the context's writer tag are written back. -/
def pubLines (s : State) (c : Nat) (sc : Scope) (p : Place) (n : Nat) : State :=
  (s.l1.filter (fun e => l1Stall e.1 == ctxStall c && l1KeyId e.1 == p.key && e.2.wtag == c % 64 &&
    decide (p.pa / 64 ≤ l1LineNo e.1) && decide (64 * l1LineNo e.1 < p.pa + n))).foldl
    (fun t e => flushLine t c { p with pa := 64 * l1LineNo e.1 } sc) s

/-- The first address above `va` at which another translation of the TLB begins, or `hi`. -/
def nextTlbBase (s : State) (c va hi : Nat) : Nat :=
  (s.stall (ctxStall c)).tlb.foldl (fun m t => if va < t.vbase then min m t.vbase else m) hi

/-- The pages from `va` to below `hi` (R230), a translation at a time; a walk that fails at a level fails for all that its entry
covers. -/
def pubRange (c : Nat) (sc : Scope) (hi : Nat) : Nat → State → Nat → State
  | 0, s, _ => s
  | n + 1, s, va =>
    if hi ≤ va then s
    else
      let stop := nextTlbBase s c va hi
      match translateNow s c va ⟨0, false, false, (s.ctx c).user⟩ with
      | .error t =>
        let size := 2 ^ (12 + 9 * (t.einfo / 256 % 4))
        pubRange c sc hi n s (min stop ((va / size + 1) * size))
      | .ok (s1, l) =>
        let size := match findTlb s1 c va with
          | some t => t.size
          | none => 4096
        let stop1 := min stop ((va / size + 1) * size)
        pubRange c sc hi n (if Scope.le .ha sc then pubLines s1 c sc l.place (stop1 - va) else s1) stop1

def execPub (a : GUn) (s : State) : Answer :=
  finish s (do
    s.me.checkG 0 a.x
    s.me.checkG 1 a.y
    let c := s.cur
    let lo := (s.g a.x).toNat
    let n := (s.g a.y).toNat
    let sc := radiusScope (((s.regionOf c).map (·.radius)).getD 3)
    let s1 ← settle s
    -- no line of the windows is held in an L1
    let hi := min (lo + n) windowBase
    pure (pubRange c sc hi (hi / 4096 - lo / 4096 + 1) s1 lo).advance)

/-! Named tiles (R231). -/

def execTname (a : IG) (s : State) : Answer :=
  finish s (do
    checkT 0 a.x
    s.me.checkG 1 a.y
    let slot := (s.g a.y).toNat
    let w := s.me.tile a.x.val
    if 4 ≤ slot then throw (frameTrap 3)
    if (tileOf w).space ≠ 1 ∨ (tileOf w).fmt = .fa56 then throw (frameTrap 4)
    let s1 ← settle s
    let s2 ← writeWord translate s.cur s.me.user s1 (s.me.framep.toNat + 0x40 + 16 * slot) 16 w.toNat
    pure (s2.upd (fun v => { v with nt := max v.nt (slot + 1) })).advance)

/-- TDROP: the device space of the slots dropped returns to the quota (R244, R287). -/
def execTdrop (a : GOne) (s : State) : Answer :=
  finish s (do
    s.me.checkG 0 a.x
    let n := min s.me.nt (s.g a.x).toNat
    pure ((freeTaskGranules s s.cur n).upd (fun v => { v with nt := n })).advance)

end Sys2Proof.Machine
end

