-- ==== Sys2Proof/Machine/Haggler.lean ====
section
/-! DEFINITION. The Haggler (R241 to R245): rounds and their victims, takes from deques and the overflow queue, named-tile moves. -/

namespace Sys2Proof.Machine

/-! Rounds (R241, R242). -/

/-- One step of a stall's LFSR (R242). -/
def lfsrStep (s : BitVec 16) : BitVec 16 :=
  let n := s.toNat
  BitVec.ofNat 16 (n / 2 + (n + n / 4 + n / 8 + n / 32) % 2 * 2 ^ 15)

/-- A list begun at index `i`, cyclically. -/
def rotate {α : Type} (l : List α) (i : Nat) : List α :=
  if l.isEmpty then [] else l.drop (i % l.length) ++ l.take (i % l.length)

/-- A context hunts: IDLE with no message of its last task left in its hall, bound to a running region in whose arcade set it lies
(R241). -/
def canHunt (s : State) (c : Nat) : Bool :=
  match s.regionOf c with
  | some r => (s.ctx c).st == .idle && (s.ctx c).stuck == 0 && r.st == 3 && r.aset.getLsbD (ctxArcade c % 64) && (s.ctx c).rcbp != 0
  | none => false

/-- The four lowest-numbered contexts of a stall that hunt. -/
def hunters (s : State) (k : Nat) : List Nat :=
  (((List.range (s.stall k).ctxn).map (fun i => 64 * k + i)).filter (canHunt s)).take 4

/-- A context may hunt on: it is one of the four for which its stall's Haggler hunts, for the region its hunt serves (R241). -/
def mayHunt (s : State) (c : Nat) (h : Hunt) : Bool :=
  (s.ctx c).rcbp.toNat == h.rcb && (hunters s (ctxStall c)).contains c

/-- The loop distance of two arcades of one hall, and the distance of two halls (R242, R303). -/
def gap (a b : Nat) : Nat := a - b + (b - a)
def loopDistance (p q : Nat) : Nat := gap (p / 4) (q / 4) + gap (p % 4) (q % 4)
def hallDistance (p q : Nat) : Nat := gap (p / 2) (q / 2) + gap (p % 2) (q % 2)

/-- The arcades of other than the own one that a level probes, by tier (R242). -/
def tierArcades (r : Region) (ak level tier : Nat) : List Nat :=
  let h := gridHall (ak % 64)
  let halls := (List.range 4).filter (fun h' => if level = 3 then h' == h else h' != h && hallDistance h h' == tier)
  (halls.flatMap (fun h' => (List.range 16).map (arcadeAt h'))).filter (fun a =>
    a != ak % 64 && r.aset.getLsbD a && (level != 3 || loopDistance (gridPos a) (gridPos (ak % 64)) == tier))

/-- The victims of a round in order (Table 10-9): within each tier they begin at the LFSR modulo its size. -/
def roundVictims (c : Nat) (r : Region) (lfsr b round : Nat) : List (Nat × Nat) :=
  let k := ctxStall c
  let ak := ctxArcade c
  let one := [(1, lfsr)]
  let two := (rotate ((arcadeStalls ak).filter (· != k)) lfsr).map (fun x => (2, x))
  let far (level tiers : Nat) : List (Nat × Nat) :=
    (List.range (tiers + 1)).flatMap (fun t => (rotate (tierArcades r ak level t) lfsr).map (fun a =>
      (level, arcadeStall (ak / 64 * 64 + a) ((b + round) % 8))))
  one ++ (if 1 ≤ r.radius then two else []) ++ (if 2 ≤ r.radius then far 3 6 else []) ++
    (if 3 ≤ r.radius then far 4 2 else []) ++ [(5, 0)] ++ (if bitOf r.barrow.toNat 13 then [(6, 0)] else [])

def setHunt (s : State) (c : Nat) (h : Option Hunt) : State := s.updCtx c (fun v => { v with hunt := h })
def updHunt (s : State) (c : Nat) (f : Hunt → Hunt) : State := s.updCtx c (fun v => { v with hunt := v.hunt.map f })

/-! Entries that the hunting context may run (R243). -/

/-- The scope an affinity allows: 1 stall, 2 arcade, 3 hall; 0 sets no bound beyond the levels themselves (log entry 20). -/
def affinityAllows (aff : Nat) (sc : Scope) : Bool := if aff = 0 then true else decide (sc.code ≤ aff)

/-- The bytes of a tile's new space. -/
def tileSpace (w : Word128) : Nat := roundUp ((tileOf w).rows * (tileOf w).cols * (tileOf w).size) 64

/-- The named tiles of a frame, read for a context. -/
def namedTiles (s : State) (c frame nt : Nat) : Option (State × List Word128) :=
  ((List.range nt).foldlM (fun (p : State × List Word128) i => do
    let (t, n) ← readWord (translateFor c) c false p.1 (frame + 0x40 + 16 * i) 16
    pure (t, p.2 ++ [BitVec.ofNat 128 n])) (s, [])).toOption

/-- Scratchpad bytes of an arcade in use by a region and its descendants, and what is left under every limit of the tree (R251). -/
def quotaUsed (s : State) (pkg top a : Nat) : Nat :=
  (((s.pkg pkg).regions.filter (fun r => below s pkg r.rcb top)).map (fun r => Store.get 0 r.quota a)).sum
def quotaFree (s : State) (pkg rcb a : Nat) : Nat :=
  (lineage s pkg rcb).foldl (fun m r => min m (r.spq - quotaUsed s pkg r.rcb a)) (2 ^ 22)

/-- The free quota of a context's region in its own arcade (R243). -/
def thiefQuota (s : State) (c rcb : Nat) : Nat := quotaFree s (ctxPkg c) rcb (ctxArcade c % 64)

/-- The entry's named tiles fit the quota of a thief in another arcade than `ak` (R243). -/
def tilesAllow (s : State) (reader thief ak : Nat) (e : Entry) (quota : Nat) : Bool :=
  if e.nt = 0 ∨ ak = ctxArcade thief then true
  else
    match namedTiles s reader e.frame e.nt with
    | none => false
    | some (_, ts) => decide ((ts.map tileSpace).sum ≤ quota)

/-- An entry that has been taken goes to the overflow queue, inside the reserved band; while the queue is full the hunt keeps it
(R236, R241). An entry of a region that is gone is discarded (R369). -/
def giveBack (s : State) (c : Nat) (h : Hunt) (e : Entry) : State × Bool :=
  if (s.region (ctxPkg c) h.rcb).isNone then (s, true)
  else
    match returnEntry s (ctxPkg c) h.rcb e with
    | some t => (t, true)
    | none =>
      ((setHunt s c (some { h with asked := false, got := none, kept := some e, moving := false })).cause (.thiefReoffer c), false)

/-! The overflow queue as a victim (R235, R243). -/

/-- The entry at HEAD is taken: HEAD advances by one. -/
def takeOverflow (s : State) (c : Nat) (r : Region) : Option (State × Entry) :=
  let tr := regionTranslator r (ctxPkg c)
  let p := pkgCtx (ctxPkg c)
  let go : Except Stop (State × Entry) := do
    let (s1, q) ← readQueue tr p false s r.ovq
    if q.used = 0 ∨ q.cap = 0 then throw (.wait [])
    let (s2, n) ← readWord tr p false s1 (r.ovq + 0x40 + 16 * (q.head % q.cap)) 16
    let s3 ← writeWord tr p false s2 r.ovq 8 ((q.head + 1) % 2 ^ 64)
    pure (s3, Entry.ofBits n)
  go.toOption

/-- The home arcade of the counter of an entry's frame: the victim's place of an overflow entry (R243). -/
def entryHome (s : State) (c : Nat) (e : Entry) : Nat :=
  match ownCounterOf s c e.frame with
  | .ok (_, pa) => counterArcade pa
  | .error _ => ctxArcade c

/-- A hunt ends; its context hunts anew when it is one of the four again (R241). -/
def dropHunt (s : State) (c : Nat) : State := (setHunt s c none).causeOnce (.huntRound c)

/-- The hunt goes on with its next victim. A round with none left was empty: the next follows. A hunt that is no longer one of the four of
its stall ends (R241). -/
def probeFrom : Nat → State → Nat → State
  | 0, s, _ => s
  | n + 1, s, c =>
    match (s.ctx c).hunt with
    | none => s
    | some h =>
      if !mayHunt s c h then dropHunt s c
      else
        match h.victims with
        | [] =>
          (setHunt s c (some { h with round := h.round + 1, empty := h.empty + 1, asked := false })).cause (.huntRound c)
        | (level, u) :: rest =>
          if level < 5 then
            let k := if level = 1 then ctxStall c else u
            postMessage (setHunt s c (some { h with asked := true, quota := thiefQuota s c h.rcb })) (ctxArcade c) (stallArcade k) (some k) 0 (ctxStall c) .take
              (.take k c)
          else if level = 6 then (setHunt s c (some { h with asked := true })).cause (.barrowTake c)
          else
            match (s.regionOf c).bind (takeOverflow s c) with
            | none => probeFrom n (setHunt s c (some { h with victims := rest })) c
            | some (t, e) =>
              let home := entryHome t c e
              let h' : Hunt := { h with victims := rest }
              if affinityAllows e.aff (joinArcade (ctxStall c) home) && tilesAllow t c c home e (thiefQuota t c h.rcb) then
                (setHunt t c (some { h with asked := true, got := some (e, 5, joinScopeOf t c, home) })).cause (.stealReply c)
              else
                match giveBack (setHunt t c (some h')) c h' e with
                | (t', true) => probeFrom n t' c
                | (t', false) => t'
def probeNext (s : State) (c : Nat) : State := probeFrom 8 s c

/-- A hunt as its first round begins: B is latched (R242). -/
def newHunt (rcb : Nat) (l : BitVec 16) : Hunt :=
  { rcb := rcb, round := 0, empty := 0, latched := l.toNat % 8, victims := [], asked := false, got := none, kept := none, moving := false,
    quota := 0, donated := none }

/-- A hunting round begins (R241, R242). A ready entry of the wake table comes first (R378). -/
def execHuntRound (ctx : Nat) (s : State) : Answer :=
  let k := ctxStall ctx
  if !canHunt s ctx then .next s
  else if (s.stall k).halted then .next (s.cause (.huntRound ctx))
  else if (s.ctx ctx).hunt.any (fun h => h.asked || (endHunt (some h)).isSome) then .next s
  else if !(hunters s k).contains ctx then .next (dropHunt s ctx)
  else if (s.stall k).wake.any (fun w => w.ready && w.rcbp == (s.ctx ctx).rcbp.toNat) then .next (s.next (.resumeEvicted ctx))
  else
    match s.regionOf ctx with
    | none => .next s
    | some r =>
      let l := lfsrStep (s.stall k).lfsr
      let s1 := s.updStall k (fun v => { v with lfsr := l })
      let h : Hunt :=
        match (s.ctx ctx).hunt with
        | some h => if h.rcb = r.rcb then h else newHunt r.rcb l
        | none => newHunt r.rcb l
      .next (probeNext (setHunt s1 ctx (some { h with victims := roundVictims ctx r l.toNat h.latched h.round })) ctx)

/-! Takes (R223, R243). -/

/-- The contexts a victim stall examines, in order: at level 1 the others of the own stall from the start index, else all from the
rotating pointer (R242). -/
def examined (s : State) (k thief level start : Nat) : List Nat :=
  let n := (s.stall k).ctxn
  if level = 1 then rotate (((List.range n).filter (· != thief % 64)).map (fun i => 64 * k + i)) start
  else rotate ((List.range n).map (fun i => 64 * k + i)) (s.stall k).victim

/-- A context's head entry may be taken by a thief (R243, step 2). -/
def mayTake (s : State) (h : Hunt) (thief v : Nat) : Bool :=
  match (s.ctx v).deque with
  | [] => false
  | e :: _ =>
    (s.ctx v).rcbp.toNat == h.rcb && affinityAllows e.aff (joinStalls (ctxStall v) (ctxStall thief)) &&
      tilesAllow s v thief (ctxArcade v) e h.quota

/-- JINC of an entry's counter, unless it is already made (R243, step 3), for context `c` by the event `w`. -/
def jincEntry (w : Event) (s : State) (c : Nat) (e : Entry) : Except Stop State :=
  if e.spilled then .ok s
  else
    match ownCounterOf s c e.frame with
    | .ok (t, pa) => (eventOp w t c pa .jinc).map (·.1)
    | .error _ => .ok s

/-- The answer to a take travels to the thief. -/
def answerTake (s : State) (k thief : Nat) (kind : MsgKind) : State :=
  postMessage s (stallArcade k) (ctxArcade thief) (some (ctxStall thief)) 0 k kind (.stealReply thief)

/-- A TAKE reaches a victim stall (R243). The stall's deque port does nothing while it is halted (R391), and the answer waits for the
victim's release. For a hunt that has ended, or is no longer one of the four of its stall, nothing is removed (R241). -/
def execTake (victim thief : Nat) (s : State) : Answer :=
  match (s.ctx thief).hunt with
  | none => .next s
  | some h =>
    match h.asked, h.got, h.victims with
    | true, none, (level, u) :: _ =>
      if (if level = 1 then ctxStall thief else u) ≠ victim then .next s
      else if (s.stall victim).halted then .next (s.cause (.take victim thief))
      else if !mayHunt s thief h then .next (answerTake s victim thief .empty)
      else
        match (examined s victim thief level u).find? (mayTake s h thief) with
        | none =>
          let some_ := (examined s victim thief level u).any (fun v => (s.ctx v).rcbp.toNat == h.rcb && !(s.ctx v).deque.isEmpty)
          .next (answerTake s victim thief (if some_ then .decline else .empty))
        | some v =>
          match (s.ctx v).deque with
          | [] => .next s
          | e :: rest =>
            if (storeHeldBy (drain s v) v).isSome then .next (s.cause (.take victim thief))
            else
              let sc := joinStalls (ctxStall v) (ctxStall thief)
              let taken : Except Stop State := do
                let s1 ← jincEntry (.take victim thief) (s.updCtx v (fun w => { w with deque := rest })) v e
                let s2 := if level = 1 then s1
                  else s1.updStall victim (fun w => { w with victim := (v % 64 + 1) % w.ctxn })
                let s3 := updHunt (releaseNow s2 v sc) thief (fun x => { x with got := some (e, level, sc, ctxArcade v) })
                pure (answerTake s3 victim thief .stealReply)
              .next (finishEvent (.take victim thief) v s taken s)
    | _, _, _ => .next s

/-! Named-tile moves (R244). -/

/-- `n` free granules of an arcade's device area in a row (R287). -/
def findGranules (used : List (Nat × Granule)) (n : Nat) : Option Nat :=
  (32768 :: used.map (fun e => e.1 + 1)).find? (fun g =>
    decide (g + n ≤ 65536) && used.all (fun e => decide (e.1 < g) || decide (g + n ≤ e.1)))

/-- Space for one tile of a task in an arcade, against its region's quota. -/
def allocTile (s : State) (ak rcb tag slot bytes : Nat) : Option State :=
  (findGranules (s.arcade ak).granules (bytes / 64)).map (fun g =>
    let put (m : List (Nat × Granule)) (i : Nat) : List (Nat × Granule) := Store.put m (g + i) ⟨rcb, tag, slot⟩
    let s1 := s.updArcade ak (fun a => { a with granules := (List.range (bytes / 64)).foldl put a.granules })
    s1.updRegion (arcadePkg ak) rcb (fun r =>
      { r with quota := Store.set 0 r.quota (ak % 64) (Store.get 0 r.quota (ak % 64) + bytes) }))

/-- The tag of a frame's task. -/
def frameTag (s : State) (c frame : Nat) : Nat :=
  match readWord (translateFor c) c false s (frame + 0x20) 4 with
  | .ok (_, n) => n
  | .error _ => 0

/-- Space for every named tile of an entry. -/
def allocTiles (s : State) (c : Nat) (e : Entry) : Option State := do
  let (s1, ts) ← namedTiles s c e.frame e.nt
  let tag := frameTag s1 c e.frame
  ts.zipIdx.foldlM (fun t x => allocTile t (ctxArcade c) (s.ctx c).rcbp.toNat tag x.2 (tileSpace x.1)) s1

/-- Replace bits [hi:lo] of a descriptor. -/
def setBitsOf (w : Word128) (hi lo x : Nat) : Word128 :=
  BitVec.ofNat 128 (w.toNat - bitsOf w.toNat hi lo * 2 ^ lo + x % 2 ^ (hi + 1 - lo) * 2 ^ lo)

/-- A scratchpad byte that a tile of a task of arcade `ak` names. -/
def tilePa (ak va : Nat) : Nat := scratchBase ak + (va + 2 ^ 64 - scratchWindow) % 2 ^ 22

/-- The beats of `n` bytes from `src` to `dst`: one for each 64-byte block of the destination (R339). -/
def blockBeats (src dst n : Nat) : List (Nat × Nat × Nat) := (pieces dst n).map (fun p => (src + (p.1 - dst), p.1, p.2))

/-- The beats of one tile's copy, packed line by line from `base` on: rows for DIR = 0, columns for DIR = 1 (R244, step 2). -/
def tileBeats (src base : Nat) (t : Tile) : List (Nat × Nat × Nat) :=
  let lines := if t.dir then t.cols else t.rows
  let n := (if t.dir then t.rows else t.cols) * t.size
  (List.range lines).flatMap (fun i => blockBeats (tilePa src (if t.dir then t.addr 0 i else t.addr i 0)) (base + n * i) n)

/-- The descriptor of a tile that has moved to granule `g` (R244, step 3). -/
def movedTile (g : Nat) (w : Word128) : Word128 :=
  let t := tileOf w
  setBitsOf (setBitsOf w 56 0 (scratchWindow + 64 * g)) 97 78 (if t.dir then t.rows else t.cols)

/-- The named tiles of a taken entry with the granules they have in the thief's arcade: slot, descriptor, first granule. -/
def tilePlaces (s : State) (c : Nat) (e : Entry) : State × List (Nat × Word128 × Nat) :=
  match namedTiles s c e.frame e.nt with
  | none => (s, [])
  | some (s0, ts) =>
    let tag := frameTag s0 c e.frame
    (s0, ts.zipIdx.filterMap (fun x =>
      ((s0.arcade (ctxArcade c)).granules.find? (fun q => q.2 == ⟨(s.ctx c).rcbp.toNat, tag, x.2⟩)).map (fun g => (x.2, x.1, g.1))))

/-- Channel 15 of the thief's Carter gets the copy of a taken entry's tiles to make (R244, R333). -/
def startMove (s : State) (c src : Nat) (e : Entry) : State :=
  let (s1, ts) := tilePlaces s c e
  let beats := ts.flatMap (fun x => tileBeats src (scratchBase (ctxArcade c) + 64 * x.2.2) (tileOf x.2.1))
  (s1.updArcade (ctxArcade c) (fun a => { a with moves := a.moves ++ [⟨c, beats⟩] })).causeOnce (.carterBeat (ctxArcade c))

/-- The tiles have moved: their descriptors are rewritten, and their old space returned (R244, steps 3 and 4). -/
def finishMove (s : State) (c src : Nat) (e : Entry) : State :=
  let (s1, ts) := tilePlaces s c e
  let tag := frameTag s1 c e.frame
  let s2 := ts.foldl (fun t x =>
    (writeWord (translateFor c) c false t (e.frame + 0x40 + 16 * x.1) 16 (movedTile x.2.2 x.2.1).toNat).toOption.getD t) s1
  freeGranules s2 src (s.ctx c).rcbp.toNat (fun g => g.tag == tag && decide (g.slot < e.nt))

/-- The hunt has its continuation, and the context runs it (R243, step 6). -/
def runTaken (s : State) (c : Nat) (e : Entry) : State := resumeTask (setHunt s c none) c e.frame (some e.nt)

/-- The context still hunts for the region its hunt serves. -/
def stillHunting (s : State) (c : Nat) (h : Hunt) : Bool := canHunt s c && (s.ctx c).rcbp.toNat == h.rcb

/-- The answer to a take reaches the thief (R243, R244). A context that has other work sends the entry to the overflow queue (R241). -/
def execStealReply (thief : Nat) (s : State) : Answer :=
  match (s.ctx thief).hunt with
  | none => .next s
  | some h =>
    if !h.asked || h.moving then .next s
    else
      let h' : Hunt := { h with victims := h.victims.drop 1, asked := false, got := none }
      match h.got with
      | none => .next (probeNext (setHunt s thief (some h')) thief)
      | some (e, _, sc, src) =>
        let e' : Entry := { e with spilled := true }
        if !stillHunting s thief h then
          match giveBack s thief h' e' with
          | (t, true) => .next (setHunt t thief none)
          | (t, false) => .next t
        else
          let s1 := acquireCaches s thief sc
          if e.nt = 0 ∨ src = ctxArcade thief then .next (runTaken s1 thief e)
          else
            match allocTiles s1 thief e with
            | some t => .next (startMove (updHunt t thief (fun x => { x with moving := true })) thief src e)
            | none =>
              match giveBack s1 thief h' e' with
              | (t, true) => .next (probeNext (setHunt t thief (some h')) thief)
              | (t, false) => .next t

/-- Carter channel 15 has copied the tiles of a taken continuation, and it resumes (R244); a frozen Carter copies nothing (R392). -/
def execTileMoveComplete (thief : Nat) (s : State) : Answer :=
  match (s.ctx thief).hunt with
  | none => .next s
  | some h =>
    match h.moving, h.got with
    | true, some (e, _, _, src) =>
      if carterFrozen s (ctxArcade thief) then .next (s.cause (.tileMoveComplete thief))
      else
        let s1 := finishMove s thief src e
        if stillHunting s1 thief h then .next (runTaken s1 thief e)
        else
          match giveBack s1 thief h { e with spilled := true } with
          | (t, true) => .next (setHunt t thief none)
          | (t, false) => .next t
    | _, _ => .next s

/-- A thief offers an entry it cannot run to the overflow queue again (R236). -/
def execThiefReoffer (thief : Nat) (s : State) : Answer :=
  match (s.ctx thief).hunt with
  | none => .next s
  | some h =>
    match h.kept with
    | none => .next s
    | some e =>
      match giveBack s thief h e with
      | (t, true) =>
        let t' := setHunt t thief (some { h with kept := none })
        .next (if stillHunting t thief h then probeNext t' thief else setHunt t thief none)
      | (t, false) => .next t

end Sys2Proof.Machine
end

