-- ==== Sys2Proof/Machine/Launch.lean ====
section
/-! DEFINITION. Admission of a launch (R250, R253), the NDO object (R89 to R91, R452), the wait list and binding (R255, R269), loading and
release (R256, R257), the end of a region (R258), RLAUNCH, RWAIT and RQUERY (R262, R263), the gang barrier (R259, R260). -/

namespace Sys2Proof.Machine

/-! The NDO object. -/

structure Section where
  kind : Nat
  role : Nat
  off : Nat
  size : Nat
  va : Nat
  deriving DecidableEq, Repr

/-- An NDO object as the launch unit reads it: its entry PCs by role, PLACE and BOOT. -/
structure Ndo where
  roles : Nat
  sections : List Section
  entries : List Nat
  place : List (Nat × Nat × Nat)
  boot : List (Nat × Nat)
  deriving DecidableEq, Repr

/-- The role index of the whole object. -/
def wholeObject : Nat := 0xFFFFFFFF

/-- A number of `n` bytes of an object, unless it holds an uncorrectable error. -/
def readObject (tr : Translator) (c : Nat) (s : State) (va n : Nat) : Except Stop (State × Nat) := do
  let (t, bs, bad) ← readSpan tr c (devAcc false false) s va n
  match bad with
  | some x => throw (.trap ((devAcc false false).ecc x false))
  | none => pure (t, leNat bs)

/-- The object is none that can be loaded. -/
def badObject : Stop := .wait []

/-- `n` entries of `size` bytes each. -/
def readArray (tr : Translator) (c : Nat) (s : State) (va size n : Nat) : Except Stop (State × List Nat) :=
  (List.range n).foldlM (fun p i => do
    let (t, x) ← readObject tr c p.1 (va + size * i) size
    pure (t, p.2 ++ [x])) (s, [])

def Section.of (n : Nat) : Section := ⟨bitsOf n 31 0, bitsOf n 63 32, bitsOf n 127 64, bitsOf n 191 128, bitsOf n 255 192⟩

/-- The sections of a kind, as one array. -/
def readSections (tr : Translator) (c : Nat) (s : State) (image kind size : Nat) (l : List Section) :
    Except Stop (State × List Nat) :=
  (l.filter (fun x => x.kind == kind)).foldlM (fun (p : State × List Nat) x => do
    let (t, es) ← readArray tr c p.1 (image + x.off) size (x.size / size)
    pure (t, p.2 ++ es)) (s, [])

/-- The object at IMAGE (R89, R452). A section of another type than those of Table 03-10, or of a role that the object has not, makes it none
that can be loaded (log entry 101). -/
def readNdo (tr : Translator) (c : Nat) (s : State) (image : Nat) : Except Stop (State × Ndo) := do
  let (s1, h) ← readObject tr c s image 64
  let roles := bitsOf h 127 96
  if bitsOf h 31 0 ≠ 0x004F444E ∨ bitsOf h 63 32 ≠ 1 ∨ roles = 0 ∨ 256 < roles then throw badObject
  let (s2, es) ← readArray tr c s1 (image + bitsOf h 191 128) 32 (bitsOf h 95 64)
  let secs := es.map Section.of
  if secs.any (fun x => x.kind == 0 || decide (10 < x.kind) || x.kind == 9 || (decide (roles ≤ x.role) && x.role != wholeObject)) then
    throw badObject
  match secs.filter (fun x => x.kind == 10) with
  | [x] =>
    if x.role ≠ wholeObject ∨ x.size ≠ 16 * roles then throw badObject
    let (s3, ents) ← readSections tr c s2 image 10 16 secs
    let (s4, place) ← readSections tr c s3 image 5 16 secs
    let (s5, boot) ← readSections tr c s4 image 6 8 secs
    pure (s5, ⟨roles, secs, ents.map (· % 2 ^ 64), place.map (fun e => (bitsOf e 31 0, bitsOf e 63 32, bitsOf e 79 64)),
      boot.map (fun e => (bitsOf e 31 0, bitsOf e 63 32))⟩)
  | _ => throw badObject

/-- The role of a rank (R90). -/
def Ndo.roleOf (x : Ndo) (rank : Nat) : Nat :=
  ((x.place.find? (fun e => decide (e.1 ≤ rank) && decide (rank ≤ e.2.1))).map (·.2.2)).getD 0
def Ndo.entryPc (x : Ndo) (role : Nat) : Nat := x.entries.getD role 0

/-- An entry PC that R452 refuses. -/
def badEntry (pc : Nat) : Bool := pc == 0 || bitOf pc 0 || decide (2 ^ 57 ≤ pc)

/-- The object serves a region of `gsz` ranks (R253, IMAGE). Role 0 needs its entry PC whether a rank runs it or not (log entry 102). -/
def Ndo.serves (x : Ndo) (gang : Bool) (gsz : Nat) : Bool :=
  ((List.range gsz).all (fun k => decide (x.roleOf k < x.roles) && !badEntry (x.entryPc (x.roleOf k)))) &&
    !badEntry (x.entryPc 0) && (gang || decide (((x.place.map (·.2.2)).eraseDups).length ≤ 1))

/-! Region control blocks. -/

/-- The words of an RCB, read by the device. -/
def readRcb (s : State) (pkg : Nat) (p : Place) : State × List Nat :=
  (List.range 4).foldl (fun (a : State × List Nat) i =>
    let (t, bs) := devRead a.1 (pkgCtx pkg) { p with pa := p.pa + 64 * i } 64
    (t, a.2 ++ (List.range 8).map (fun j => leNat ((bs.drop (8 * j)).take 8)))) (s, [])
def writeRcb (s : State) (pkg : Nat) (p : Place) (i x : Nat) : State :=
  devWrite s (pkgCtx pkg) { p with pa := p.pa + 8 * i } (leBytes 8 x)

/-- The words that each group of R248 holds; groups 1 to 3 share POLICY. -/
def groupWords : List (Nat × Nat) :=
  [(0, 2), (4, 5), (5, 6), (6, 7), (7, 8), (8, 9), (9, 10), (9, 11), (10, 12), (11, 13), (12, 14), (13, 15)]

/-- POLICY with the groups that are inherited (Table 11-1). -/
def resolvePolicy (own parent ovr : Nat) : Nat :=
  own - bitsOf own 1 0 - bitsOf own 2 2 * 4 - bitsOf own 7 4 * 16 +
    bitsOf (if bitOf ovr 1 then own else parent) 1 0 + bitsOf (if bitOf ovr 2 then own else parent) 2 2 * 4 +
    bitsOf (if bitOf ovr 3 then own else parent) 7 4 * 16

/-- Inheritance (R250): the child's words with every group resolved, OVR all set. -/
def resolveWords (w : List Nat) (parent : Option Region) : List Nat :=
  let ovr := rcbWord w 1
  let w1 := w.set 1 (ovr / 2 ^ 14 * 2 ^ 14 + 0x3FFF)
  match parent with
  | none => w1
  | some p =>
    let w2 := w1.set 4 (resolvePolicy (rcbWord w 4) (p.word 4) ovr)
    groupWords.foldl (fun a e => if bitOf ovr e.1 then a else a.set e.2 (p.word e.2)) w2

/-- RES0 bits of Table 11-1 by word. -/
def rcbRes0 : List (Nat × Nat) :=
  let m := 2 ^ 64
  [(1, m - 2 ^ 14), (3, m - 2 ^ 13), (4, m - 2 ^ 8 + 8), (5, m - 1 - 0x7FFF077F), (6, m - 2 ^ 38), (7, m - 2 ^ 16),
   (8, m - 2 ^ 56), (10, 0xF800F800F800F800), (11, 0xF800F800F800F800), (14, m - 2 ^ 57), (15, m - 2 ^ 14),
   (18, m - 2 ^ 48 + 0xF0), (22, m - 2), (23, m - 2 ^ 57 + (2 ^ 28 - 1))] ++ (List.range 8).map (fun i => (24 + i, m - 1))

/-- Fields in range (Table 11-1). -/
def rcbRanges (r : Region) : Bool :=
  rcbRes0.all (fun e => Nat.land (r.word e.1) e.2 == 0) &&
  decide (1 ≤ r.ctxb) && decide (r.ctxb ≤ 64) && decide (r.pairb ≤ 4) &&
  decide (8 ≤ r.gwinb) && decide (r.gwinb ≤ 128) && decide (r.gwinb % 8 = 0) &&
  decide (4 ≤ r.vwinb) && decide (r.vwinb ≤ 64) && decide (r.vwinb % 4 = 0) &&
  decide (r.spq % 64 = 0) && decide (r.hsram ≤ 32) && decide (poolSize r ≠ 0)

/-- The launch rectangle lies in the grid and in the arcade set; the set and the budgets stay within the parent's (R251). -/
def rcbBounds (r : Region) (parent : Option Region) : Bool :=
  decide (r.row0 + r.rows ≤ 8) && decide (r.col0 + r.cols ≤ 8) && r.rect.all (fun a => r.aset.getLsbD a) &&
  match parent with
  | none => true
  | some p =>
    r.aset &&& ~~~p.aset == 0 && decide (r.ctxb ≤ p.ctxb) && decide (r.pairb ≤ p.pairb) && decide (r.gwinb ≤ p.gwinb) &&
    decide (r.vwinb ≤ p.vwinb) && decide (r.spq ≤ p.spq) && decide (r.hsram ≤ p.hsram) && decide (r.prio ≤ p.prio)

/-- The windows fit the partition of every stall of the rectangle (Table 09-3). -/
def rcbWindows (s : State) (pkg : Nat) (r : Region) : Bool :=
  (r.stalls pkg).all (fun k => decide (r.gwinb * (s.stall k).ctxn ≤ 2048) && decide (r.vwinb * (s.stall k).ctxn ≤ 1024))

/-- The overflow queue's header (R253). -/
def rcbQueue (s : State) (pkg : Nat) (r : Region) : Bool :=
  let tr := regionTranslator r pkg
  let go : Except Stop QueueHead := do
    let s1 ← checkSpan tr (devAcc true false) s r.ovq 64
    let (_, _, bad) ← readSpan tr (pkgCtx pkg) (devAcc false false) s1 r.ovq 64
    if bad.isSome then throw badObject
    let (_, q) ← readQueue tr (pkgCtx pkg) false s1 r.ovq
    pure q
  decide (r.ovq % 64 = 0) &&
  match go with
  | .ok q => decide (64 ≤ q.cap) && decide (q.cap ≤ 2 ^ 20) && decide (2 ^ Nat.log2 q.cap = q.cap) && decide (16 ≤ q.lwm) &&
      decide (q.lwm ≤ q.cap / 2)
  | .error _ => false

/-- The roots that a release starts. -/
def Region.roots (r : Region) : Nat := if r.gang then r.gsz else 1

/-- ROOTSZ and FPOOL (R253). -/
def rcbPool (r : Region) : Bool :=
  decide (roundFrame r.rootsz ≤ 65536) && decide (roundFrame r.rootsz * r.roots ≤ poolSize r)

/-- A region as its resolved words describe it, before it is admitted. -/
def newRegion (s : State) (pkg rcb : Nat) (p : Place) (words : List Nat) : Region where
  rcb := rcb
  place := p
  words := words
  donejc := 0
  st := 1
  since := s.timeOf pkg
  held := false
  bound := []
  former := []
  loaded := []
  left := 0
  casr := 0
  up := rcbWord words 0
  acq := none
  ending := none
  live := 0
  abort := false
  phase := false
  expected := 0
  quota := []

/-- What admission answers (R253). -/
inductive Admission
  | admitted (r : Region)
  | failed (code : Nat)
  deriving DecidableEq, Repr

/-- A failed launch writes ST ← 5 and its code. -/
def failLaunch (s : State) (pkg : Nat) (p : Place) (old code : Nat) : State :=
  writeRcb s pkg p 18 (old - old % 2 ^ 16 + bitsOf old 7 4 * 16 + code * 2 ^ 8 + 5)

/-- The parent's record: `none` inside when it is not admitted. -/
def parentOf (s : State) (pkg parent : Nat) : Option (Option Region) :=
  if parent = 0 then some none else (s.region pkg parent).map some

/-- Admission (R250, R253). A region that passes is WAITING, its RCB resolved. `donejc` is the physical address of its counter. An RCB
at the address of an admitted region fails (log entry 117). -/
def admitRegion (s : State) (pkg rcb donejc : Nat) (p : Place) : State × Admission :=
  let (s0, w) := readRcb s pkg p
  let st := rcbWord w 18
  let bad (code : Nat) : State × Admission := (failLaunch s0 pkg p st code, .failed code)
  match parentOf s0 pkg (rcbWord w 0) with
  | none => bad 1
  | some parent =>
    let words := (resolveWords w parent).set 18 1
    let r : Region := { newRegion s0 pkg rcb p words with donejc := donejc, acq := parent.map Region.joinScope }
    let s1 := (List.range 16).foldl (fun t i => if rcbWord w i = r.word i then t else writeRcb t pkg p i (r.word i)) s0
    let fresh := (st % 16 == 0 || st % 16 == 4 || st % 16 == 5) && (s0.pkg pkg).regions.all (fun q => q.rcb != rcb)
    let res0 := rcbRes0.all (fun e => Nat.land (rcbWord (words.set 18 st) e.1) e.2 == 0)
    if !(fresh && res0 && rcbRanges r && (parent.isSome || rcbWord w 1 % 2 ^ 14 == 0x3FFF) && rcbBounds r parent &&
        rcbWindows s1 pkg r && rcbQueue s1 pkg r && rcbPool r) then bad 1
    else
      match readNdo (regionTranslator r pkg) (pkgCtx pkg) s1 r.image with
      | .error _ => bad 2
      | .ok (s2, x) =>
        if !x.serves r.gang r.gsz then bad 2
        else
          let s3 := s2.updPkg pkg (fun k => { k with regions := k.regions ++ [r], waitlist := k.waitlist ++ [rcb] })
          (putRegionState s3 pkg r 0, .admitted r)

/-! The wait list (R255, R269). -/

/-- The contexts of a stall bound to a region or to a descendant of it: they count against its CTXB (R251). -/
def ctxsHeld (s : State) (pkg k top : Nat) : Nat :=
  ((List.range (s.stall k).ctxn).map (fun i => 64 * k + i)).countP (fun c => below s pkg (s.ctx c).rcbp.toNat top)

/-- One more context of a stall fits the CTXB of every ancestor of a region, beside those already chosen (R251). -/
def ctxFits (s : State) (pkg : Nat) (r : Region) (k : Nat) (chosen : List Nat) (c : Nat) : Bool :=
  ((lineage s pkg r.rcb).drop 1).all (fun a =>
    let outside (d : Nat) : Bool := !below s pkg (s.ctx d).rcbp.toNat a.rcb
    !outside c || decide (ctxsHeld s pkg k a.rcb + chosen.countP outside < a.ctxb))

/-- The lowest-numbered free contexts of a stall for a region (R255): IDLE and unbound, or bound to an ancestor, as far as the budgets of
its ancestors go (R251). -/
def freeContexts (s : State) (pkg : Nat) (r : Region) (k : Nat) : List Nat :=
  (((List.range (s.stall k).ctxn).map (fun i => 64 * k + i)).filter (fun c =>
    let v := s.ctx c
    v.st == .idle && (v.rcbp == 0 || (v.rcbp.toNat != r.rcb && below s pkg r.rcb v.rcbp.toNat)))).foldl
    (fun l c => if ctxFits s pkg r k l c then l ++ [c] else l) []

/-- Every stall of the rectangle has CTXB free contexts. -/
def canBind (s : State) (pkg : Nat) (r : Region) : Bool :=
  (r.stalls pkg).all (fun k => decide (r.ctxb ≤ (freeContexts s pkg r k).length))

/-- Binding (R255): the region becomes LOADING. -/
def bindRegion (s : State) (pkg : Nat) (r : Region) : State :=
  let cs := (r.stalls pkg).flatMap (fun k => (freeContexts s pkg r k).take r.ctxb)
  let old := cs.map (fun c => (c, (s.ctx c).rcbp))
  let s1 := cs.foldl (fun t c => bindContext (leaveDeque (t.updCtx c (fun v => { v with hunt := endHunt v.hunt })) c) c r) s
  let s2 := writeRcb s1 pkg r.place 17 (r.rect.foldl (fun a i => a + 2 ^ i) 0)
  let s3 := s2.updPkg pkg (fun k => { k with waitlist := k.waitlist.filter (· != r.rcb) })
  (updRegionState s3 pkg r.rcb (fun q => { q with st := 2, bound := old, phase := false, expected := q.gsz })).cause
    (.imageLoaded pkg r.rcb)

/-- The contexts that the launch unit asks for on a stall (R269): held by a running region of lower PRIO, and needed beside the free ones.
One that the budget of an ancestor would refuse is none of them (R251). -/
def wantedContexts (s : State) (pkg : Nat) (r : Region) (k : Nat) : List Nat :=
  let free := freeContexts s pkg r k
  let held := ((List.range (s.stall k).ctxn).map (fun i => 64 * k + i)).filter (fun c =>
    match s.regionOf c with
    | some q => (s.ctx c).rcbp != 0 && q.st == 3 && q.rcb != r.rcb && decide (q.prio < r.prio)
    | none => false)
  (held.foldl (fun l c => if l.length < r.ctxb && !l.contains c && ctxFits s pkg r k l c then l ++ [c] else l) free).drop free.length

/-- Pre-emption requests of the launch unit, source 0 (R269, R372); PDEAD of the hall gives the deadline (R373). -/
def askContexts (s : State) (pkg : Nat) (r : Region) : State :=
  ((r.stalls pkg).flatMap (wantedContexts s pkg r)).foldl (fun t c =>
    if (t.ctx c).request.isSome then t else t.cause (.preemptionRequest c 0 ((t.hall (ctxHall c)).pdead != 0))) s

/-- EP (R269). -/
def effectivePrio (s : State) (pkg : Nat) (r : Region) : Nat := min 15 (r.prio + (s.timeOf pkg - r.since) / 1000000)

/-- The waiting regions in the order of R269. -/
def waitingOrder (s : State) (pkg : Nat) : List Region :=
  ((s.pkg pkg).waitlist.filterMap (s.region pkg)).mergeSort (fun a b => decide (effectivePrio s pkg b ≤ effectivePrio s pkg a))

/-- One region is examined; the arcades of regions left unbound block later ones. A region that a slice holds is passed over (R435). -/
def examineOne (pkg : Nat) (p : State × List Nat) (r : Region) : State × List Nat :=
  let (s, blocked) := p
  if r.held then p
  else if r.rect.any blocked.contains then (s, blocked ++ r.rect)
  else if decide ((s.pkg pkg).regions.countP (fun q => q.st == 2 || q.st == 3) < 256) && canBind s pkg r then
    (bindRegion s pkg r, blocked)
  else (askContexts s pkg r, blocked ++ r.rect)

/-- Nothing is bound in a package whose boot has failed: no stall is released (R443). -/
def examineWaitlist (s : State) (pkg : Nat) : State :=
  if !(s.pkg pkg).booted then s else ((waitingOrder s pkg).foldl (examineOne pkg) (s, [])).1

def execWaitlistExamine (pkg : Nat) (s : State) : Answer := .next (examineWaitlist s pkg)

/-! Loading (R256). -/

/-- The arcade an arcade of the rectangle takes its image from; the hall launch unit serves one whose parent lies elsewhere (R91,
R256). Of two entries for one index the first counts (log entry 125). -/
def bootParent (r : Region) (x : Ndo) (q : Nat) : Option Nat :=
  match x.boot.find? (fun e => e.1 == q) with
  | some (_, p) =>
    if p < r.rect.length ∧ gridHall (r.rect.getD p 0) = gridHall (r.rect.getD q 0) then some p else none
  | none => none

/-- The bytes of a section as the parent of an arcade forwards them (R91): from the cache of one of its stalls. -/
def forwardedText (s : State) (pkg : Nat) (r : Region) (x : Ndo) (q asid : Nat) (e : Section) : Option (List Byte) :=
  match bootParent r x q with
  | none => none
  | some p =>
    if !r.loaded.contains p then none
    else (arcadeStalls (64 * pkg + r.rect.getD p 0)).findSome? (fun k =>
      ((s.stall k).texts.find? (fun t => t.asid == asid && t.va == e.va && t.bytes.length == e.size)).map (·.bytes))

/-- What an instruction cache of 64 KiB holds of the sections launched, the latest first (Table 13-1). -/
def capTexts : Nat → List Text → List Text
  | _, [] => []
  | room, t :: r => if room = 0 then [] else { t with bytes := t.bytes.take room } :: capTexts (room - t.bytes.length) r

/-- TEXT of the roles that the ranks of an arcade run goes into its stalls' instruction caches, from the arcade's parent where that has it.
A section that cannot be read is left to the fetches. -/
def loadText (s : State) (pkg : Nat) (r : Region) (x : Ndo) (q : Nat) : State :=
  let ak := 64 * pkg + r.rect.getD q 0
  let tr := regionTranslator r pkg
  let asid := ptbrAsid r.ptbr
  let roles := (List.range 8).map (fun i => x.roleOf (8 * q + i))
  (x.sections.filter (fun e => e.kind == 1 && (e.role == wholeObject || roles.contains e.role))).foldl (fun t e =>
    let got : Except Stop (State × List Byte × Option Nat) := match forwardedText t pkg r x q asid e with
      | some bs => .ok (t, bs, none)
      | none => readSpan tr (pkgCtx pkg) (devAcc false false) t (r.image + e.off) e.size
    match got with
    | .error _ => t
    | .ok (u, bs, _) =>
      let text : Text := ⟨asid, e.va, bs⟩
      (List.range 8).foldl (fun w i =>
        if e.role == wholeObject || x.roleOf (8 * q + i) == e.role then
          w.updStall (arcadeStall ak i) (fun k => { k with texts := capTexts 65536 (text :: k.texts.filter (fun o =>
            !(o.asid == asid && o.va == e.va && o.bytes.length == bs.length))) })
        else w) u) s

/-- The next arcade to load, by index: one that the launch unit or a loaded arcade serves, else the first that is not loaded. -/
def nextLoad (r : Region) (x : Ndo) : Option Nat :=
  let open_ := (List.range r.rect.length).filter (fun q => !r.loaded.contains q)
  (open_.find? (fun q => match bootParent r x q with
    | none => true
    | some p => r.loaded.contains p)).orElse (fun _ => open_.head?)

/-- Release waits for rank 0's arcade, or for all (R256). -/
def Region.loadedEnough (r : Region) : Bool := if r.gang then decide (r.rect.length ≤ r.loaded.length) else r.loaded.contains 0

/-- An arcade has its image. -/
def execImageLoaded (pkg rcb : Nat) (s : State) : Answer :=
  match s.region pkg rcb with
  | none => .next s
  | some r =>
    if r.st ≠ 2 ∧ r.st ≠ 3 then .next s
    else
      let (s1, x) := match readNdo (regionTranslator r pkg) (pkgCtx pkg) s r.image with
        | .ok (t, x) => (t, x)
        | .error _ => (s, ⟨0, [], [], [], []⟩)
      match nextLoad r x with
      | none => .next s
      | some q =>
        let r' : Region := { r with loaded := r.loaded ++ [q] }
        let s2 := (loadText s1 pkg r x q).updRegion pkg rcb (fun v => { v with loaded := r'.loaded })
        let s3 := if r'.loadedEnough && !r.loadedEnough then s2.cause (.rootRelease pkg rcb) else s2
        .next (if r'.loaded.length < r.rect.length then s3.cause (.imageLoaded pkg rcb) else s3)

/-! Release (R257). -/

/-- The first bound context of a rank's stall. -/
def firstBound (r : Region) (pkg rank : Nat) : Option Nat :=
  ((r.bound.map (·.1)).filter (fun c => ctxStall c == r.rankStall pkg rank)).min?

/-- A frame for each root, its header marked; `none` when the pool or a counter arcade has no room. -/
def rootFrames (s : State) (pkg : Nat) (r : Region) (ranks : List Nat) : Option (State × List Frame) :=
  let tr := regionTranslator r pkg
  ranks.foldlM (fun (p : State × List Frame) k =>
    match allocFrame tr p.1 (pkgCtx pkg) false false pkg r (64 * pkg + r.rect.getD (k / 8) 0) (roundFrame r.rootsz) with
    | .ok (some (t, f)) => some (t, p.2 ++ [f])
    | _ => none) (s, [])

/-- A root starts on a context (Table 09-7): with the region's formats, `g4` the RCB and `g5` its rank; a child region's after an
acquire at J of the issuing region (R262). -/
def startRoot (s : State) (pkg : Nat) (r : Region) (x : Ndo) (rank c : Nat) (f : Frame) : State :=
  let tr := regionTranslator r pkg
  let (s1, tag) := newTag s (ctxStall c)
  let s2 := (writeSpan tr (pkgCtx pkg) (devAcc true false) s1 (f.addr + 0x20) (leBytes 4 tag.toNat)).toOption.getD s1
  let s3 := (writeWord tr (pkgCtx pkg) false s2 (f.addr + 0x38) 8 1).toOption.getD s2
  let own := r.spmap + (r.rect.getD (rank / 8) 0) * 2 ^ 22 + f.counter % 2 ^ 22
  let s4 := s3.updCtx c (fun v => v.bear (x.entryPc (x.roleOf rank)) tag.toNat 0 f.addr 0 own 0 r.fmtw.toNat 0 0 0 true)
  let s5 := (s4.putG c (.g 4) (w64 r.rcb)).putG c (.g 5) (w64 rank)
  let s6 := match r.acq with
    | some sc => acquireCaches s5 c sc
    | none => s5
  enter s6 c .run

/-- The roots start and the region is RUNNING (R257); without room for their frames the release waits. -/
def execRootRelease (pkg rcb : Nat) (s : State) : Answer :=
  match s.region pkg rcb with
  | none => .next s
  | some r =>
    if r.st ≠ 2 ∨ !r.loadedEnough then .next s
    else
      let ranks := List.range r.roots
      match readNdo (regionTranslator r pkg) (pkgCtx pkg) s r.image with
      | .error _ => .next (s.cause (.rootRelease pkg rcb))
      | .ok (s1, x) =>
        match rootFrames s1 pkg r ranks with
        | none => .next (s.cause (.rootRelease pkg rcb))
        | some (s2, fs) =>
          let starts := ranks.zip fs
          let s3 := starts.foldl (fun t e =>
            match firstBound r pkg e.1 with
            | some c => startRoot t pkg r x e.1 c e.2
            | none => t) s2
          let s4 := updRegionState s3 pkg rcb (fun q => { q with st := 3, left := r.roots, live := q.live + r.roots })
          .next ((r.bound.map (·.1)).foldl (fun t c => if (t.ctx c).st = .idle then t.cause (.huntRound c) else t) s4)

/-! The end of a region (R258). -/

/-- A completion signal (R258, R265): a 64-bit store or add at system scope through a translator; `none` when it cannot be made. One to a
device's range is delivered there (log entry 9). -/
def makeSignal (tr : Translator) (c : Nat) (s : State) (adr val op : Nat) : Option State :=
  if adr % 8 ≠ 0 then none
  else
    match tr s adr (devAcc true false) with
    | .error _ => none
    | .ok (s1, l) =>
      match storageOf l.place.pa with
      | .aperture _ _ _ => some s1
      | .crier _ => some s1
      | .hallRegs h off =>
        some (writeHallReg s1 h off (if op % 2 = 1 then (hallReg s1 h off + val) % 2 ^ 64 else val))
      | _ =>
        if op % 2 = 0 then some (devWrite s1 c l.place (leBytes 8 val))
        else if isPoisoned s1 c l.place 8 then none
        else
          let (s2, bs) := devRead s1 c l.place 8
          some (devWrite s2 c l.place (leBytes 8 ((leNat bs + val) % 2 ^ 64)))

/-- The signal of a region, or its SIGFAULT in Veram's log (Table 22-4). -/
def signalRegion (s : State) (pkg : Nat) (r : Region) : State :=
  if r.sigadr = 0 then s
  else
    match makeSignal (regionTranslator r pkg) (pkgCtx pkg) s r.sigadr r.sigval r.sigop with
    | some t => t
    | none => s.updPkg pkg (fun k => { k with log := k.log ++ [.sigFault r.rcb] })

/-- The scope joining the arcade set and each completion target (R258): a signal, a counter of another package, and the host whose queue
launched the region lie beyond the package (R329; log entry 97). -/
def endScope (s : State) (pkg : Nat) (r : Region) : Scope :=
  let j := arcadesScope (asetArcades r.aset)
  if r.sigadr ≠ 0 ∨ (r.donejc ≠ 0 ∧ pkgOf r.donejc ≠ pkg) ∨ (s.pkg pkg).queues.any (fun e => e.2.launches.contains r.rcb) then .sy
  else if r.donejc = 0 then j
  else Scope.join j (arcadesScope (asetArcades r.aset ++ [counterArcade r.donejc % 64]))

/-- What the tasks of a region wrote from a context is released: the context may run another region's task by now, whose TBM stays. -/
def endRelease (s : State) (c : Nat) (sc : Scope) : State :=
  let tbm := (s.ctx c).tbm
  (releaseNow (s.updCtx c (fun v => { v with tbm := BitVec.allOnes 51 })) c sc).updCtx c (fun v => { v with tbm := tbm })

/-- An RWAIT waiter gets STATE (R263). -/
def wakeWaiter (s : State) (c : Nat) (x : GReg) (word : Nat) (sc : Scope) : State :=
  wake ((acquireCaches (s.writeG c x (w64 word)) c sc).updCtx c Ctx.advance) c

/-- The RWAIT waiters of an RCB, those evicted as well (R378). -/
def wakeWaiters (s : State) (pkg pa word : Nat) (sc : Scope) : State :=
  let s1 := (s.ctxs.map (·.1)).foldl (fun t c =>
    match (t.ctx c).wait with
    | .region q x => if q = pa ∧ ctxPkg c = pkg ∧ (t.ctx c).dying.isNone then wakeWaiter t c x word sc else t
    | _ => t) s
  { s1 with stalls := s1.stalls.map (fun e => (e.1, { e.2 with wake := e.2.wake.map (fun w =>
      match w.wait with
      | .region q _ => if q = pa ∧ stallPkg e.1 = pkg then { w with ready := true, value := w64 word, acq := some (sc, false) } else w
      | _ => w) })) }

/-- A context that is still bound to the region leaves it, without its pair. -/
def dismissContext (s : State) (rcb c : Nat) : State :=
  if (s.ctx c).rcbp.toNat ≠ rcb then s
  else
    let s1 := match s.held c with
      | some p => freePair s (ctxStall c) p
      | none => s
    let s2 := unbindContext (clearRequests s1 c) c
    if (s2.ctx c).rcbp = 0 then noteFreed s2 c else (noteFreed s2 c).cause (.huntRound c)

/-- What the device kept for a region goes: frames and counter slots, granules, pins (R350), the launch of a Crier queue. Its children
count against its own parent from now on (R251). -/
def forgetRegion (s : State) (pkg rcb : Nat) : State :=
  let s1 := ((s.pkg pkg).frames.filter (fun f => f.rcb == rcb)).foldl (fun t f => releaseFrame t pkg f) s
  let mine (e : Nat × Arcade) : Bool := arcadePkg e.1 == pkg
  let s2 := ((s1.arcades.filter mine).map (·.1)).foldl (fun t ak => (freeGranules t ak rcb (fun _ => true)).updArcade ak (fun a =>
    { a with pins := a.pins.filter (fun x => x.rcb != rcb) })) s1
  s2.updPkg pkg (fun k =>
    { k with
      regions := (k.regions.filter (fun q => q.rcb != rcb)).map (fun q =>
        if q.up = rcb then { q with up := (((s.region pkg rcb).map (·.up)).getD 0) } else q)
      waitlist := k.waitlist.filter (· != rcb)
      queues := k.queues.map (fun e => (e.1, { e.2 with launches := e.2.launches.filter (· != rcb) })) })

/-- The operation that the completion counter gets (R258, step 4). -/
def endOp (code : Nat) : CounterOp := if code ≠ 0 then .jdead else .jadd (-1)
def completeCounter (s : State) (pa code : Nat) : State := if pa = 0 then s else bankOp s pa (endOp code)
/-- It waits while a return buffer is full (R236), and the steps behind it with it. -/
def counterReady (s : State) (pa code : Nat) : Bool := pa == 0 || !counterHeld s pa (endOp code)

/-- ST of a region that ends with a CODE. -/
def endState (code : Nat) : Nat := if code = 0 then 4 else 5

/-- Steps 1 to 3 of R258. -/
def beginEnd (s : State) (pkg : Nat) (r : Region) : State :=
  let code := if r.abort then 4 else if r.casr ≠ 0 then 5 else 0
  let sc := endScope s pkg r
  let s1 := (r.bound.map (·.1)).foldl (fun t c => dismissContext t r.rcb c) s
  let s2 := putRegionState s1 pkg { r with st := endState code } code
  let s3 := (r.bound.map (·.1) ++ r.former).eraseDups.foldl (fun t c => endRelease t c sc) s2
  s3.updRegion pkg r.rcb (fun q => { q with ending := some code, bound := [], former := [] })

/-- Steps 4 to 6. -/
def closeEnd (s : State) (pkg : Nat) (r : Region) (code : Nat) : State :=
  let s1 := completeCounter s r.donejc code
  let s2 := signalRegion s1 pkg r
  let s3 := wakeWaiters s2 pkg r.place.pa (({ r with st := endState code } : Region).stateWord code) (endScope s pkg r)
  ((forgetRegion s3 pkg r.rcb).cause (.waitlistExamine pkg)).cause (.distributorSelect pkg)

/-- Steps 4 to 6 when the completion counter can take its operation; else they are tried again. -/
def finishEnd (s : State) (pkg : Nat) (r : Region) (code : Nat) : State :=
  if counterReady s r.donejc code then closeEnd s pkg r code
  else (s.causeOnce (.counterReoffer (counterArcade r.donejc))).cause (.regionEnd pkg r.rcb)

/-- Every store of the contexts of a region that has ended is performed, and at `.sy` acknowledged, its host writes read back, so that its
release can be made (R258, step 3; R441). -/
def releasable (s : State) (pkg : Nat) (r : Region) : Bool :=
  (r.bound.map (·.1) ++ r.former).all (fun c =>
    (s.ctx c).storeQ.isEmpty && (endScope s pkg r != .sy || ((s.ctx c).posted == 0 && (s.ctx c).hostAddr.isNone)))

/-- The region has ended: LEFT is 0 and no task is left; or it has been purged (R252, R258). -/
def execRegionEnd (pkg rcb : Nat) (s : State) : Answer :=
  match s.region pkg rcb with
  | none => .next s
  | some r =>
    match r.ending with
    | some code => .next (finishEnd s pkg r code)
    | none =>
      if r.live = 0 ∧ (r.abort ∨ (r.st = 3 ∧ r.left = 0)) then
        let cs := r.bound.map (·.1) ++ r.former
        let s1 := cs.foldl drain s
        if releasable s1 pkg r then
          let s2 := beginEnd s1 pkg r
          .next (match s2.region pkg rcb with
            | some q => finishEnd s2 pkg q (q.ending.getD 0)
            | none => s2)
        else
          let owe := cs.filter (fun c => endScope s1 pkg r == .sy && (s1.ctx c).hostAddr.isSome)
          .next ((owe.foldl askHost s1).cause (.regionEnd pkg rcb))
      else .next s

/-! RLAUNCH, RWAIT, RQUERY. -/

/-- The checks of R262 on an RCB address, and its place. -/
def locateRcb (s : State) (writes : Bool) (va : Nat) : Except Stop (State × Place) := do
  if va % 256 ≠ 0 then throw (alignTrap 5 va)
  let s1 ← checkSpan translate (devAcc writes s.me.user) s va 256
  let (s2, l) ← translate s1 va (devAcc writes s.me.user)
  pure (s2, l.place)

/-- Step 4 of R262: the counter counts the child region. -/
def countLaunch (s : State) (pa : Nat) : Except Stop State :=
  if pa = 0 then .ok s else (contextOp s s.cur pa (.jadd 1)).map (·.1)

def execRlaunch (a : GBin) (s : State) : Answer :=
  finish s (do
    gbinCheck s a
    let c := s.cur
    let pkg := ctxPkg c
    let rcb := (s.g a.y).toNat
    let counter := (s.g (a.z.getD a.x)).toNat
    let (s1, p) ← locateRcb s true rcb
    let (s2, pa) ← if counter = 0 then pure (s1, 0) else locateCounter translate s1 true s.me.user counter
    withQuietRelease s2 (joinScopeOf s2 c) (fun t => do
      if 64 ≤ (t.pkg pkg).waitlist.length then pure (t.complete a.x (BitVec.ofInt 64 (-3)) 0)
      else
        let t1 := writeRcb (writeRcb (writeRcb t pkg p 0 t.me.rcbp.toNat) pkg p 19 counter) pkg p 20 0
        match admitRegion t1 pkg rcb pa p with
        | (t2, .failed code) => pure (t2.complete a.x (BitVec.ofInt 64 (-(code : Int))) 0)
        | (t2, .admitted _) =>
          let t3 := examineWaitlist (← countLaunch t2 pa) pkg
          let bound := ((t3.region pkg rcb).map (fun r => r.st == 2)).getD false
          pure (t3.complete a.x (if bound then 0 else 1) 0)))

/-- STATE of an RCB at its place. -/
def readState (s : State) (p : Place) : State × Nat :=
  let (t, bs) := devRead s s.cur { p with pa := p.pa + 0x90 } 8
  (t, leNat bs)

/-- RWAIT (R263) is an acquire (R311): where it completes at once, at the widest scope (log entry 103). -/
def execRwait (a : GOne) (s : State) : Answer :=
  finish s (do
    s.me.checkG 0 a.x
    let (s1, p) ← locateRcb s false (s.g a.x).toNat
    let s2 ← settle s1
    let (s3, w) := readState s2 p
    let known := (s3.pkg (ctxPkg s3.cur)).regions.any (fun r => r.place.pa == p.pa)
    if w % 16 = 0 ∨ w % 16 = 4 ∨ w % 16 = 5 ∨ !known then pure ((acquireCaches s3 s3.cur .sy).complete a.x (w64 w) 0)
    else pure (block s3 s3.cur .wmsg (.region p.pa a.x)))

def execRquery (a : GUn) (s : State) : Answer :=
  finish s (do
    s.me.checkG 0 a.x
    s.me.checkG 1 a.y
    let (s1, p) ← locateRcb s false (s.g a.y).toNat
    let s2 ← settle s1
    let (s3, w) := readState s2 p
    pure (s3.complete a.x (w64 w) 0))

/-! The gang barrier. -/

/-- The region of the running context, or ILLOP with REASON 12 (R259). -/
def gangRegion (s : State) : Except Stop Region :=
  match (if s.me.rcbp = 0 then none else s.regionOf s.cur) with
  | some r => .ok r
  | none => .error (s.me.illopBase 12)

/-- The scope and order of a barrier instruction: S and its default without ORD (R260). -/
def gangScope (r : Region) (ord : Option OrdQ) : Scope := (ord.map (·.scope)).getD (arcadesScope r.rect)
def gangOrder (dflt : MemOrder) (ord : Option OrdQ) : MemOrder := (ord.map (·.order)).getD dflt
/-- The acquire that a wait's completion makes. -/
def gangAcquire (r : Region) (dflt : MemOrder) (ord : Option OrdQ) : Option (Scope × Bool) :=
  let o := gangOrder dflt ord
  if o = .acq ∨ o = .ar then some (gangScope r ord, engineOf ord) else none
/-- The arcade at whose interface a region's gang barrier stands: that of rank 0 (log entry 59). -/
def gangArcade (pkg : Nat) (r : Region) : Nat := 64 * pkg + r.rect.getD 0 0
/-- An arrival releases first, where its order asks for it, with engine order where ORD[2] does (R316). -/
def gangRelease (s : State) (r : Region) (dflt : MemOrder) (ord : Option OrdQ) (rest : State → Except Stop State) :
    Except Stop State :=
  let o := gangOrder dflt ord
  let sc := gangScope r ord
  if o = .rel ∨ o = .ar then
    releaseThen s sc (engineOf ord) rest
  else do rest (← coverFor s (gangArcade (ctxPkg s.cur) r) ord)

/-- The running context's arrival reaches the barrier, as a message from another arcade (R303, R400). -/
def reachGang (s : State) (r : Region) : Except Stop State :=
  visit (.issue s.cur) s s.cur (gangArcade (ctxPkg s.cur) r) .gangArrival

/-- One arrival (R259): the last flips the phase and reloads the count. -/
def arrive (s : State) (pkg rcb : Nat) : State :=
  match s.region pkg rcb with
  | none => s
  | some r =>
    if r.expected ≤ 1 then
      (s.updRegion pkg rcb (fun q => { q with phase := !q.phase, expected := q.gsz })).next (.gangBarrierWake pkg rcb)
    else s.updRegion pkg rcb (fun q => { q with expected := q.expected - 1 })

/-- The acquire of a completed wait. With engine order it is no other: an engine's writes are in the L2 when its completion is seen, and
its arcade's copies are gone (R316). -/
def acquireWait (s : State) (c : Nat) (acq : Option (Scope × Bool)) : State :=
  match acq with
  | some (sc, _) => acquireCaches s c sc
  | none => s

/-- A waiter of a barrier goes on: what its instruction writes, and its acquire (R259, R344). -/
def endBarrierWait (s : State) (c : Nat) (x : Option GReg) (value : Word) (acq : Option (Scope × Bool)) : State :=
  let s1 := acquireWait s c acq
  let s2 := match x with
    | some r => s1.writeG c r value
    | none => s1
  wake (s2.updCtx c Ctx.advance) c

/-- A barrier that stands in arcade `ak` wakes a waiter: at once in its own arcade, else by a message (R303, R393). -/
def wakeFrom (s : State) (ak c : Nat) (x : Option GReg) (value : Word) (acq : Option (Scope × Bool)) : State :=
  if ak = ctxArcade c then endBarrierWait s c x value acq
  else
    let s1 := s.updCtx c (fun v => { v with wait := .woken x value acq })
    sendTo s1 ak (ctxArcade c) (newMessage s1 (some (ctxStall c)) (s1.ctx c).ttag.toNat (ctxStall c) .wake (.wake c))
/-- The message of a wake is delivered. -/
def arriveWake (s : State) (c : Nat) : State :=
  match (s.ctx c).wait with
  | .woken x value acq => if (s.ctx c).dying.isNone then endBarrierWait s c x value acq else s
  | _ => s

/-- The evicted waiters that a wake from arcade `ak` reaches (R378, R379), each with the register its instruction writes and the value:
in that arcade they are ready, to another a message goes (R303, R400). -/
def wakeEvicted (s : State) (ak : Nat) (hit : Nat → WakeEntry → Option (Option GReg × Word)) : State :=
  s.stalls.foldl (fun t e => e.2.wake.foldl (fun u w =>
    let put (x : WakeEntry) : State := u.updStall e.1 (fun k => { k with wake := k.wake.map (fun y => if y = w then x else y) })
    match hit e.1 w with
    | none => u
    | some (x, value) =>
      if ak = stallArcade e.1 then put { w with ready := true, value := value }
      else sendTo (put { w with wait := .woken x value none }) ak (stallArcade e.1)
        (newMessage u (some e.1) w.tag.toNat e.1 .wake (.ready w.tag.toNat))) t) s
/-- The message of such a wake is delivered in arcade `ak`. -/
def arriveReady (s : State) (ak tag : Nat) : State :=
  (arcadeStalls ak).foldl (fun t k => t.updStall k (fun v => { v with wake := v.wake.map (fun w =>
    match w.wait with
    | .woken _ value _ => if w.tag.toNat = tag then { w with ready := true, value := value } else w
    | _ => w) })) s

/-- Wait until the phase differs from `phase`: at once if it does. -/
def awaitGang (s : State) (pkg rcb : Nat) (phase : Bool) (acq : Option (Scope × Bool)) : State :=
  if ((s.region pkg rcb).map (·.phase)).getD phase = phase then block s s.cur .wmsg (.gang phase acq)
  else (acquireWait s s.cur acq).advance

def execGbar (a : UOrd) (s : State) : Answer :=
  finish s (do
    let r ← gangRegion s
    let pkg := ctxPkg s.cur
    gangRelease s r .ar a.ord (fun t => do
      let u ← reachGang t r
      pure (awaitGang (arrive u pkg r.rcb) pkg r.rcb r.phase (gangAcquire r .ar a.ord))))

def execGbara (a : GOrd) (s : State) : Answer :=
  finish s (do
    let r ← gangRegion s
    s.me.checkG 0 a.x
    gangRelease s r .rel a.ord (fun t => do
      let u ← reachGang t r
      pure ((arrive u (ctxPkg u.cur) r.rcb).complete a.x (if r.phase then 1 else 0) 0)))

def execGbarw (a : GOrd) (s : State) : Answer :=
  finish s (do
    let r ← gangRegion s
    s.me.checkG 0 a.x
    pure (awaitGang s (ctxPkg s.cur) r.rcb ((s.g a.x).getLsbD 0) (gangAcquire r .acq a.ord)))

def execGrank (a : GOne) (s : State) : Answer :=
  finish s (do
    s.me.checkG 0 a.x
    pure (s.complete a.x s.me.rank 0))

def execGsize (a : GOne) (s : State) : Answer :=
  finish s (do
    s.me.checkG 0 a.x
    pure (s.complete a.x s.me.gsz 0))

/-- The phase of a gang barrier has changed: its waiters run, those evicted become ready (R259, R378). -/
def execGangBarrierWake (pkg rcb : Nat) (s : State) : Answer :=
  match s.region pkg rcb with
  | none => .next s
  | some r =>
    let here (c : Nat) (v : Ctx) : Bool := ctxPkg c == pkg && v.rcbp.toNat == rcb && v.dying.isNone
    let s1 := (s.ctxs.map (·.1)).foldl (fun t c =>
      match (t.ctx c).wait with
      | .gang phase acq =>
        if here c (t.ctx c) && phase != r.phase then wakeFrom t (gangArcade pkg r) c none 0 acq else t
      | _ => t) s
    .next (wakeEvicted s1 (gangArcade pkg r) (fun k w =>
      match w.wait with
      | .gang phase _ => if stallPkg k = pkg ∧ w.rcbp = rcb ∧ phase ≠ r.phase then some (none, 0) else none
      | _ => none))

end Sys2Proof.Machine
end

