-- ==== Sys2Proof/Machine/Crier.lean ====
section
/-! DEFINITION. The Crier (R264 to R268): queue descriptors, packets in order, indirect buffers, the distributor. -/

namespace Sys2Proof.Machine

/-! Descriptors (Table 11-5). -/

def State.queue (s : State) (pkg q : Nat) : CrierQueue := Store.get ⟨[], []⟩ (s.pkg pkg).queues q
def State.updQueue (s : State) (pkg q : Nat) (f : CrierQueue → CrierQueue) : State :=
  s.updPkg pkg (fun k => { k with queues := Store.put k.queues q (f (s.queue pkg q)) })

/-- Where descriptor word `i` of a queue lies: CRQT is a physical base (R439), of which the 56 bits of a physical address count (R8; log
entry 100). -/
def queuePlace (s : State) (pkg q i : Nat) : Place :=
  let pa := ((s.pkg pkg).crqt.toNat + 128 * q + 8 * i) % 2 ^ 56
  ⟨pa, paCached pkg pa 0, false, 0, 0⟩
def queueWord (s : State) (pkg q i : Nat) : Nat := leNat (devRead s (pkgCtx pkg) (queuePlace s pkg q i) 8).2
def setQueueWord (s : State) (pkg q i x : Nat) : State :=
  devWrite s (pkgCtx pkg) (queuePlace s pkg q i) (leBytes 8 (x % 2 ^ 64))

structure QueueView where
  seg : Nat
  segn : Nat
  segstart : Nat
  rpos : Nat
  wpos : Nat
  ctl : Nat
  free : Nat
  fcap : Nat
  ftail : Nat
  fhead : Nat
  ptbr : Nat
  deriving DecidableEq, Repr
def queueView (s : State) (pkg q : Nat) : QueueView :=
  let w := queueWord s pkg q
  ⟨w 0, w 1, w 2, w 3, w 4, w 5, w 6, w 7, w 8, w 9, w 10⟩
def QueueView.prio (v : QueueView) : Nat := bitsOf v.ctl 2 0
def QueueView.running (v : QueueView) : Bool := bitsOf v.ctl 9 8 == 1

/-- The Crier translates through the queue's PTBR; a queue has no key table. -/
def queueTranslator (v : QueueView) (pkg : Nat) : Translator := fun s va a =>
  match translateAs s (pkgCtx pkg) (w64 v.ptbr) 0 va a with
  | .ok x => .ok x
  | .error t => .error (.trap t)

/-! Halting (R266). -/

def errBadpkt : Nat := 1
def errDepth : Nat := 2
def errFault : Nat := 3

/-- CTL with QST and ERR as given: PRIO stays, the RES0 bits are written as zero (R7). -/
def ctlWord (ctl qst err : Nat) : Nat := bitsOf ctl 2 0 + qst * 2 ^ 8 + err * 2 ^ 16

/-- The queue halts: QST ← 2 and ERR, its indirect buffers are left, and an MSI-X message interrupts the host (R439). -/
def haltQueue (s : State) (pkg q err : Nat) : State :=
  ((setQueueWord s pkg q 5 (ctlWord (queueWord s pkg q 5) 2 err)).updQueue pkg q (fun v => { v with nest := [] })).updPkg pkg
    (fun k => { k with interrupts := k.interrupts ++ [q] })

/-! The packet in turn. -/

/-- What a queue has in turn. -/
inductive Turned
  | idle
  | halt (err : Nat)
  | packet (kind : Nat) (after : Bool) (words : List Nat)
  deriving DecidableEq, Repr

/-- The packet at an address. -/
def packetAt (s : State) (pkg : Nat) (v : QueueView) (va : Nat) : Turned :=
  if va % 64 ≠ 0 then .halt errFault
  else
    match readObject (queueTranslator v pkg) (pkgCtx pkg) s va 64 with
    | .error _ => .halt errFault
    | .ok (_, n) =>
      .packet (n % 256) (bitOf n 8) ((List.range 8).map (fun i => bitsOf n (64 * i + 63) (64 * i)))

/-- The next packet of a queue (R264, R266): of its innermost buffer, or at RPOS while RPOS < WPOS. -/
def turned (s : State) (pkg q : Nat) : Turned :=
  let v := queueView s pkg q
  if !v.running then .idle
  else
    match (s.queue pkg q).nest with
    | (a, _) :: _ => packetAt s pkg v a
    | [] =>
      if v.wpos ≤ v.rpos then .idle
      else if v.segstart + v.segn ≤ v.rpos ∨ v.rpos < v.segstart then .halt errBadpkt
      else packetAt s pkg v (v.seg + 64 * (v.rpos - v.segstart))

/-- The event of a packet type (Table 11-6); a LAUNCH waits for the distributor (R268). -/
def packetEvent (pkg q kind : Nat) : Event :=
  match kind with
  | 0 => .nopPacket pkg q
  | 1 => .distributorSelect pkg
  | 2 => .signal pkg q
  | 3 => .wait pkg q
  | 4 => .indirect pkg q
  | 5 => .link pkg q
  | 6 => .barrier pkg q
  | _ => .badpkt pkg q

/-- The queue goes on with its next packet. -/
def proceed (s : State) (pkg q : Nat) : State :=
  match turned s pkg q with
  | .idle => s
  | .halt e => haltQueue s pkg q e
  | .packet k _ _ => s.causeOnce (packetEvent pkg q k)

/-- What remains of the buffers when a packet finishes: an INDIRECT finishes with the last packet of its buffer. -/
def popNest : List (Nat × Nat) → List (Nat × Nat)
  | [] => []
  | (a, n) :: r => if n ≤ 1 then popNest r else (a + 64, n - 1) :: r

/-- A packet finishes; at top level RPOS advances (R266). -/
def finishPacket (s : State) (pkg q : Nat) : State :=
  let rest := popNest (s.queue pkg q).nest
  let s1 := s.updQueue pkg q (fun v => { v with nest := rest })
  proceed (if rest.isEmpty then setQueueWord s1 pkg q 3 (queueWord s1 pkg q 3 + 1) else s1) pkg q

/-- AFTER and BARRIER: earlier launches of the queue are not all at ST 4 or 5 (R265). -/
def mustWait (s : State) (pkg q kind : Nat) (after : Bool) : Bool := (after || kind == 6) && !(s.queue pkg q).launches.isEmpty

/-- A packet event: the packet in turn, when it is of the type and nothing holds it; else the queue goes on with what it has. -/
def onPacket (s : State) (pkg q : Nat) (kinds : Nat → Bool) (again : Event) (f : QueueView → List Nat → State) : Answer :=
  match turned s pkg q with
  | .idle => .next s
  | .halt e => .next (haltQueue s pkg q e)
  | .packet k after w =>
    if !kinds k then .next (proceed s pkg q)
    else if mustWait s pkg q k after then .next (s.causeOnce again)
    else .next (f (queueView s pkg q) w)

def execNopPacket (pkg queue : Nat) (s : State) : Answer :=
  onPacket s pkg queue (· == 0) (.nopPacket pkg queue) (fun _ _ => finishPacket s pkg queue)
def execBarrier (pkg queue : Nat) (s : State) : Answer :=
  onPacket s pkg queue (· == 6) (.barrier pkg queue) (fun _ _ => finishPacket s pkg queue)
def execBadpkt (pkg queue : Nat) (s : State) : Answer :=
  onPacket s pkg queue (fun k => decide (7 ≤ k)) (.badpkt pkg queue) (fun _ _ => haltQueue s pkg queue errBadpkt)

def execSignal (pkg queue : Nat) (s : State) : Answer :=
  onPacket s pkg queue (· == 2) (.signal pkg queue) (fun v w =>
    match makeSignal (queueTranslator v pkg) (pkgCtx pkg) s (rcbWord w 1) (rcbWord w 2) (rcbWord w 3 % 2) with
    | some t => finishPacket t pkg queue
    | none => haltQueue s pkg queue errFault)

/-- The conditions of a WAIT. -/
def waitHolds (cond x y : Nat) : Bool :=
  match cond with
  | 0 => decide (y ≤ x)
  | 1 => x == y
  | _ => x != y

def execWait (pkg queue : Nat) (s : State) : Answer :=
  onPacket s pkg queue (· == 3) (.wait pkg queue) (fun v w =>
    let cond := rcbWord w 3 % 4
    if cond = 3 then haltQueue s pkg queue errBadpkt
    else if rcbWord w 1 % 8 ≠ 0 then haltQueue s pkg queue errFault
    else
      match readObject (queueTranslator v pkg) (pkgCtx pkg) s (rcbWord w 1) 8 with
      | .error _ => haltQueue s pkg queue errFault
      | .ok (t, x) => if waitHolds cond x (rcbWord w 2) then finishPacket t pkg queue else s.causeOnce (.wait pkg queue))

/-- INDIRECT (R265, R266): its buffer runs one level deeper. -/
def execIndirect (pkg queue : Nat) (s : State) : Answer :=
  onPacket s pkg queue (· == 4) (.indirect pkg queue) (fun _ w =>
    let count := rcbWord w 2
    if 4 ≤ (s.queue pkg queue).nest.length then haltQueue s pkg queue errDepth
    else if rcbWord w 1 % 64 ≠ 0 then haltQueue s pkg queue errFault
    else if count = 0 ∨ 2 ^ 16 < count then haltQueue s pkg queue errBadpkt
    else proceed (s.updQueue pkg queue (fun k => { k with nest := (rcbWord w 1, count) :: k.nest })) pkg queue)

/-- LINK (R267). -/
def execLink (pkg queue : Nat) (s : State) : Answer :=
  onPacket s pkg queue (· == 5) (.link pkg queue) (fun v w =>
    let segn := rcbWord w 2
    if !(s.queue pkg queue).nest.isEmpty ∨ segn = 0 ∨ 2 ^ 20 < segn then haltQueue s pkg queue errBadpkt
    else if rcbWord w 1 % 64 ≠ 0 then haltQueue s pkg queue errFault
    else if (v.ftail + 2 ^ 64 - v.fhead) % 2 ^ 64 = v.fcap then s.causeOnce (.link pkg queue)
    else
      match makeSignal (queueTranslator v pkg) (pkgCtx pkg) s (v.free + 8 * (v.ftail % v.fcap)) v.seg 0 with
      | none => haltQueue s pkg queue errFault
      | some t =>
        let t1 := setQueueWord (setQueueWord (setQueueWord t pkg queue 0 (rcbWord w 1)) pkg queue 1 segn) pkg queue 2 (v.rpos + 1)
        finishPacket (setQueueWord t1 pkg queue 8 (v.ftail + 1)) pkg queue)

/-! Launches (R265, R268). -/

/-- A launch that admission refuses still makes its signal, under the PTBR of its RCB (R268). -/
def refuseLaunch (s : State) (pkg rcb : Nat) (p : Place) : State :=
  let (s1, w) := readRcb s pkg p
  signalRegion s1 pkg (newRegion s1 pkg rcb p w)

/-- A LAUNCH packet: nothing is written when its RCB cannot be reached (R266). -/
def offerLaunch (s : State) (pkg q : Nat) (v : QueueView) (w : List Nat) : State :=
  let rcb := rcbWord w 1
  let tr := queueTranslator v pkg
  let go : Except Stop (State × Place) := do
    if rcb % 256 ≠ 0 then throw badObject
    let s1 ← checkSpan tr (devAcc true false) s rcb 256
    let (s2, l) ← tr s1 rcb (devAcc true false)
    pure (s2, l.place)
  match go with
  | .error _ => haltQueue s pkg q errFault
  | .ok (s1, p) =>
    let s2 := writeRcb (writeRcb (writeRcb (writeRcb s1 pkg p 20 (rcbWord w 2)) pkg p 21 (rcbWord w 3)) pkg p 22 (rcbWord w 4)) pkg p 19 0
    let (s3, words) := readRcb s2 pkg p
    if rcbWord words 0 ≠ 0 then finishPacket (refuseLaunch (failLaunch s3 pkg p (rcbWord words 18) 1) pkg rcb p) pkg q
    else
      match admitRegion s3 pkg rcb 0 p with
      | (s4, .failed _) => finishPacket (refuseLaunch s4 pkg rcb p) pkg q
      | (s4, .admitted _) =>
        finishPacket ((s4.updQueue pkg q (fun k => { k with launches := k.launches ++ [rcb] })).cause (.waitlistExamine pkg)) pkg q

/-- The LAUNCH that the distributor has selected is admitted (R268). -/
def execLaunch (pkg queue : Nat) (s : State) : Answer :=
  onPacket s pkg queue (· == 1) (.distributorSelect pkg) (fun v w =>
    if 64 ≤ (s.pkg pkg).waitlist.length then s.causeOnce (.distributorSelect pkg) else offerLaunch s pkg queue v w)

/-- Whether a queue's next packet is a LAUNCH, and whether it is ready. -/
def launchTurn (s : State) (pkg q : Nat) : Option Bool :=
  match turned s pkg q with
  | .packet 1 after _ => some (!mustWait s pkg q 1 after)
  | _ => none

/-- The distributor selects a queue (R268): of those with a ready LAUNCH the highest PRIO, ties round-robin after the last one. -/
def execDistributorSelect (pkg : Nat) (s : State) : Answer :=
  let p := s.pkg pkg
  let qs := p.queues.map (·.1)
  let order := qs.filter (fun q => decide (p.lastQueue < q)) ++ qs.filter (fun q => decide (q ≤ p.lastQueue))
  let ready := order.filter (fun q => launchTurn s pkg q == some true)
  let best := (ready.map (fun q => (queueView s pkg q).prio)).foldl max 0
  let again (t : State) : State :=
    if qs.any (fun q => (launchTurn s pkg q).isSome) then t.causeOnce (.distributorSelect pkg) else t
  if 64 ≤ p.waitlist.length then .next (again s)
  else
    match ready.find? (fun q => (queueView s pkg q).prio == best) with
    | none => .next (again s)
    | some q => .next (((s.updPkg pkg (fun k => { k with lastQueue := q })).causeOnce (.distributorSelect pkg)).next (.launch pkg q))

/-! The host's writes (R439, R442). -/

/-- The doorbell sets WPOS. -/
def execDoorbell (pkg queue wpos : Nat) (s : State) : Answer :=
  if 256 ≤ queue then .next s
  else .next (proceed ((setQueueWord s pkg queue 4 wpos).updQueue pkg queue id) pkg queue)

/-- Writing QST ← 1 restarts a queue at RPOS from depth 0 (R266). -/
def execQueueRestart (pkg queue : Nat) (s : State) : Answer :=
  if 256 ≤ queue then .next s
  else
    let ctl := queueWord s pkg queue 5
    let s1 := setQueueWord s pkg queue 5 (ctlWord ctl 1 (bitsOf ctl 23 16))
    .next (proceed (s1.updQueue pkg queue (fun v => { v with nest := [] })) pkg queue)

end Sys2Proof.Machine
end

