-- ==== Sys2Proof/Machine/Death.lean ====
section
/-! DEFINITION. The death of a task (R365 to R369), its fault record (R370, R371), the purge of a region (R252, R369), PURGE (R386). -/

namespace Sys2Proof.Machine

def updDeath (s : State) (c : Nat) (f : Death → Death) : State := s.updCtx c (fun v => { v with dying := v.dying.map f })

/-! The fault record. -/

/-- One discarded store as Table 18-5 lists it. -/
def storeEntry (q : QStore) : List Byte :=
  leBytes 8 (q.va % 2 ^ 57) ++
    leBytes 8 (q.bytes.length % 32 + (if q.rel then 32 else 0) + q.scope.code * 64) ++
    (q.bytes ++ List.replicate (16 - q.bytes.length) 0)

/-- The 1,152 bytes of Table 18-5. -/
def recordBytes (s : State) (c : Nat) (d : Death) : List Byte :=
  let v := s.ctx c
  let flag (b : Bool) (i : Nat) : Nat := if b then 2 ^ i else 0
  leBytes 4 v.ttag.toNat ++ leBytes 4 v.ptag.toNat ++ leBytes 8 d.next.toNat ++
    leBytes 8 (d.cause + flag d.async 8 + flag d.dbl 9 + flag d.notrap 10 + flag d.purged 11 + flag d.abort 12 +
      d.stores.length * 2 ^ 16) ++
    leBytes 8 d.einfo.toNat ++ leBytes 8 d.eva.toNat ++ leBytes 8 d.tbm.toNat ++ leBytes 8 c ++ leBytes 8 d.time.toNat ++
    leBytes 8 v.framep.toNat ++ leBytes 8 v.rcbp.toNat ++ leBytes 8 v.flags.toNat ++ leBytes 8 d.detail.toNat ++ leBytes 32 0 ++
    (List.range 32).flatMap (fun i =>
      match d.stores[i]? with
      | some q => storeEntry q
      | none => leBytes 32 0)

/-- The ring of Table 18-4 takes a record, or counts it in DROP (R371). -/
def fileRecord (s : State) (c : Nat) (d : Death) : State :=
  let tr := translateFor c
  let ring := (s.ctx c).frec.toNat / 64 * 64
  let drop : State :=
    match readWord tr c false s (ring + 0x18) 8 with
    | .ok (t, n) => (writeWord tr c false t (ring + 0x18) 8 ((n + 1) % 2 ^ 64)).toOption.getD s
    | .error _ => s
  let go : Except Stop State := do
    let (s1, head) ← readWord tr c false s ring 8
    let (s2, tail) ← readWord tr c false s1 (ring + 8) 8
    let (s3, cap) ← readWord tr c false s2 (ring + 0x10) 8
    if (tail + 2 ^ 64 - head) % 2 ^ 64 = cap ∨ cap = 0 then throw badObject
    let at_ := ring + 0x40 + 1152 * (tail % cap)
    let s4 ← checkSpan tr (devAcc true false) s3 at_ 1152
    let s5 ← writeSpan tr c (devAcc true false) s4 at_ (recordBytes s c d)
    writeWord tr c false s5 (ring + 8) 8 ((tail + 1) % 2 ^ 64)
  match go with
  | .ok t => t
  | .error _ => drop

/-! The purge of a region (R369). -/

/-- A region and its descendants. -/
def subtree (s : State) (pkg rcb : Nat) : List Region := (s.pkg pkg).regions.filter (fun r => below s pkg r.rcb rcb)

/-- A context runs a task, or waits with one. -/
def hasTask (v : Ctx) : Bool := v.st != .idle && v.holding.isNone

/-- The death of a task by the purge of its region: without a record and without a notice. -/
def quietDeath (v : Ctx) : Death :=
  { cause := 0, einfo := 0, eva := 0, async := false, dbl := false, notrap := false, purged := false, abort := false, detail := 0,
    atTend := false, quiet := true, stage := 0, stores := [], tbm := 0, time := 0, next := v.unissuedPc }

/-- One context of a purged region: its deque goes, its task dies, a RESUME it holds is dropped. -/
def purgeContext (s : State) (c : Nat) : State :=
  let s1 := s.updCtx c (fun v => { v with deque := [] })
  let v := s1.ctx c
  if v.st == .idle then s1
  else if v.holding.isSome then goIdle s1 c
  else if v.dying.isSome then updDeath s1 c (fun d => { d with quiet := true })
  else s1.beginDeath c (quietDeath v)

/-- The overflow queue is emptied. -/
def emptyQueue (s : State) (pkg : Nat) (r : Region) : State :=
  let tr := regionTranslator r pkg
  let p := pkgCtx pkg
  match readQueue tr p false s r.ovq with
  | .ok (t, q) => (writeWord tr p false t r.ovq 8 q.tail).toOption.getD t
  | .error _ => s

/-- Everything a region has queued or suspended is discarded. -/
def discardQueued (s : State) (pkg : Nat) (r : Region) : State :=
  let s1 := emptyQueue s pkg r
  let mine (k : Nat) : Bool := stallPkg k == pkg
  let s2 : State := { s1 with stalls := s1.stalls.map (fun e =>
    (e.1, { e.2 with wake := if mine e.1 then e.2.wake.filter (fun w => w.rcbp != r.rcb) else e.2.wake })) }
  { s2 with arcades := s2.arcades.map (fun e =>
      (e.1, { e.2 with
        suspended := if arcadePkg e.1 = pkg then e.2.suspended.filter (fun x => x.2.2 != r.rcb) else e.2.suspended
        returns := if arcadePkg e.1 = pkg then e.2.returns.filter (fun x => x.2 != r.rcb) else e.2.returns })) }

/-- What contexts have of a region beside their tasks: entries left in a deque, entries that a hunt has taken. -/
def discardHeld (s : State) (pkg rcb : Nat) : State :=
  { s with ctxs := s.ctxs.map (fun e =>
    if ctxPkg e.1 ≠ pkg then e
    else (e.1, { e.2 with
      strays := e.2.strays.filter (fun x => x.1 != rcb)
      hunt := e.2.hunt.filter (fun h => h.rcb != rcb) })) }

/-- One region of the purge: it ends with CODE 4 once its contexts have no task left. -/
def purgeOne (pkg : Nat) (s : State) (r : Region) : State :=
  let cs := (s.ctxs.filter (fun e => ctxPkg e.1 == pkg && e.2.rcbp.toNat == r.rcb)).map (·.1)
  let running := cs.countP (fun c => hasTask (s.ctx c))
  let s1 := updRegionState s pkg r.rcb (fun q =>
    { q with abort := true, live := running, left := 0, casr := min (q.casr + q.left) 0xFFFF })
  let s2 := cs.foldl purgeContext (discardHeld (discardQueued s1 pkg r) pkg r.rcb)
  if running = 0 then s2.cause (.regionEnd pkg r.rcb) else s2

def purgeRegion (s : State) (pkg rcb : Nat) : State := (subtree s pkg rcb).foldl (purgeOne pkg) s

/-! Dying (R366). -/

/-- The stores not yet performed are taken down and discarded, those that wait in the source hall among them; what is in flight to the
context is dropped. -/
def takeDown (s : State) (c : Nat) : State :=
  let v := s.ctx c
  let p := ctxPkg c
  let tag := v.ttag.toNat
  let now := Config.freeTime p s.tick + BitVec.ofInt 64 (s.pkg p).timeOffset
  let s1 := updDeath s c (fun d =>
    { d with stage := 1, stores := (waitingStores s p tag ++ v.storeQ).take 32, tbm := v.tbm, time := now })
  let s2 := s1.updCtx c (fun w => { w with storeQ := [], wait := .none, walked := [], missed := none, saved := none })
  (waitingStreams s2 p tag).foldl (fun t key => discardWaiting t key tag) (dropVisits s2 (.issue c))

/-- The dead task is no more: losses that have come since count in LOSTP (R421), and its region counts one task less. -/
def endDeath (s : State) (c : Nat) : State := taskOver (reportLosses (s.updCtx c (fun v => { v with dying := none })) c) c
/-- The context has no task any more. -/
def buried (s : State) (c : Nat) : State := goIdle (endDeath s c) c

/-- The purge proper: the pair, the messages of the tag, the release at `.pk`. -/
def purgeTask (s : State) (c : Nat) : State :=
  let s1 := match s.held c with
    | some p => freePair s (ctxStall c) p
    | none => s
  let s2 := discardTag s1 (ctxPkg c) (s1.ctx c).ttag.toNat (ctxStall c % 512)
  freeTaskGranules (reportLosses (releaseNow s2 c .pk) c) c 0

/-- What a death does at a counter, where its task's messages reach it (R303); a counter that cannot be located is passed over. -/
def atDeath (s : State) (c va : Nat) (f : State → Nat → Except Stop State) : Except Stop State :=
  match locateCounter (translateFor c) s true false va with
  | .error _ => .ok s
  | .ok (s1, pa) => f s1 pa

/-- JMARK of the own counter: RELEASE frees the own frame and counter (R366). -/
def markOwn (s : State) (c : Nat) : Except Stop State :=
  (atDeath s c (s.ctx c).ownjc.toNat (fun s1 pa => do
    match ← eventOp (.taskDeath c) s1 c pa .jmark with
    | (s2, .release) => pure (releaseByCounter s2 pa)
    | (s2, _) => pure s2)).map (fun t => updDeath t c (fun x => { x with stage := 3 }))

/-- JINC and JDEAD of the parent's counter while the parent's continuation is at the tail: CAS rises by 1. -/
def casualtyAtTail (s : State) (c : Nat) : Except Stop State :=
  atDeath s c (s.ctx c).parjc.toNat (fun s1 pa => do
    let (s2, _) ← eventOp (.taskDeath c) s1 c pa .jinc
    let (s3, _) ← eventOp (.taskDeath c) s2 c pa .jdead
    pure s3)

/-- The death notice to the parent (R366, R368, R431). -/
def notifyParent (s : State) (c : Nat) : Except Stop State :=
  let v := s.ctx c
  match parentAtTail v with
  | some e => do
    let s1 := endDeath (← casualtyAtTail s c) c
    pure (resumeTask (s1.updCtx c (fun w => { w with deque := w.deque.dropLast })) c e.frame (some e.nt))
  | none =>
    match remoteCounter v.parjc with
    | some pa =>
      let s0 := drain s c
      let s1 := releaseNow s c .sy
      .ok (if (s0.ctx c).owesHost then (askHost s0 c).causeOnce (.taskDeath c)
        else if (s1.ctx c).posted ≠ 0 then s1.causeOnce (.taskDeath c) else buried (sendCounterOp s1 c pa true) c)
    | none =>
      match locateCounter (translateFor c) s true false v.parjc.toNat with
      | .error _ => .ok (buried s c)
      | .ok (s1, pa) => do
        let s2 ← atCounter (.event (.taskDeath c)) (releaseNow s1 c (counterScope c pa)) c pa
        if counterHeld s2 pa .jdead then throw (.wait [.counterReoffer (counterArcade pa)])
        match counterOp s2 pa .jdead with
        | (s3, .resume) => pure (takeResume (endDeath s3 c) c pa v.pframe.toNat)
        | (s3, .release) => pure (buried (releaseByCounter s3 pa) c)
        | (s3, .under) => pure (buried (purgeRegion s3 (ctxPkg c) v.rcbp.toNat) c)
        | (s3, _) => pure (buried s3 c)

/-- The end of a death, from its record on: JMARK, then the notice; a purge of the region meanwhile drops both (R369). -/
def closeDeath (s : State) (c : Nat) : State :=
  if (s.ctx c).dying.any (·.quiet) then buried (dropVisits s (.event (.taskDeath c))) c
  else
    let act (t : State) (r : Except Stop State) : State := finishEvent (.taskDeath c) c t r (buried t c)
    let s1 := if (s.ctx c).dying.any (fun d => d.stage == 2) then act s (markOwn s c) else s
    if (s1.ctx c).dying.any (fun d => d.stage == 3) then act s1 (notifyParent s1 c) else s1

/-- The death goes on from its stage; a step that must wait is tried again. -/
def dieOn (s : State) (c : Nat) (d : Death) : State :=
  if 2 ≤ d.stage then closeDeath s c
  else
    let s1 := if d.stage = 0 then takeDown s c else s
    if banksBusy s1 (ctxStall c) (heldBanks s1 c) then
      ((unitEvents (ctxStall c)).foldl State.causeOnce s1).causeOnce (.taskDeath c)
    else
      let s2 := purgeTask s1 c
      let d' := ((s2.ctx c).dying).getD d
      if d'.quiet then buried s2 c
      else
        let s3 := if (s2.ctx c).frec.getLsbD 0 then fileRecord s2 c d' else s2
        if d'.atTend then buried s3 c
        else
          let s4 := if (s3.ctx c).root then rootOver s3 c true else s3
          if ((s4.regionOf c).map (·.fdom)).getD false then buried (purgeRegion s4 (ctxPkg c) (s4.ctx c).rcbp.toNat) c
          else if (s4.ctx c).root then buried s4 c
          else closeDeath (updDeath s4 c (fun x => { x with stage := 2 })) c

def execTaskDeath (ctx : Nat) (s : State) : Answer :=
  match (s.ctx ctx).dying with
  | none => .next s
  | some d => .next (dieOn s ctx d)

/-- PURGE (R386): the task on another context of the stall dies; on the own one, the issuer. -/
def execPurge (a : GUn) (s : State) : Answer :=
  finish s (do
    s.me.checkPriv
    s.me.checkG 0 a.x
    s.me.checkG 1 a.y
    let x := (s.g a.x).toNat
    let c := 64 * ctxStall s.cur + x % 64
    let death (next : BitVec 57) : Death :=
      { cause := 0, einfo := 0, eva := 0, async := false, dbl := false, notrap := false, purged := true, abort := false,
        detail := s.g a.y, atTend := false, quiet := false, stage := 0, stores := [], tbm := 0, time := 0, next := next }
    if 64 ≤ x ∨ s.myStall.ctxn ≤ x then pure (s.complete a.x (BitVec.allOnes 64) 0)
    else if c = s.cur then pure (s.beginDeath c (death s.me.nextPc))
    else if !hasTask (s.ctx c) then pure (s.complete a.x 1 0)
    else pure ((s.complete a.x 0 0).beginDeath c (death (s.ctx c).unissuedPc)))

end Sys2Proof.Machine
end

