-- ==== Sys2Proof/Machine/Preempt.lean ====
section
/-! DEFINITION. Pre-emption (R372 to R374), eviction (R375 to R377, R379), the wake table and resumption (R378). -/

namespace Sys2Proof.Machine

/-! Requests. -/

/-- A pre-emption request names a context (R372): an IDLE one is freed at once, a waiting one is evicted, a running one at its next
blocking point; on a halted stall it waits (R391). A request already pending stays, the new one behind it. -/
def requestContext (s : State) (c source : Nat) (deadline : Bool) (slid : Nat) : State :=
  let v := s.ctx c
  if v.st == .idle && v.rcbp == 0 then s
  else if v.st == .idle && !isHalted s c then freeContext s c
  else
    let s1 := s.updCtx c (fun w => w.setRequests (w.requests ++ [⟨source, deadline, false, false, slid⟩]))
    let s2 := if deadline then s1.causeOnce (.preemptDeadline c) else s1
    if v.st == .wmem || v.st == .wmsg then s2.causeOnce (.evict c) else s2

def execPreemptionRequest (ctx source : Nat) (deadline : Bool) (s : State) : Answer :=
  .next (requestContext s ctx source deadline 0)

/-- The deadline of a request may pass now: that of a slice's at TSTART + GRACE/2 (Table 22-2), the launch unit's after PDEAD cycles, which
are not modelled (log entry 5). -/
def deadlineReached (s : State) (c : Nat) (r : Request) : Bool :=
  r.source != 1 ||
    match (s.pkg (ctxPkg c)).slices.find? (fun x => x.desc.slid == r.slid) with
    | some x => decide (x.desc.tstart + x.desc.grace / 2 ≤ s.timeOf (ctxPkg c))
    | none => true

/-- The deadlines of the pending requests that have one pass (R374); they are suspended while the stall is halted (R391). -/
def execPreemptDeadline (ctx : Nat) (s : State) : Answer :=
  let open_ (r : Request) : Bool := r.deadline && !r.passed
  if !(s.ctx ctx).requests.any open_ then .next s
  else if isHalted s ctx then .next (s.causeOnce (.preemptDeadline ctx))
  else
    let s1 := s.updCtx ctx (fun v => v.setRequests (v.requests.map (fun r =>
      if open_ r && deadlineReached s ctx r then { r with passed := true } else r)))
    .next (if (s1.ctx ctx).requests.any open_ then s1.causeOnce (.preemptDeadline ctx) else s1)

/-! Eviction. -/

/-- The kinds of Table 09-6 at which a task leaves its context (R372): barrier, channel, reply, YIELD. A wait for a page walk, a line or a
channel's queue counts as one for a reply, a wait for a pair as one at once. A waiter whose wake is on its way goes on (R379). -/
def wakeKind : Wait → Option Nat
  | .gang _ _ => some 2
  | .object _ _ _ _ _ => some 2
  | .channel _ _ _ _ _ => some 3
  | .reply _ _ _ => some 4
  | .remote _ _ _ _ _ => some 4
  | .gather _ _ _ _ _ => some 4
  | .donate _ _ _ _ => some 4
  | .region _ _ => some 4
  | .yield => some 5
  | .walk => some 4
  | .line _ _ _ => some 4
  | .slot _ _ | .hostRead => some 4
  | .pair _ _ => some 5
  | _ => none

/-- The wait is not that of a blocking instruction: the task resumes at the PC given, where it issues again, or goes on with its pair
(log entry 73). -/
def againAt (v : Ctx) : Option Nat :=
  match v.wait with
  | .walk | .line _ _ _ | .slot _ _ | .hostRead => some v.pc.toNat
  | .pair _ pc => some pc
  | _ => none

/-- WAKEA and WAKEV (Table 18-7). -/
def wakeWords (s : State) (c : Nat) : Wait → Nat × Nat
  | .gang phase _ => (0, if phase then 1 else 0)
  | .object _ va phase _ _ => (va, if phase then 1 else 0)
  | .channel _ va id _ _ => (va, id % 2 ^ 32)
  | .region _ x => ((s.readG c x).toNat, Config.replyTag s.tick % 2 ^ 16)
  | .yield => (0, 0)
  | .pair _ _ => (0, 0)
  | _ => (0, Config.replyTag s.tick % 2 ^ 16)

/-- The acquire of a wait's completion. -/
def wakeAcquire : Wait → Option (Scope × Bool)
  | .gang _ a => a
  | .object _ _ _ _ a => a
  | .channel _ _ _ _ a => a
  | .remote _ _ _ _ a => a.map (fun sc => (sc, false))
  | .gather _ _ _ _ a => a.map (fun sc => (sc, false))
  | _ => none

/-- The save slot of a register, where the save holds it. -/
def slotOf (l : LiveSet) (frame : Nat) (i : SaveItem) : Option Nat :=
  (l.layout.find? (fun e => e.1 == i)).map (fun e => frame + e.2)
def regSlot (l : LiveSet) (frame : Nat) : GReg → Option Nat
  | .o i => slotOf l frame (.o i.val)
  | .lat => none
  | .g i => slotOf l frame (.g i.val)

/-- The slots of a load's destinations. -/
def destSlots (l : LiveSet) (frame : Nat) : Dest → List (Option Nat)
  | .scalar x _ _ => [regSlot l frame x]
  | .value x => [regSlot l frame x]
  | .pair x => [regSlot l frame x, regSlot l frame (GReg.succ 1 x)]
  | .pairValue x => [regSlot l frame x, regSlot l frame (GReg.succ 1 x)]
  | .vector x _ _ _ => [slotOf l frame (.v x)]
  | .template x _ => [regSlot l frame x]
  | .nothing => []
def waitSlots (l : LiveSet) (frame : Nat) : Wait → List (Option Nat)
  | .reply d _ _ => destSlots l frame d
  | .remote d _ _ _ _ => destSlots l frame d
  | .gather x _ _ _ _ => [slotOf l frame (.v x)]
  | .donate x _ _ _ => [regSlot l frame x]
  | _ => []

/-- A translator for the frame of an evicted task, whose context may serve another region by now. -/
def entryTranslator (k : Nat) (w : WakeEntry) : Translator := fun s va a =>
  match translateAs s (64 * k) w.ptbr w.keyt va a with
  | .ok x => .ok x
  | .error t => .error (.trap t)

/-- A number written into a slot, if there is one. -/
def putSlot (s : State) (k : Nat) (w : WakeEntry) (slot : Option Nat) (n x : Nat) : State :=
  match slot with
  | some va => (writeWord (entryTranslator k w) (64 * k) false s va n x).toOption.getD s
  | none => s

/-- A reply to an evicted task is written into the slots of its destination; the copy for `lat` is dropped (R375). -/
def replyToSlots (s : State) (k : Nat) (w : WakeEntry) (d : Dest) (bs : List Byte) : State :=
  match d, w.slots with
  | .scalar _ size signed, [x] => putSlot s k w x 8 (extendBytes (bs.take size) signed).toNat
  | .value _, [x] => putSlot s k w x 8 (leNat (bs.take 8))
  | .template _ slot, [x] =>
    let (s1, v) := setTemplate s (stallArcade k) slot bs
    putSlot s1 k w x 8 v.toNat
  | .pair _, [x, y] => putSlot (putSlot s k w x 8 (leNat (bs.take 8))) k w y 8 (leNat (bs.drop 8))
  | .pairValue _, [x, y] => putSlot (putSlot s k w x 8 (leNat (bs.take 8))) k w y 8 (leNat (bs.drop 8))
  | .vector _ size active bcast, [some va] =>
    match readWord (entryTranslator k w) (64 * k) false s va 128 with
    | .error _ => s
    | .ok (t, old) =>
      let data := if bcast then (active.map (fun _ => bs.take size)).flatten else bs
      putSlot t k w (some va) 128 (placeElements (BitVec.ofNat 1024 old) size active data).toNat
  | _, _ => s

/-- Flags of a reply join CFLAGS in the frame (R320). -/
def flagsToFrame (s : State) (k : Nat) (w : WakeEntry) (f : FlagSet) : State :=
  if f = 0 then s
  else
    match readWord (entryTranslator k w) (64 * k) false s (w.frame + 0x38) 8 with
    | .error _ => s
    | .ok (t, n) =>
      let h := FrameFlags.of n
      putSlot t k w (some (w.frame + 0x38)) 8 ({ h with cflags := h.cflags ||| f }).word

/-- The 64-byte trailer (Table 18-7). -/
def trailerBytes (s : State) (c : Nat) (w : Wait) : List Byte :=
  let v := s.ctx c
  let (a, x) := wakeWords s c w
  leBytes 8 a ++ leBytes 8 x ++ leBytes 8 (readCsr s c .status).toNat ++ leBytes 8 v.epc.toNat ++ leBytes 8 v.ecause.toNat ++
    leBytes 8 v.einfo.toNat ++ leBytes 8 v.eva.toNat ++ leBytes 8 v.sscratch.toNat

/-- The wake entry is ready as it is made: a reply that is there, a wait for nothing outside the stall. -/
def readyAtOnce : Wait → Bool
  | .reply _ _ _ => true
  | .walk | .hostRead => true
  | .pair _ _ => true
  | .yield => true
  | _ => false

/-- The save holds a pair: the one the context holds, or the one it waits for. -/
def savesPair (s : State) (c : Nat) : Bool :=
  (s.held c).isSome || (match (s.ctx c).wait with
    | .pair _ _ => true
    | _ => false)

/-- The task is saved and takes a wake entry, and its context is freed (R375). -/
def saveAndFree (s : State) (c : Nat) (kind : Nat) (e : Option LiveSet) : Except Stop State := do
  let tr := translateFor c
  let v := s.ctx c
  let k := ctxStall c
  let frame := v.framep.toNat
  let l := e.getD (LiveSet.whole v)
  let pair := s.held c
  let flags := match v.wait with
    | .reply _ _ f => f
    | _ => 0
  -- the pair that a restored task waits for lies where its registers may be saved now
  let (s0, waiting) ← match pair, v.wait with
    | none, .pair va _ => do
      let (t, bs, _) ← readSpan tr c (devAcc false false) s va pairBytes
      pure (t, bs)
    | _, _ => pure (s, [])
  let s1 ← saveRegs tr c false s0 frame l
  let s2 ← match pair with
    | some p => savePair tr c false s1 (frame + l.pairAt) p
    | none => writeSpan tr c (devAcc true false) s1 (frame + l.pairAt) waiting
  let acc := savesPair s c
  let s3 ← writeSpan tr c (devAcc true false) s2 (frame + l.pairAt + (if acc then pairBytes else 0)) (trailerBytes s2 c v.wait)
  let h := v.frameFlags true e.isNone acc kind
  let s4 ← writeHeader tr c false s3 frame ((againAt v).getD v.pc.toNat) { h with cflags := h.cflags ||| flags }
  let w : WakeEntry :=
    { frame := frame, rcbp := v.rcbp.toNat, tag := v.ttag, ptbr := v.ptbr, keyt := v.keyt, wait := v.wait, ready := readyAtOnce v.wait,
      len := if (againAt v).isSome then 0 else v.len, slots := waitSlots l frame v.wait, value := 0, acq := wakeAcquire v.wait,
      loss := none }
  let s5 := match v.wait with
    | .reply d bs _ => replyToSlots s4 k w d bs
    | _ => s4
  let s6 := s5.updStall k (fun x => { x with wake := x.wake ++ [w] })
  let s7 := match pair with
    | some p => freePair s6 k p
    | none => s6
  pure (goIdle s7 c)

/-- What an eviction needs of its frame past +0x80 (R375, R377). -/
def evictNeed (l : LiveSet) (pair : Bool) : Nat := l.pairAt - 0x80 + (if pair then pairBytes else 0) + 64

/-- An eviction that has to wait is tried again after the events it waits for. -/
def evictAgain (s : State) (c : Nat) (es : List Event) : State :=
  (es.foldl State.causeOnce s).causeOnce (.evict c)

/-- Eviction at a blocking instruction (R375), its release at `.sy` complete with the read that its host writes need (R441). A task that
waits for no blocking instruction (a walk, a line, a slot, the host's read, a pair) has no entry point of its own to search for: the model
makes no search and saves it whole, FULL 1, even where an entry for its PC exists (DESIGN CHOICE, log entry 73). -/
def evictTask (s : State) (c kind : Nat) : State :=
  let v := s.ctx c
  let k := ctxStall c
  let frame := v.framep.toNat
  match if (againAt v).isSome then (s, none) else saveEntry s c v.pc.toNat with
  | (s1, e) =>
    let l := e.getD (LiveSet.whole v)
    let need := evictNeed l (savesPair s1 c)
    let size := frameSize s1 c frame
    if size - 0x80 < need then
      if v.wait = .yield then (wake s1 c).trap c ⟨.quota, need % 2 ^ 32 + (size - 0x80) * 2 ^ 32, frame⟩ else s1
    else if 256 ≤ (s1.stall k).wake.length then s1
    else if banksBusy s1 k (heldBanks s1 c) then evictAgain s1 c (unitEvents k)
    else
      match storeHeldBy (drain s1 c) c with
      | some ak => evictAgain s1 c [.carterBeat ak]
      | none =>
        if ((drain s1 c).ctx c).owesHost then evictAgain (askHost (drain s1 c) c) c []
        else
        let s2 := releaseNow s1 c .sy
        if (s2.ctx c).posted ≠ 0 then evictAgain s2 c []
        else
          match saveAndFree s2 c kind e with
          | .ok t => t
          | .error _ => s2

/-- Eviction, where the context is at a blocking point with a request pending; a YIELD whose request is gone completes (R124, R372). An
IDLE context whose request has waited for its stall to resume is freed (R391). -/
def execEvict (ctx : Nat) (s : State) : Answer :=
  let v := s.ctx ctx
  if v.dying.isSome then .next s
  else
    match v.request, v.wait, wakeKind v.wait with
    | none, .yield, _ => .next (wake (s.updCtx ctx Ctx.advance) ctx)
    | some _, _, some k => .next (if isHalted s ctx || !(v.st == .wmem || v.st == .wmsg) then s else evictTask s ctx k)
    | some _, _, none => .next (if v.st == .idle && v.rcbp != 0 && !isHalted s ctx then freeContext s ctx else s)
    | _, _, _ => .next s

/-! Resumption. -/

/-- B's result: BWAIT the phase seen, CWAIT the status word, RWAIT STATE (R378), also where a message brought it; a DONATE's is in its
slot. -/
def completeWait (s : State) (c : Nat) (w : WakeEntry) : State :=
  match w.wait with
  | .object _ _ _ x _ => s.putG c x w.value
  | .channel _ _ _ x _ => s.putG c x w.value
  | .region _ x => s.putG c x w.value
  | .woken (some x) _ _ => s.putG c x w.value
  | _ => s

/-- The trap CSRs of the trailer. -/
def restoreTrailer (s : State) (c : Nat) (va : Nat) : Except Stop State := do
  let (s1, n) ← readWord (translateFor c) c false s va 64
  pure (s1.updCtx c (fun v =>
    { v with
      pl := bitOf n 128
      ppl := bitOf n 129
      intrap := bitOf n 130
      epc := w64 (bitsOf n 255 192)
      ecause := w64 (bitsOf n 319 256)
      einfo := w64 (bitsOf n 383 320)
      eva := w64 (bitsOf n 447 384)
      sscratch := w64 (bitsOf n 511 448) }))

/-- The offset of the trailer of a saved task. -/
def trailerAt (s : State) (c rpc : Nat) (f : FrameFlags) : Except Stop (State × Nat) := do
  let (s1, l) ← if f.full then pure (s, LiveSet.whole (s.ctx c)) else do
    let (t, e) ← findLive (translateFor c) s c (evenPc rpc)
    pure (t, e.getD (LiveSet.whole (s.ctx c)))
  pure (s1, l.pairAt + (if f.acc then pairBytes else 0))

/-- FLOSS at an evicted load that was lost (R421): the load is the instruction at fault. -/
def lossOf (s : State) (c : Nat) (w : WakeEntry) (rpc : Nat) (q : Nat) : State :=
  let va := match w.wait with
    | .remote _ va _ _ _ => va
    | _ => 0
  (s.updCtx c (fun v => { v with pc := BitVec.ofNat 57 (evenPc rpc) })).trap c ⟨.floss, q % 2 ^ 13, va⟩

/-- A wake entry resumes on a context of its stall (R378). -/
def resumeEntry (s : State) (c : Nat) (w : WakeEntry) : State :=
  let fail (t : State) (e : Stop) : State :=
    match e with
    | .trap x => dieAsync (enter t c .run) c x
    | _ => enter t c .run
  match readHeader (translateFor c) c false s w.frame with
  | .error e => fail (s.updCtx c (fun v => v.bear 0 w.tag.toNat 0 w.frame 0 0 0 v.fmtw.toNat 0 0 0 false)) e
  | .ok (s1, h) =>
    let f := FrameFlags.of h.fflags
    let pc := evenPc h.rpc + w.len
    let s2 := s1.updCtx c (fun v => v.bear h.rpc h.tag h.ptag w.frame h.pframe h.ownjc h.parjc h.fmtw h.sclp f.cflags f.nt f.root)
    let go : Except Stop State := do
      let (s3, off) ← trailerAt s2 c h.rpc f
      let s4 ← restoreTrailer s3 c (w.frame + off)
      restoreArea s4 c w.frame h.rpc f pc false
    match go with
    | .error e => fail s2 e
    | .ok s3 =>
      match w.loss with
      | some q => lossOf (enter s3 c .run) c w h.rpc q
      | none =>
        let s4 := (acquireWait (completeWait s3 c w) c w.acq).updCtx c (fun v =>
          { v with pc := BitVec.ofNat 57 pc, lat := 0 })
        if (s4.ctx c).wait == .none then enter s4 c .run else s4

/-- The oldest ready entry of the context's region resumes there; room in the wake table lets pending requests go on. -/
def execResumeEvicted (ctx : Nat) (s : State) : Answer :=
  let k := ctxStall ctx
  let v := s.ctx ctx
  if v.st ≠ .idle ∨ v.rcbp = 0 then .next s
  else
    match (s.stall k).wake.find? (fun w => w.ready && w.rcbp == v.rcbp.toNat) with
    | none => .next s
    | some w =>
      let s1 := s.updStall k (fun x => { x with wake := x.wake.erase w })
      let s2 := resumeEntry s1 ctx w
      .next ((stallContexts s2 k).foldl (fun t c => if (t.ctx c).request.isSome then t.causeOnce (.evict c) else t) s2)

end Sys2Proof.Machine
end

