-- ==== Sys2Proof/Machine/Barrow.lean ====
section
/-! DEFINITION. The Barrow (R426 to R433): DONATE, a donation accepted or refused, a take by a hunting context, the remote counter
operation. -/

namespace Sys2Proof.Machine

/-! Accesses by an agent of the package that holds the storage (R417, R442): at the home copy, the lines of its hall recalled. -/

/-- The lines of [pa, pa + n) are taken back from the stalls of their home hall (R281). -/
def recallRange (s : State) (key pa n : Nat) : State :=
  if isDram pa then
    (List.range ((pa + n + 63) / 64 - pa / 64)).foldl (fun t i => recallHall t (homeHall (pa / 64 * 64 + 64 * i)) key (pa / 64 + i)) s
  else s

/-- A Carter holds a line of the range: the access waits (R348). -/
def rangeHeldBy (s : State) (key pa n : Nat) : Option Nat :=
  if isDram pa then
    (List.range ((pa + n + 63) / 64 - pa / 64)).findSome? (fun i =>
      carterOwner s (homeHall (pa / 64 * 64 + 64 * i)) key (pa / 64 + i))
  else none

def agentRead (s : State) (key pa n : Nat) : State × List Byte :=
  match storageOf pa with
  | .hallRegs h off => (s, hallRegBytes s h off n)
  | .aperture _ _ _ => (s, leBytes n (Config.deviceRead pa n s.tick))
  | .crier _ => (s, leBytes n (Config.deviceRead pa n s.tick))
  | _ => let s1 := recallRange s key pa n
         (s1, homeBytes s1 key pa n)

/-- Bytes written at their home, 64 at most at a time. -/
def agentWrite (s : State) (key pa : Nat) (bs : List Byte) : State :=
  match storageOf pa with
  | .hallRegs h off => writeHallRegBytes s h off bs
  | .aperture _ _ _ => s
  | .crier _ => s
  | _ => (pieces pa bs.length).foldl (fun t e => writeHome t key e.1 ((bs.drop (e.1 - pa)).take e.2)) (recallRange s key pa bs.length)

/-! The target package (R427, R429). -/

/-- The entry header of R427. -/
def barrowHeader (q : DonationRequest) : List Byte :=
  leBytes 8 (q.counter % 2 ^ 56) ++ leBytes 8 (q.tag % 2 ^ 32 + q.pkg % 2 ^ 13 * 2 ^ 32) ++ leBytes 8 (q.bytes.length % 2 ^ 13) ++
    leBytes 40 0

/-- The slot of entry `i`. -/
def barrowSlot (p : Package) (i : Nat) : Nat := p.brwbase + 4160 * (i % p.brwcap)

/-- A donation request at package `y`: the reply (R429). -/
def acceptDonation (s : State) (y : Nat) (q : DonationRequest) : State × Int :=
  let p := s.pkg y
  if !p.brwen then (s, -2)
  else if p.brwtail - p.brwhead = p.brwcap then (s.updPkg y (fun k => { k with fulls := (k.fulls + 1) % 2 ^ 32 }), -1)
  else
    ((agentWrite s 0 (barrowSlot p p.brwtail) (barrowHeader q ++ q.bytes)).updPkg y (fun k => { k with brwtail := k.brwtail + 1 }), 0)

def execDonreq (pkg : Nat) (request : DonationRequest) (s : State) : Answer := .next (acceptDonation s pkg request).1

/-! DONATE (R428, R429). -/

/-- The size of the donated frame, checked. -/
def donateSize (s : State) (z : Option GReg) (x : Nat) : Except Stop Nat := do
  let n ← match z with
    | some r => pure (s.g r).toNat
    | none =>
      match frameAt s s.cur x with
      | some f => if f.falloc then pure f.size else throw (frameTrap 9)
      | none => throw (frameTrap 9)
  if n % 64 ≠ 0 ∨ n < 128 ∨ 4096 < n then throw (frameTrap 9)
  pure n

/-- The payload of a DONREQ: entry header and frame. -/
def donatePayload (q : DonationRequest) : List Byte := barrowHeader q ++ q.bytes
def donateRequest (bs : List Byte) : DonationRequest :=
  ⟨leNat (bs.take 7), leNat ((bs.drop 8).take 4), leNat ((bs.drop 12).take 2) % 2 ^ 13, bs.drop 64⟩

/-- The request leaves, after the release: the own counter raised, the context in WMEM until the reply. -/
def sendDonation (s : State) (x : GReg) (va size y : Nat) : Except Stop State := do
  let c := s.cur
  let acc : Acc := ⟨0, false, false, s.me.user⟩
  let s0 ← settle s
  let (s1, pa) ← locateCounter translate s0 true s.me.user s.me.ownjc.toNat
  let (s2, bs, bad) ← readSpan translate c acc s1 va size
  if let some a := bad then throw (.trap (acc.ecc a false))
  let q : DonationRequest := ⟨pa, s.me.ttag.toNat, ctxPkg c, bs⟩
  let (s3, _) ← contextOp s2 c pa .jinc
  if y = ctxPkg c then
    let (s4, r) := acceptDonation s3 y q
    let s5 ← if r = 0 then pure s4 else (contextOp s4 c pa .jdec).map (·.1)
    pure ((block s5 c .wmem (.reply (.value x) (leBytes 8 (BitVec.ofInt 64 r).toNat) 0)).cause (.loadReply c))
  else
    let key := streamKey (ctxHall c) (4 * y) 3
    let st := s3.stream key
    let s4 := block s3 c .wmem (.donate x pa key ((st.next + st.waiting.length) % 2 ^ 32))
    pure (sendMessage s4 (ctxHall c) (4 * y) 3 s.me.ttag.toNat (.donate c) (donatePayload q))

def execDonate (a : GBinO) (s : State) : Answer :=
  finish s (do
    s.me.checkG 0 a.x
    s.me.checkG 1 a.y
    s.me.checkZ a.z
    let x := (s.g a.x).toNat
    if x % 64 ≠ 0 then throw (alignTrap 0 x)
    if x = s.me.framep.toNat then throw (frameTrap 7)
    let size ← donateSize s a.z x
    let s1 ← checkSpan translate ⟨0, false, false, s.me.user⟩ s x size
    let y := (s.g a.y).toNat % 2 ^ 13
    match (if a.ord.isNone then some .sy else releaseOf a.ord) with
    | some sc => releaseThen s1 sc (engineOf a.ord) (fun t => sendDonation t a.x x size y)
    | none => sendDonation s1 a.x x size y)

/-! A take (R430). -/

/-- The frame of a take: the donated bytes with the header rewritten. -/
def takenFrame (q : DonationRequest) (own tag : Nat) : List Byte :=
  let put (bs : List Byte) (off : Nat) (x : List Byte) : List Byte := bs.take off ++ x ++ bs.drop (off + x.length)
  put (put q.bytes 0x08 (leBytes 8 0 ++ leBytes 8 own ++ leBytes 8 (q.counter % 2 ^ 56 + 2 ^ 63) ++ leBytes 4 tag ++ leBytes 4 q.tag))
    0x38 (leBytes 8 0)

/-- The entry at HEAD of a Barrow, read at its package. -/
def barrowEntry (s : State) (y : Nat) : State × DonationRequest :=
  let at_ := barrowSlot (s.pkg y) (s.pkg y).brwhead
  let (s1, h) := agentRead s 0 at_ 64
  let size := leNat ((h.drop 16).take 2) % 2 ^ 13
  let (s2, bs) := agentRead s1 0 (at_ + 64) size
  (s2, donateRequest (h ++ bs))

/-- The frame of a take is written with its new header: the state, the bytes, the new tag (R430, step 3). -/
def formDonated (s : State) (c : Nat) (r : Region) (q : DonationRequest) (f : Frame) : Except Stop (State × List Byte × Nat) := do
  let (s1, tag) := newTag s (ctxStall c)
  let bs := takenFrame q (r.spmap + f.counter % 2 ^ 28) tag.toNat
  let s2 ← writeSpan (translateFor c) c (devAcc true false) s1 f.addr bs
  pure (s2, bs, tag.toNat)

/-- The taken frame starts as a task on the hunting context (R430, steps 4 and 5). -/
def startDonated (s : State) (c : Nat) (r : Region) (q : DonationRequest) (f : Frame) : Except Stop State := do
  let (s2, bs, tag) ← formDonated s c r q f
  let word (off n : Nat) : Nat := leNat ((bs.drop off).take n)
  let s3 := (setHunt s2 c none).updCtx c (fun v =>
    v.bear (word 0 8) tag (q.tag % 2 ^ 32) f.addr 0 (word 0x10 8) (q.counter % 2 ^ 56 + 2 ^ 63) (word 0x28 8) (word 0x30 8) 0 0 false)
  let s4 := (s3.putG c (.g 4) (w64 f.addr)).putG c (.g 5) (w64 (q.pkg % 2 ^ 13))
  pure (enter (countTask (acquireCaches s4 c .sy) c 1) c .run)

/-- The hunt has ended after HEAD advanced: the frame is completed, and the continuation it forms goes to the region's overflow queue
(R241). -/
def queueDonated (s : State) (c : Nat) (h : Hunt) (r : Region) (q : DonationRequest) (f : Frame) : Except Stop State := do
  let (s2, bs, _) ← formDonated s c r q f
  let s3 := s2.updRegion (ctxPkg c) r.rcb (fun x => { x with live := x.live + 1 })
  match giveBack s3 c { h with donated := none } ⟨leNat (bs.take 8) % 2 ^ 57 / 2 * 2, f.addr, 0, 0, true⟩ with
  | (t, true) => pure (setHunt t c none)
  | (t, false) => pure t

/-- A take whose HEAD has advanced (R430): the frame becomes a task of the hunting context, or where the context has other work an entry
of the overflow queue. One that cannot be written goes back to its pool. -/
def finishTake (s : State) (thief : Nat) (h : Hunt) (q : DonationRequest) (f : Frame) : State :=
  match s.region (ctxPkg thief) h.rcb with
  | none => setHunt s thief none
  | some r =>
    let lost (t : State) : State := setHunt (releaseFrame t (ctxPkg thief) f) thief none
    let go := if stillHunting s thief h then startDonated s thief r q f else queueDonated s thief h r q f
    match go with
    | .ok t => t
    | .error _ => lost s

/-- Level 6 of a hunt (R430): a frame is allocated, then HEAD advances, then the take is finished. A Barrow that is empty or disabled, or
a frame that cannot be had, leaves the level (R241). -/
def execBarrowTake (thief : Nat) (s : State) : Answer :=
  match (s.ctx thief).hunt with
  | none => .next s
  | some h =>
    match h.donated with
    | some (q, f) => .next (finishTake s thief h q f)
    | none =>
      match h.asked, h.victims with
      | true, (6, _) :: rest =>
        let on (t : State) : State := probeNext (setHunt t thief (some { h with victims := rest, asked := false })) thief
        match s.regionOf thief with
        | none => .next (setHunt s thief none)
        | some r =>
          if !stillHunting s thief h then .next (setHunt s thief none)
          else
            let y := r.barrow.toNat % 2 ^ 13
            let p := s.pkg y
            if !p.brwen ∨ p.brwhead = p.brwtail then .next (on s)
            else
              let (s1, q) := barrowEntry s y
              match allocFrame (translateFor thief) s1 thief false false (ctxPkg thief) r (ctxArcade thief) q.bytes.length with
              | .ok (some (s2, f)) =>
                .next ((setHunt (s2.updPkg y (fun k => { k with brwhead := k.brwhead + 1 })) thief
                  (some { h with donated := some (q, f) })).cause (.barrowTake thief))
              | _ => .next (on s1)
      | _, _ => .next s

/-! The remote counter operation (R431). -/

/-- JDEC or JDEAD of a donated task at the donor's counter; UNDER counts in DONUNDER, with an event to Veram. -/
def execRemoteCounterOp (counter : Nat) (dead : Bool) (s : State) : Answer :=
  let op : CounterOp := if dead then .jdead else .jdec
  if (counterSlot counter).isNone then .next s
  else if counterHeld s counter op then .next (s.cause (.remoteCounterOp counter dead))
  else
    match counterOp s counter op with
    | (s1, .under) =>
      .next (s1.updPkg (pkgOf counter) (fun p => { p with donunder := (p.donunder + 1) % 2 ^ 32, log := p.log ++ [.donUnder counter] }))
    | (s1, r) => .next (settleCounter s1 counter r)

end Sys2Proof.Machine
end

