-- ==== Sys2Proof/Machine/Privileged.lean ====
section
/-! DEFINITION. CTXSAVE and CTXLOAD (R385), TLBINV (R387), REPART (R214, R215). -/

namespace Sys2Proof.Machine

/-- The frame that an operand names: SSCRATCH when it is `g0` (R385). -/
def frameOperand (s : State) (x : GReg) : Nat :=
  match x with
  | .g i => if i.val = 0 then s.me.sscratch.toNat else (s.g x).toNat
  | _ => (s.g x).toNat

def execCtxsave (a : GUn) (s : State) : Answer :=
  finish s (do
    s.me.checkPriv
    s.me.checkG 0 a.x
    s.me.checkG 1 a.y
    let c := s.cur
    let v := s.me
    let frame := frameOperand s a.x
    let user := v.user
    let l := LiveSet.whole v
    let pair := if (s.g a.y).getLsbD 0 then s.held c else none
    if frame % 64 ≠ 0 then throw (alignTrap 5 frame)
    let s1 ← checkSpan translate (devAcc true user) s frame (if pair.isSome then l.pairAt + pairBytes else l.areaEnd)
    let s2 ← settle s1
    if pair.isSome then waitBanks s2 (heldBanks s2 c)
    let s3 ← saveRegs translate c user s2 frame l
    let s4 ← match pair with
      | some p => savePair translate c user s3 (frame + l.pairAt) p
      | none => pure s3
    let (s5, n) ← readWord translate c user s4 (frame + 0x38) 8
    let f : FrameFlags := { FrameFlags.of n with saved := true, full := true, acc := pair.isSome }
    let s6 ← writeWord translate c user s5 (frame + 0x38) 8 f.word
    pure s6.advance)

/-- The pair of a save area goes into the pair the context holds, else into the lowest free one, waited for in WMSG. -/
def loadHeldPair (s : State) (va : Nat) : Except Stop State :=
  let c := s.cur
  match s.held c with
  | some p => (loadPair translate c s.me.user s va p).map State.advance
  | none =>
    match freePairOf s.myStall with
    | some p => (loadPair translate c s.me.user s va p).map State.advance
    | none => .ok (block s c .wmsg (.pair va s.me.nextPc.toNat))

/-- CTXLOAD (R385). A liveness table that cannot be read kills the task, with nothing restored (R93). -/
def execCtxload (a : GOne) (s : State) : Answer :=
  finish s (do
    s.me.checkPriv
    s.me.checkG 0 a.x
    let c := s.cur
    let user := s.me.user
    let frame := frameOperand s a.x
    if frame % 64 ≠ 0 then throw (alignTrap 5 frame)
    let s1 ← settle s
    let (s2, h) ← readHeader translate c user s1 frame
    let f := FrameFlags.of h.fflags
    if !f.saved then pure s2.advance
    else match if f.full then .ok (s2, none) else findLive (translateFor c) s2 c (evenPc h.rpc) with
    | .error (.trap t) => pure (dieAsync s2 c t)
    | .error e => throw e
    | .ok (s3, e) =>
      let l := e.getD (LiveSet.whole s3.me)
      if f.acc then waitBanks s3 (heldBanks s3 c)
      let s4 ← checkSpan translate (devAcc false user) s3 frame (if f.acc then l.pairAt + pairBytes else l.areaEnd)
      let s5 ← restoreRegs translate c user true s4 frame l
      if f.acc then loadHeldPair s5 (frame + l.pairAt) else pure s5.advance)

/-! TLBINV. -/

/-- The stalls of a reach. -/
def reachStalls (c reach : Nat) : List Nat :=
  match reach with
  | 0 => [ctxStall c]
  | 1 => arcadeStalls (ctxArcade c)
  | 2 => hallStalls (ctxHall c)
  | _ => (pkgHalls (ctxPkg c)).flatMap hallStalls

/-- Whether a translation matches (R387). -/
def tlbMatch (mode asid va : Nat) (t : Tlb) : Bool :=
  let page := decide (t.vbase ≤ va) && decide (va < t.vbase + t.size)
  match mode with
  | 0 => true
  | 1 => t.asid == asid
  | 2 => t.asid == asid && page
  | _ => page

/-- Accesses of the contexts of a stall that have been translated and are not performed (R387): issued stores, those posted to another
package and not acknowledged, loads and atomics that wait for another package. -/
def pendingUses (s : State) (f : Tlb → Bool) (k : Nat) : Bool :=
  let hit (va : Nat) : Bool := (s.stall k).tlb.any (fun t => f t && decide (t.vbase ≤ va) && decide (va < t.vbase + t.size))
  s.ctxs.any (fun e => ctxStall e.1 == k && (e.2.storeQ.any (fun q => hit q.va) ||
    match e.2.wait with
    | .remote _ va _ _ _ => hit va
    | .gather _ _ ps _ _ => ps.any (fun p => hit p.2.2.1)
    | _ => false)) ||
  s.streams.any (fun e => (e.2.sent.map (·.msg) ++ e.2.waiting).any (fun m =>
    match m.body with
    | .access _ c qs => ctxStall c == k && qs.any (fun q => hit q.va)
    | _ => false))

/-- What still has to perform accesses of a stall through a matching translation. -/
def usersOf (s : State) (f : Tlb → Bool) (k : Nat) : List Event :=
  let v := s.stall k
  let busy := (outstanding s k).any (fun x => x.trans.any f) || v.transfers.any (fun x => x.trans.any f)
  let carter := (s.arcade (stallArcade k)).channels.any (fun e =>
    e.2.queue.any (fun j => j.srcTrans.any f || j.dstTrans.any f))
  (if busy then unitEvents k else []) ++ (if carter then [.carterBeat (stallArcade k)] else [])

/-- The matching entries of one stall go: from its TLB and from what its contexts have walked. -/
def dropTlb (f : Tlb → Bool) (s : State) (k : Nat) : State :=
  let s1 := (stallContexts s k).foldl (fun t c => t.updCtx c (fun v => { v with walked := v.walked.filter (fun e => !f e) })) s
  if (s1.stall k).tlb.any f then s1.updStall k (fun v => { v with tlb := v.tlb.filter (fun e => !f e) }) else s1

def execTlbinv (a : GUn) (s : State) : Answer :=
  finish s (do
    s.me.checkPriv
    s.me.checkG 0 a.x
    s.me.checkG 1 a.y
    let y := (s.g a.y).toNat
    let f := tlbMatch (bitsOf y 8 7) (bitsOf y 6 0) (s.g a.x).toNat
    let ks := reachStalls s.cur (bitsOf y 10 9)
    let s1 ← settle s
    let es := (ks.flatMap (usersOf s1 f)).dedup
    if es.isEmpty && !ks.any (pendingUses s1 f) then pure (ks.foldl (dropTlb f) s1).advance
    else throw (.wait es))

/-! REPART. -/

/-- The context counts of Table 09-3. -/
def partitionOf : Nat → Nat
  | 0 => 64
  | 1 => 32
  | _ => 16

/-- The stall is quiescent (R215). -/
def quiescent (s : State) (k : Nat) : Bool :=
  let v := s.stall k
  ((List.range v.ctxn).drop 1).all (fun i => (s.ctx (64 * k + i)).st == .idle && (s.ctx (64 * k + i)).deque.isEmpty && (s.ctx (64 * k + i)).strays.isEmpty) &&
    !(s.pkg (stallPkg k)).regions.any (fun r => r.aset.getLsbD (stallArcade k % 64)) &&
    (List.range 4).all (fun i => (v.pair i).holder.isNone) && (outstanding s k).isEmpty

/-- One context of the new partition: its windows; all but context 0 lose their small register files; CSRs stay as
they were (log entry 130). -/
def repartContext (n : Nat) (s : State) (c : Nat) : State :=
  s.updCtx c (fun v =>
    let w : Ctx := { v with gsize := 2048 / n, gbase := c % 64 * (2048 / n), vsize := 1024 / n, vbase := c % 64 * (1024 / n) }
    if c % 64 = 0 then w else { w with o := [], p := [], t := [], lat := 0 })

def execRepart (a : GOne) (s : State) : Answer :=
  finish s (do
    s.me.checkPriv
    s.me.checkG 0 a.x
    let k := ctxStall s.cur
    let x := (s.g a.x).toNat
    if 2 < x ∨ s.cur % 64 ≠ 0 ∨ !quiescent s k then throw (s.me.illopBase 11)
    let n := partitionOf x
    let s1 := s.updStall k (fun v => { v with ctxn := n })
    let s2 := (List.range n).foldl (fun t i => repartContext n t (64 * k + i)) s1
    let s3 : State := { s2 with gfile := s2.gfile.filter (fun e => decide (e.1 / 2048 ≠ k)),
                                vfile := s2.vfile.filter (fun e => decide (e.1 / 1024 ≠ k)) }
    pure (regate s3 k).advance)

end Sys2Proof.Machine
end

