-- ==== Sys2Proof/Machine/Carter.lean ====
section
/-! DEFINITION. Barrier objects (R342 to R345), the Carter: templates, copies, watermarks (R332 to R341, R348), follow-on commands
(R346, R347), tile pins (R350). -/

namespace Sys2Proof.Machine

/-! Barrier objects. -/

/-- The fields of Table 16-10. -/
structure BarrierObject where
  bytes : Nat
  arrs : Nat
  phase : Bool
  ibytes : Nat
  iarrs : Nat
  deriving DecidableEq, Repr

def readObjectAt (s : State) (pa : Nat) : BarrierObject × Nat × Nat :=
  let n := leNat (homeBytes s 0 pa 16)
  (⟨bitsOf n 31 0, bitsOf n 47 32, bitOf n 48, bitsOf n 95 64, bitsOf n 111 96⟩, bitsOf n 63 49, bitsOf n 127 112)

/-- The object is written; its RES0 bits stay as they are. -/
def putObject (s : State) (pa : Nat) (o : BarrierObject) (r1 r2 : Nat) : State :=
  putBytes s pa (leBytes 16 (o.bytes + o.arrs * 2 ^ 32 + (if o.phase then 2 ^ 48 else 0) + r1 * 2 ^ 49 + o.ibytes * 2 ^ 64 +
    o.iarrs * 2 ^ 96 + r2 * 2 ^ 112))

def objectPhase (s : State) (pa : Nat) : Bool := (readObjectAt s pa).1.phase

/-- Arrive(b, a) of R342: the object after it, over, complete. -/
def BarrierObject.arrive (o : BarrierObject) (b a : Nat) : BarrierObject × Bool × Bool :=
  let beyond := decide (o.bytes < b) || decide (o.arrs < a)
  let bytes := o.bytes - b
  let arrs := o.arrs - a
  if bytes = 0 ∧ arrs = 0 then ({ o with phase := !o.phase, bytes := o.ibytes, arrs := o.iarrs }, beyond, true)
  else ({ o with bytes := bytes, arrs := arrs }, beyond, false)

/-- The arcade of an object. -/
def objectArcade (pa : Nat) : Nat :=
  match storageOf pa with
  | .scratch ak _ => ak
  | _ => 0

/-- A completed phase hands on the follow-ons parked against it, in the order in which they were parked (R346), and wakes waiters. -/
def phaseDone (s : State) (pa : Nat) (phase : Bool) : State :=
  let ak := objectArcade pa
  let mine (f : FollowOn) : Bool := f.object == pa && f.phase == phase
  let gone := (s.arcade ak).parked.filter mine
  let s1 := s.updArcade ak (fun a =>
    { a with parked := a.parked.filter (fun f => !mine f), handed := a.handed ++ a.parked.filter mine })
  (if gone.isEmpty then s1 else s1.cause (.followOnHandoff ak)).next (.barrierWake pa)

/-- An arrival at the bank: the state, the old phase, over, complete. -/
def arriveAt (s : State) (pa b a : Nat) : State × Bool × Bool × Bool :=
  let (o, r1, r2) := readObjectAt s pa
  let (o', beyond, complete) := o.arrive b a
  let s1 := putObject s pa o' r1 r2
  (if complete then phaseDone s1 pa o.phase else s1, o.phase, beyond, complete)

/-- The wait of a context at an object is complete: its bank wakes it, from another arcade with a message (R344, R351). -/
def wakeObject (s : State) (pa : Nat) (c : Nat) : State :=
  match (s.ctx c).wait with
  | .object q _ phase x acq =>
    let now := objectPhase s pa
    if q = pa ∧ now ≠ phase ∧ (s.ctx c).dying.isNone then
      wakeFrom s (objectArcade pa) c (some x) (if now then 1 else 0) acq
    else s
  | _ => s

/-- The bank of an object wakes its waiters at a phase completion; a waiter whose phase has not changed waits on (R344). -/
def execBarrierWake (object : Nat) (s : State) : Answer :=
  let s1 := (s.ctxs.map (·.1)).foldl (fun t c => wakeObject t object c) s
  let now := objectPhase s1 object
  .next (wakeEvicted s1 (objectArcade object) (fun _ w =>
    match w.wait with
    | .object q _ phase x _ => if q = object ∧ now ≠ phase then some (some x, if now then 1 else 0) else none
    | _ => none))

/-- An object lies in the software range of a scratchpad of the package, or in granules of the region (R340); else PROT (R343). -/
def checkObject (s : State) (a : Acc) (va : Nat) (l : Located) : Except Stop Unit :=
  match storageOf l.place.pa with
  | .scratch ak off =>
    if pkgOf l.place.pa ≠ ctxPkg s.cur then .error (.trap (a.prot va l.level 9))
    else if off < 2 ^ 17 then .error (.trap (a.prot va l.level 4))
    else if off < 2 ^ 21 then .ok ()
    else if ((s.arcade ak).granules.lookup (off / 64)).map (·.rcb) = some s.me.rcbp.toNat then .ok ()
    else .error (.trap (a.prot va l.level 5))
  | _ => .error (.trap (a.prot va l.level 9))

/-- The checks of R343, the context's issued stores performed; the object's physical and virtual address. -/
def locateObject (s : State) (a : GMem) (writes : Bool) : Except Stop (State × Nat × Nat) := do
  s.me.checkG 0 a.x
  s.me.checkG 1 a.y
  s.me.checkZ a.z
  let va := effAddr s a.y a.z a.imm 16
  let acc : Acc := ⟨if writes then 3 else 0, writes, false, s.me.user⟩
  if va % 16 ≠ 0 then throw (alignTrap acc.kind va)
  let (s1, l) ← translate s va acc
  checkObject s1 acc va l
  let s2 ← settle s1
  pure (s2, l.place.pa, va)

/-- The running context's operation is performed at the object's bank: another arcade's is reached by a message (R351). -/
def atBank (s : State) (pa : Nat) : Except Stop State := visit (.issue s.cur) s s.cur (objectArcade pa) .barrierOp

/-- S_obj: the narrowest scope containing the context and the object's arcade (R343). -/
def objectScope (s : State) (pa : Nat) : Scope := joinArcade (ctxStall s.cur) (objectArcade pa)

def execBinit (a : GMem) (s : State) : Answer :=
  finish s (do
    let (s0, pa, _) ← locateObject s a true
    let s1 ← atBank (← coverFor s0 (objectArcade pa) a.ord) pa
    let x := (s.g a.x).toNat
    pure (putObject s1 pa ⟨bitsOf x 31 0, bitsOf x 47 32, false, bitsOf x 31 0, bitsOf x 47 32⟩ 0 0).advance)

def execBarr (a : GMem) (s : State) : Answer :=
  finish s (do
    let (s1, pa, _) ← locateObject s a true
    let x := (s.g a.x).toNat
    let act (t : State) : Except Stop State := do
      let t1 ← atBank t pa
      let (u, phase, beyond, complete) := arriveAt t1 pa (bitsOf x 31 0) (bitsOf x 47 32)
      pure (u.complete a.x (w64 ((if phase then 1 else 0) + (if beyond then 2 else 0) + (if complete then 4 else 0))) 0)
    match a.ord with
    | none => releaseThen s1 (objectScope s1 pa) false act
    | some o => if o.order = .rel then releaseThen s1 o.scope o.eng act else do act (← coverFor s1 (objectArcade pa) a.ord))

/-- The acquire of a BWAIT: at S_obj with engine order without ORD. -/
def bwaitAcquire (s : State) (pa : Nat) (ord : Option OrdQ) : Option (Scope × Bool) :=
  match ord with
  | none => some (objectScope s pa, true)
  | some o => if o.order = .acq then some (o.scope, o.eng) else none

def execBwait (a : GMem) (s : State) : Answer :=
  finish s (do
    let (s0, pa, va) ← locateObject s a false
    let s1 ← atBank (← coverFor s0 (objectArcade pa) a.ord) pa
    let from_ := (s.g a.x).getLsbD 0
    let now := objectPhase s1 pa
    let acq := bwaitAcquire s1 pa a.ord
    if now = from_ then pure (block s1 s1.cur .wmsg (.object pa va from_ a.x acq))
    else pure ((acquireWait s1 s1.cur acq).complete a.x (if now then 1 else 0) 0))

def execBexp (a : GMem) (s : State) : Answer :=
  finish s (do
    let (s0, pa, _) ← locateObject s a true
    let s1 ← atBank (← coverFor s0 (objectArcade pa) a.ord) pa
    let x := (s.g a.x).toNat
    let (o, r1, r2) := readObjectAt s1 pa
    let bytes := o.bytes + bitsOf x 31 0
    let arrs := o.arrs + bitsOf x 47 32
    if 2 ^ 32 ≤ bytes ∨ 2 ^ 16 ≤ arrs then pure (s1.complete a.x (BitVec.allOnes 64) 0)
    else pure ((putObject s1 pa { o with bytes := bytes, arrs := arrs } r1 r2).complete a.x (if o.phase then 1 else 0) 0))

def execBtest (a : GMem) (s : State) : Answer :=
  finish s (do
    let (s0, pa, _) ← locateObject s a false
    let s1 ← atBank (← coverFor s0 (objectArcade pa) a.ord) pa
    let w := leNat (homeBytes s1 0 pa 8)
    pure ((acquireOf s1 a.ord).complete a.x (w64 w) 0))

/-! CTSET (R337). -/

/-- A halted stall freezes its arcade's Carter, which serves COPY, CWM and CTSET after the freeze (R392): the context waits for that. -/
def whenServed (s : State) (ak ch : Nat) : Except Stop Unit :=
  if carterFrozen s ak then .error (.held (.slot ak ch) (.carterBeat ak)) else .ok ()

def execCtset (a : GMem) (s : State) : Answer :=
  finish s (do
    s.me.checkG 0 a.x
    s.me.checkG 1 a.y
    s.me.checkZ a.z
    let c := s.cur
    let va := effAddr s a.y a.z a.imm 8
    let slot := (s.g a.x).toNat
    if va % 64 ≠ 0 then throw (alignTrap 0 va)
    let acc : Acc := ⟨0, false, false, s.me.user⟩
    let (s1, l) ← translate s va acc
    whenServed s1 (ctxArcade c) 16
    checkPoison s1 acc va l.place 64
    startLoad s1 va l.place 64 (.template a.x slot) none)

/-! The aperture operand (R336). -/

/-- A leaf whose MTYPE is not device has reason 9 here (R336), where another access of the aperture has reason 6. -/
def apertureStop (e : Stop) : Stop :=
  match e with
  | .trap t => if t.cause = .prot ∧ t.einfo / 16 % 16 = 6 then .trap { t with einfo := t.einfo + 16 * 3 } else e
  | _ => e

/-- The checks of R336: the arcade and the channel, and the aperture's address. -/
def locateAperture (s : State) (a : GMem) : Except Stop (State × Nat × Nat × Nat) := do
  s.me.checkG 0 a.x
  s.me.checkG 1 a.y
  s.me.checkZ a.z
  let va := effAddr s a.y a.z a.imm 8
  if va % 4096 ≠ 0 then throw (alignTrap 5 va)
  let acc := devAcc true s.me.user
  let (s1, l) ← (translate s va acc).mapError apertureStop
  match storageOf l.place.pa with
  | .aperture ak ch _ =>
    if l.place.mtype ≠ 2 ∨ pkgOf l.place.pa ≠ ctxPkg s.cur then throw (.trap (acc.prot va l.level 9))
    pure (s1, ak, ch, va)
  | _ => throw (.trap (acc.prot va l.level 9))

/-! COPY (R338, R339). -/

/-- An address of the box: a sum that wraps at 2⁵⁷. -/
def boxAddr (base : Nat) (d : Int) : Nat := (((base : Int) + d) % 2 ^ 57).toNat

/-- The rows of the box in order: source and destination address of the first byte of each. -/
def Template.rows (t : Template) : List (Nat × Nat) :=
  (List.range t.ext2).flatMap (fun (p : Nat) => (List.range t.ext1).map (fun (r : Nat) =>
    (boxAddr t.src ((p : Int) * t.sstr2 + (r : Int) * t.sstr1), boxAddr t.dst ((p : Int) * t.dstr2 + (r : Int) * t.dstr1))))

/-- The addresses at which the rows of one side of a box touch its 64-byte blocks. -/
def boxTouches (n : Nat) (rows : List Nat) : List Nat := rows.flatMap (fun va => (pieces va n).map (fun e => e.1 % 2 ^ 57))

/-- The page that an address lies in: its first byte and its size, as its translation has them (R296); 4 KiB where it has none. -/
def pageAt (s : State) (c va : Nat) (a : Acc) : Nat × Nat :=
  match findTlb s c va with
  | some t => (t.vbase, t.size)
  | none =>
    match walkLeaf s c (s.ctx c).ptbr (s.ctx c).keyt va a with
    | .ok (_, t) => (t.vbase, t.size)
    | .error _ => (va / 4096 * 4096, 4096)

/-- The distinct pages of the addresses that one side of a box touches; more than 64 stop the count. A window has no pages (R29). -/
def boxPages (s : State) (c : Nat) (a : Acc) : List (Nat × Nat) → List Nat → List (Nat × Nat)
  | ps, [] => ps
  | ps, va :: r =>
    if 64 < ps.length then ps
    else if windowBase ≤ va || ps.any (fun p => decide (p.1 ≤ va) && decide (va < p.1 + p.2)) then boxPages s c a ps r
    else boxPages s c a (ps ++ [pageAt s c va a]) r

/-- The beats of one row: one per distinct 64-byte destination block (R339). -/
def rowBeats (n src dst : Nat) : List (Nat × Nat × Nat) :=
  (pieces dst n).map (fun e => ((src + (e.1 - dst)) % 2 ^ 57, e.1 % 2 ^ 57, e.2))

/-- How a Carter's access is made for a context. -/
def copyAcc (s : State) (c : Nat) (writes : Bool) : Acc := ⟨if writes then 1 else 0, writes, true, (s.ctx c).user⟩

/-- What a side of a box touches is translated for the issuing context (XLATE, R298): the translations that were used. -/
def copyPages (s : State) (c : Nat) (writes : Bool) (l : List Nat) : Option (State × List Tlb) :=
  l.foldlM (fun (p : State × List Tlb) va =>
    match translateNow p.1 c va (copyAcc s c writes) with
    | .error _ => none
    | .ok (t, loc) =>
      let device := match storageOf loc.place.pa with
        | .hallRegs _ _ => true
        | .aperture _ _ _ => true
        | .crier _ => true
        | _ => false
      if device || (!writes && loc.place.mtype == 3) then none
      else some (t, p.2 ++ (usedTlb t c va).filter (fun x => !p.2.contains x))) (s, [])

/-- BAR of a template (R338): none, or the object's physical address. -/
def copyBarrier (s : State) (c ak : Nat) (t : Template) : Option (State × Option Nat) :=
  if t.bar = 0 then some (s, none)
  else if t.bar % 16 ≠ 0 then none
  else
    match translateNow s c t.bar (devAcc true (s.ctx c).user) with
    | .error _ => none
    | .ok (s1, l) =>
      match checkObject { s1 with cur := c } (devAcc true false) t.bar l with
      | .error _ => none
      | .ok _ => if t.fv ∧ objectArcade l.place.pa ≠ ak then none else some (s1, some l.place.pa)

/-- FOFF in its range (Table 16-1). -/
def foffBad (t : Template) : Bool := t.fv && (t.foff % 64 != 0 || decide (t.foff < 2 ^ 17) || decide (2 ^ 21 ≤ t.foff))

/-- The lines of the destination on normal pages. -/
def copyLines (c : Nat) (ts : List Tlb) (beats : List (Nat × Nat × Nat)) : List (Nat × Nat) :=
  (beats.filterMap (fun b =>
    let p := placeThrough c ts b.2.1
    if p.cached && !isRemote c p then some (p.key, p.pa / 64) else none)).dedup

/-- A line is taken for an arcade: other L1s of the hall that own it give it up, copies in the arcade go (R348). -/
def takeLine (ak : Nat) (s : State) (e : Nat × Nat) : State := dropArcade (recallHall s (arcadeHall ak) e.1 e.2) ak e.1 e.2

/-- What COPY answers (Table 16-3): BADTPL and XLATE start nothing. -/
inductive Offer
  | refused (x : Int)
  | held (w : Wait) (e : Event)
  | accepted (s : State) (id : Nat)

/-- The offer of a template to a channel (R338). -/
def offerCopy (s : State) (ak ch : Nat) (x : Nat) : Offer :=
  let c := s.cur
  if ch = 15 then .refused (-2)
  else
    let n := leNat (homeBytes s 0 (scratchBase ak + templateOff (x % 1024)) 64)
    let t := templateOf n
    if 1024 ≤ x ∨ templateBad n ∨ foffBad t then .refused (-1)
    else
      match copyBarrier s c ak t with
      | none => .refused (-1)
      | some (s1, bar) =>
        let rows := if t.total = 0 then [] else t.rows
        let sp := boxTouches t.ext0 (rows.map (·.1))
        let dp := boxTouches t.ext0 (rows.map (·.2))
        if 64 < (boxPages s1 c (copyAcc s1 c false) [] sp).length ∨ 64 < (boxPages s1 c (copyAcc s1 c true) [] dp).length then
          .refused (-1)
        else
          match copyPages s1 c false sp with
          | none => .refused (-3)
          | some (s2, st) =>
            match copyPages s2 c true dp with
            | none => .refused (-3)
            | some (s3, dt) =>
              let beats := rows.flatMap (fun r => rowBeats t.ext0 r.1 r.2)
              let lines := copyLines c dt beats
              match lines.findSome? (fun e => ((carterOwner s3 (arcadeHall ak) e.1 e.2).filter (· != ak)).map (fun o => (o, e))) with
              | some (other, e) => .held (.line other e.1 e.2) (.carterBeat other)
              | none =>
                let k := (s3.arcade ak).channel ch
                if 16 ≤ k.queue.length then .held (.slot ak ch) (.carterBeat ak)
                else
                  let job : CarterJob := ⟨k.next, t, st, dt, bar, c, beats, lines, [], false⟩
                  let s4 := lines.foldl (takeLine ak) s3
                  let s5 := s4.updArcade ak (fun a => a.updChannel ch (fun q =>
                    { q with next := (q.next + 1) % 2 ^ 32, queue := q.queue ++ [job] }))
                  let e : Event := if beats.isEmpty then .transferComplete ak ch else .carterBeat ak
                  .accepted (s5.causeOnce e) k.next

/-- COPY: the context is in WMEM until the reply (R212, R338). -/
def execCopy (a : GMem) (s : State) : Answer :=
  finish s (do
    let (s1, ak, ch, _) ← locateAperture s a
    whenServed s1 ak ch
    let answer (t : State) (x : Word) : State := reply t (.value a.x) (leBytes 8 x.toNat) false 0
    let act (t : State) : Except Stop State :=
      match offerCopy t ak ch (t.g a.x).toNat with
      | .refused x => .ok (answer t (BitVec.ofInt 64 x))
      | .held w e => .error (.held w e)
      | .accepted u id => .ok (answer u (w64 id))
    match releaseOf a.ord with
    | some sc => releaseThen s1 sc (engineOf a.ord) act
    | none => act s1)

/-! Beats (R333, R339, R348). -/

/-- A channel of 0 to 14 has a beat to move. -/
def channelBusy (a : Arcade) (ch : Nat) : Bool :=
  match (a.channel ch).queue with
  | [] => false
  | j :: _ => !j.beats.isEmpty

/-- The channel with work that is served next when those of `served` have moved their beat of the cycle: 15 first, then the others
round-robin from the one after the last served (R333). -/
def nextServed (a : Arcade) (served : List Nat) : Option Nat :=
  if !a.moves.isEmpty && !served.contains 15 then some 15
  else ((List.range 15).map (fun i => (a.lastServed + 1 + i) % 15)).find? (fun i => channelBusy a i && !served.contains i)

/-- The channel that moves the next beat, and the channels that have moved one in its cycle then: at most four, each once (R333). -/
def nextBeat (a : Arcade) : Option (Nat × List Nat) :=
  match if a.cycle.length < 4 then nextServed a a.cycle else none with
  | some ch => some (ch, a.cycle ++ [ch])
  | none => (nextServed a []).map (fun ch => (ch, [ch]))

/-- The Carter of an arcade has a beat to move. -/
def hasBeat (a : Arcade) : Bool := (nextServed a []).isSome

/-- Bytes of one line that a Carter reads, and whether they are in error: from an L1 of its arcade that owns the line, the L2 of its hall,
or the storage; a read in another package may be lost (R339). -/
def carterRead (s : State) (ak c : Nat) (p : Place) (n : Nat) : State × List Byte × Bool :=
  let bad := (List.range n).any (fun i => homeBad s p.key (p.pa + i))
  if isRemote c p then (s, homeBytes s p.key p.pa n, bad || Config.readLost s.tick p.pa)
  else if !p.cached then (s, homeBytes s p.key p.pa n, bad)
  else arcadeRead s ak p n

/-- The source of a beat: its bytes, and whether one is in error. -/
def beatSource (s : State) (ak : Nat) (j : CarterJob) (va n : Nat) : State × List Byte × Bool :=
  (pieces va n).foldl (fun (p : State × List Byte × Bool) e =>
    let (t, bs, bad) := carterRead p.1 ak j.ctx (placeThrough j.ctx j.srcTrans (e.1 % 2 ^ 57)) e.2
    (t, p.2.1 ++ bs, p.2.2 || bad)) (s, [], false)

/-- A line whose last byte is written goes to its home slice, at `.pk` and wider also to its home copy, and is given back: copies that
the arcade's L1s may have made of it since go, and what waited for it goes on. -/
def returnLine (s : State) (ak : Nat) (j : CarterJob) (key line : Nat) (p : Place) : State × CarterJob :=
  let mine (e : Nat × Nat × List Byte) : Bool := e.1 == key && e.2.1 / 64 == line
  let s1 := (j.pending.filter mine).foldl (fun t e => hallWrite t (arcadeHall ak) { p with pa := e.2.1 } e.2.2) s
  let s2 := if Scope.le .pk j.tpl.reach && !homeIn (arcadeHall ak) (line * 64) then writeBackL2 s1 (arcadeHall ak) key (line / 2) else s1
  (wakeLine (dropArcade s2 ak key line) ak key line,
    { j with pending := j.pending.filter (fun e => !mine e), lines := j.lines.filter (· != (key, line)) })

/-- One beat of a transfer (R339). -/
def moveBeat (s : State) (ak : Nat) (j : CarterJob) : State × CarterJob :=
  match j.beats with
  | [] => (s, j)
  | (sva, dva, n) :: rest =>
    let (s1, bs, bad) := beatSource s ak j sva n
    let p := placeThrough j.ctx j.dstTrans dva
    let j1 : CarterJob := { j with beats := rest, derr := j.derr || bad }
    if p.cached && !isRemote j.ctx p then
      let j2 : CarterJob := if bad then j1 else { j1 with pending := j1.pending ++ [(p.key, p.pa, bs)] }
      let later := rest.any (fun b =>
        let q := placeThrough j.ctx j.dstTrans b.2.1
        q.key == p.key && q.pa / 64 == p.pa / 64)
      if later then (s1, j2) else returnLine s1 ak j2 p.key (p.pa / 64) p
    else (if bad then s1 else writeHome s1 p.key p.pa bs, j1)

/-- One beat of the named-tile move that channel 15 makes (R244): its bytes leave the victim's arcade as a message (R400) and are there when
it is delivered; the last one completes the move. -/
def moveTileBeat (s : State) (ak : Nat) : State :=
  match (s.arcade ak).moves with
  | [] => s
  | m :: r =>
    match m.beats with
    | [] => (s.updArcade ak (fun a => { a with moves := r })).cause (.tileMoveComplete m.thief)
    | (src, dst, n) :: rest =>
      let from_ := objectArcade src
      let last := if rest.isEmpty then some m.thief else none
      let s1 := sendTo s from_ ak
        ⟨some (ctxStall m.thief), 0, arcadeStall from_ 0, MsgKind.tileBeat.code, homeBytes s 0 src n, .tile dst last⟩
      s1.updArcade ak (fun a => { a with moves := if rest.isEmpty then r else { m with beats := rest } :: r })
/-- The message of a beat is delivered. -/
def arriveTile (s : State) (dst : Nat) (last : Option Nat) (bs : List Byte) : State :=
  match last with
  | some thief => (putBytes s dst bs).cause (.tileMoveComplete thief)
  | none => putBytes s dst bs

/-- One beat of the oldest transfer of a channel. -/
def channelBeat (s : State) (ak ch : Nat) : State :=
  match ((s.arcade ak).channel ch).queue with
  | [] => s
  | j :: r =>
    let (s1, j') := moveBeat s ak j
    let s2 := s1.updArcade ak (fun a => { a.updChannel ch (fun q => { q with queue := j' :: r }) with lastServed := ch })
    if j'.beats.isEmpty then s2.causeOnce (.transferComplete ak ch) else s2

/-- The Carter of an arcade moves one beat (R333); a frozen one moves none (R392). -/
def execCarterBeat (arcade : Nat) (s : State) : Answer :=
  let s1 := if carterFrozen s arcade then s else
    match nextBeat (s.arcade arcade) with
    | none => s
    | some (ch, served) =>
      let t := s.updArcade arcade (fun a => { a with cycle := served })
      if ch = 15 then moveTileBeat t arcade else channelBeat t arcade ch
  .next (if hasBeat (s1.arcade arcade) then s1.causeOnce (.carterBeat arcade)
    else s1.updArcade arcade (fun a => { a with cycle := [] }))

/-! Completion (R334, R340, R341). -/

/-- Id `a` is `w` or precedes it (R340). -/
def reached (w a : Nat) : Bool := decide ((w + 2 ^ 32 - a % 2 ^ 32) % 2 ^ 32 < 2 ^ 31)

/-- Table 16-5. -/
def channelStatus (k : Channel) : Nat :=
  (if k.derr then 2 ^ 48 else 0) + k.queue.length * 2 ^ 40 + k.last * 2 ^ 32 + k.watermark

def channelKey (ak ch : Nat) : Nat := 16 * ak + ch
def State.channelOf (s : State) (key : Nat) : Channel := (s.arcade (key / 16)).channel (key % 16)

/-- The CWAIT waiters of a channel that the watermark has reached complete, those in other arcades as their message is delivered (R303,
R400); those evicted become ready. -/
def wakeChannel (s : State) (key : Nat) : State :=
  let k := s.channelOf key
  let word := w64 (channelStatus k)
  let s1 := (s.ctxs.map (·.1)).foldl (fun t c =>
    match (t.ctx c).wait with
    | .channel q _ id x acq =>
      if q = key ∧ reached k.watermark id ∧ (t.ctx c).dying.isNone then wakeFrom t (key / 16) c (some x) word acq else t
    | _ => t) s
  wakeEvicted s1 (key / 16) (fun _ w =>
    match w.wait with
    | .channel q _ id x _ => if q = key ∧ reached k.watermark id then some (some x, word) else none
    | _ => none)

def setLast (s : State) (ak ch x : Nat) : State := s.updArcade ak (fun a => a.updChannel ch (fun q => { q with last := x }))

/-- A transfer of a channel arrives on an object; an over-arrival sets LAST ← 3 on the channel (R343). The phase before, and whether it
completed. -/
def arriveFor (s : State) (pa bytes arrs ak ch : Nat) : State × Bool × Bool :=
  let (s1, phase, beyond, complete) := arriveAt s pa bytes arrs
  (if beyond then setLast s1 ak ch 3 else s1, phase, complete)

/-- The transfer arrives on its object (R334): on one of another arcade with a message, which no task's death discards (R351, R352). -/
def transferArrives (s : State) (ak ch : Nat) (j : CarterJob) : State × Bool × Bool :=
  match j.bar with
  | none => (s, false, true)
  | some pa =>
    if objectArcade pa = ak then
      let (s1, phase, complete) := arriveFor s pa j.tpl.total j.tpl.arr ak ch
      (s1, phase, complete)
    else
      (sendTo s ak (objectArcade pa)
        (newMessage s none 0 (arcadeStall ak 0) .barrierOp (.arrive pa j.tpl.total j.tpl.arr ak ch)), false, false)

/-- Its follow-on is handed on or parked (R346). -/
def transferFollows (s : State) (ak ch : Nat) (j : CarterJob) (phase complete : Bool) : State :=
  if !j.tpl.fv then s
  else
    let f : FollowOn := ⟨ch, j.tpl.foff, j.tpl.high, j.bar.getD 0, phase⟩
    if complete then (s.updArcade ak (fun a => { a with handed := a.handed ++ [f] })).cause (.followOnHandoff ak)
    else if 16 ≤ (s.arcade ak).parked.length then setLast s ak ch 2
    else s.updArcade ak (fun a => { a with parked := a.parked ++ [f] })

/-- The oldest transfer of a channel completes, and the next begins (R334); a frozen Carter serves none of zero extent (R392). -/
def execTransferComplete (arcade channel : Nat) (s : State) : Answer :=
  match ((s.arcade arcade).channel channel).queue with
  | [] => .next s
  | j :: rest =>
    if !j.beats.isEmpty then .next s
    else if carterFrozen s arcade && j.tpl.total == 0 then .next (s.cause (.transferComplete arcade channel))
    else
      let s1 := s.updArcade arcade (fun a => a.updChannel channel (fun q =>
        { q with watermark := j.id, derr := q.derr || j.derr, queue := rest }))
      let (s2, phase, complete) := transferArrives s1 arcade channel j
      let s3 := transferFollows s2 arcade channel j phase complete
      -- a waiter completes after the completion (Table 16-7), so its status word holds what the arrival and the follow-on set
      let s4 := wakeSlots (wakeChannel s3 (channelKey arcade channel)) arcade (· == channel)
      .next (match rest with
        | [] => s4
        | n :: _ => s4.causeOnce (if n.beats.isEmpty then .transferComplete arcade channel else .carterBeat arcade))

def execCwm (a : GMem) (s : State) : Answer :=
  finish s (do
    let (s1, ak, ch, _) ← locateAperture s a
    whenServed s1 ak ch
    let word := channelStatus ((s1.arcade ak).channel ch)
    let s2 := if (s.g a.x).getLsbD 0 then
        s1.updArcade ak (fun v => v.updChannel ch (fun q => { q with derr := false, last := 0 }))
      else s1
    pure ((acquireOf s2 a.ord).complete a.x (w64 word) 0))

def execCwait (a : GMem) (s : State) : Answer :=
  finish s (do
    let (s1, ak, ch, va) ← locateAperture s a
    let k := (s1.arcade ak).channel ch
    let id := (s.g a.x).toNat % 2 ^ 32
    let acq : Option (Scope × Bool) := match a.ord with
      | none => some (.ac, true)
      | some o => if o.order = .acq then some (o.scope, o.eng) else none
    if reached k.watermark id then pure ((acquireWait s1 s1.cur acq).complete a.x (w64 (channelStatus k)) 0)
    else pure (block s1 s1.cur .wmsg (.channel (channelKey ak ch) va id a.x acq)))

/-! Follow-on commands (R346, R347). -/

/-- The command of a follow-on block, checked under the context that holds the pair. -/
def followCommand (s : State) (ak : Nat) (f : FollowOn) : Option (State × Nat × Cmd) :=
  let n := leNat (homeBytes s 0 (scratchBase ak + f.foff) 48)
  let ctl := bitsOf n 319 256
  let k := arcadeStall ak (bitsOf ctl 7 5)
  let pair := bitsOf ctl 4 3
  let bank := bitsOf ctl 2 2
  if bitsOf ctl 63 8 ≠ 0 ∨ bitsOf n 383 320 ≠ 0 ∨ 2 ≤ bitsOf ctl 1 0 then none
  else
    match ((s.stall k).pair pair).holder with
    | none => none
    | some h =>
      let wa : Word128 := BitVec.ofNat 128 n
      let wb : Word128 := BitVec.ofNat 128 (n / 2 ^ 128)
      let sclp := (s.ctx h).sclp
      match checkMma (translateFor h) false s h pair bank (tileOf wa) (tileOf wb) sclp with
      | .error _ => none
      | .ok (s1, ts) =>
        some (s1, k,
          { seq := s.tick, kind := .mma (bitOf ctl 0), high := f.high, ctx := h, pair := pair, bank := bank, a := wa, b := wb, a2 := 0,
            b2 := 0, zval := 0, sclp := sclp, dest := none, trans := ts, early := [] })

/-- The oldest follow-on handed on is checked (R347): discarded with LAST ← 1, or it waits for a slot. -/
def checkFollow (s : State) (ak : Nat) : State :=
  match (s.arcade ak).handed with
  | [] => s
  | f :: rest =>
    let s1 := s.updArcade ak (fun a => { a with handed := rest })
    let s2 := match followCommand s1 ak f with
      | none => setLast s1 ak f.ch 1
      | some (t, k, x) => t.updArcade ak (fun a => { a with passed := a.passed ++ [(k, x)] })
    if rest.isEmpty then s2 else s2.causeOnce (.followOnHandoff ak)

/-- Commands whose class queue has a slot are accepted, oldest first, the issued stores of the holder performed before (R166 to R168). -/
def acceptPassed (ak : Nat) : List (Nat × Cmd) → State → State
  | [], s => s
  | (k, x) :: r, s =>
    if 4 ≤ (queueOf (s.stall k) x.high).length then acceptPassed ak r s
    else
      match settled s x.ctx with
      | .error _ => acceptPassed ak r (s.causeOnce (.followOnHandoff ak))
      | .ok t =>
        acceptPassed ak r
          (enterQueue (t.updArcade ak (fun a => { a with passed := a.passed.erase (k, x) })) k { x with seq := t.tick })

/-- Follow-ons wait in a frozen Carter (R392). -/
def execFollowOnHandoff (arcade : Nat) (s : State) : Answer :=
  if carterFrozen s arcade then .next (s.causeOnce (.followOnHandoff arcade))
  else
    let s1 := checkFollow s arcade
    .next (acceptPassed arcade (s1.arcade arcade).passed s1)

/-! Pins (R350). -/

/-- The pin-table key of a tile register: descriptor bits [97:0] and the region. -/
def pinKey (s : State) (w : Word128) : Nat × Nat := (w.toNat % 2 ^ 98, s.me.rcbp.toNat)

/-- The lines of a hall's L2 that are pinned in a set. -/
def pinnedIn (s : State) (hall set : Nat) : List (Nat × Nat) :=
  (((hallArcades hall).flatMap (fun ak => (s.arcade ak).pins.flatMap (·.lines))).filter (fun e => l2Set e.2 == set)).dedup

/-- The lines of places are fetched into the L2 of a hall; those that may be pinned, at most 4 in a set (R349, R350). -/
def pinLines (s : State) (hall : Nat) (ps : List Place) : State × List (Nat × Nat) :=
  ps.foldl (fun (x : State × List (Nat × Nat)) p =>
    let e := (p.key, p.pa / 128)
    if !p.cached || bypasses hall p || x.2.contains e then x
    else
      let (t, v) := fetchL2 x.1 hall p false
      let others := (pinnedIn t hall (l2Set e.2) ++ x.2.filter (fun y => l2Set y.2 == l2Set e.2)).dedup
      (t, if v.isSome && (others.contains e || decide (others.length < 4)) then x.2 ++ [e] else x.2)) (s, [])

/-- The formats of operand A and of operand B of MMA and MMAM (Table 06-6, Table 07-6). -/
def pinnableA : List Fmt := [.e4m3, .e5m2, .bf16, .fp16, .fp32, .i8, .n8, .m64]
def pinnableB : List Fmt := .ds8 :: pinnableA

/-- The uses that a tile to be pinned may have, as operand A and as operand B (log entry 104). -/
def pinUses (t : Tile) : List TileUse :=
  (if pinnableA.contains t.fmt then [⟨0, t, t.rows, t.cols, isI8 t.fmt, false⟩] else []) ++
    (if pinnableB.contains t.fmt then [⟨0, t, t.cols, t.rows, isI8 t.fmt, false⟩] else [])

/-- The checks of R156 on a tile to be pinned: those of a use that passes them; else its first use of at most 64 lines names the reason
(log entry 104). -/
def checkPin (s : State) (t : Tile) : Except Stop (State × List Tlb) :=
  let us := pinUses t
  let fits := us.filter (fun u => decide (u.lines ≤ 64))
  if us.isEmpty then .error (illcombo 1 0)
  else if fits.isEmpty then .error (illcombo 3 0)
  else if t.space ≠ 3 then .error (illcombo 4 0)
  else
    match fits.find? (fun u => u.combo.isOk), fits with
    | some u, _ => checkTiles translate s s.cur s.me.sclp [u]
    | none, u :: _ => do
      u.combo
      checkTiles translate s s.cur s.me.sclp [u]
    | none, [] => .error (illcombo 3 0)

/-- TFPIN: the entry's count rises, and its lines are fetched and pinned; with the table full they are fetched alone (R350). -/
def execTfpin (a : IOne) (s : State) : Answer :=
  finish s (do
    checkT 0 a.x
    let w := s.me.tile a.x.val
    let t := tileOf w
    let (s1, ts) ← checkPin s t
    let (s2, lines) := pinLines s1 (ctxHall s.cur) (t.addrs.map (placeThrough s.cur ts))
    let (desc, rcb) := pinKey s w
    let up (p : Pin) : Pin := if p.desc = desc ∧ p.rcb = rcb then { p with count := p.count + 1, lines := (p.lines ++ lines).dedup } else p
    pure (s2.updArcade (ctxArcade s.cur) (fun v =>
      if v.pins.any (fun p => p.desc == desc && p.rcb == rcb) then { v with pins := v.pins.map up }
      else if 32 ≤ v.pins.length then v
      else { v with pins := v.pins ++ [⟨desc, rcb, 1, lines⟩] })).advance)

def execTfrel (a : IOne) (s : State) : Answer :=
  finish s (do
    checkT 0 a.x
    let (desc, rcb) := pinKey s (s.me.tile a.x.val)
    let down (p : Pin) : Pin := if p.desc = desc ∧ p.rcb = rcb then { p with count := p.count - 1 } else p
    pure (s.updArcade (ctxArcade s.cur) (fun v => { v with pins := (v.pins.map down).filter (fun p => p.count != 0) })).advance)

end Sys2Proof.Machine
end

