-- ==== Sys2Proof/Machine/Control.lean ====
section
/-! DEFINITION. Control transfer (R107 to R110). -/

namespace Sys2Proof.Machine

/-- The link register (Table 01-8). -/
def linkReg : GReg := .g 1

/-- The link is written (R108): the address of the next instruction, to `g1` and `lat`. -/
def State.link (s : State) : State := s.writeG s.cur linkReg (BitVec.zeroExtend 64 s.me.nextPc)

/-- A conditional branch on X (R107). -/
def runBranch (taken : Word → Bool) (a : GImm) (s : State) : Answer :=
  finish s (do
    s.me.checkG 0 a.x
    pure (if taken (s.g a.x) then s.goto (branchTarget s.me a.imm) else s.advance))
def execBnz (a : GImm) (s : State) : Answer := runBranch (fun x => x != 0) a s
def execBz (a : GImm) (s : State) : Answer := runBranch (fun x => x == 0) a s

def execJ (a : JOff) (s : State) : Answer := finish s (.ok (s.goto (branchTarget s.me a.off)))
def execCall (a : JOff) (s : State) : Answer := finish s (.ok (s.link.goto (branchTarget s.me a.off)))

def execJr (a : GOne) (s : State) : Answer :=
  finish s (do
    s.me.checkG 0 a.x
    let t ← checkTarget s.me (s.g a.x)
    pure (s.goto t))
def execCallr (a : GOne) (s : State) : Answer :=
  finish s (do
    s.me.checkG 0 a.x
    let t ← checkTarget s.me (s.g a.x)
    pure (s.link.goto t))
def execRet (s : State) : Answer :=
  finish s (do
    let t ← checkTarget s.me (s.g linkReg)
    pure (s.goto t))

end Sys2Proof.Machine
end

