-- ==== Sys2Proof/Machine/Delivery.lean ====
section
/-! DEFINITION. The delivery of messages by the network interface of an arcade (R303, R393, R400). -/

namespace Sys2Proof.Machine

/-- What a message does in the arcade that accepts it. -/
def applyEffect (s : State) (ak : Nat) (m : Message) : State :=
  match m.act with
  | .none => s
  | .event x => s.next x
  | .visit t => arriveVisit s ak t
  | .answer c sent => arriveReply s c sent
  | .wake c => arriveWake s c
  | .arrive pa bytes arrs from_ ch => (arriveFor s pa bytes arrs from_ ch).1
  | .tile dst last => arriveTile s dst last m.payload
  | .ready tag => arriveReady s ak tag

/-- The oldest message of an interface that is not held for a halted stall is accepted: it enters the digest, and acts. -/
def execNetworkMessageDelivery (arcade : Nat) (s : State) : Answer :=
  match (s.arcade arcade).inbox.find? (fun m => !heldMessage s m) with
  | none => .next s
  | some m =>
    .next (applyEffect (s.updArcade arcade (fun a => foldMessage { a with inbox := a.inbox.erase m } m)) arcade m)

end Sys2Proof.Machine
end

