-- ==== Sys2Proof/Machine/Fabric.lean ====
section
/-! DEFINITION. The Geluk fabric: routes (R410 to R413), flow control (R414), decoding and delivery (R415 to R417), recovery (R418 to
R422), links (R423 to R425). -/

namespace Sys2Proof.Machine

/-- The stream of a class in the opposite direction. -/
def reverseStream (key cls : Nat) : Nat := streamKey (streamDst key) (streamSrc key) cls

/-- A sequence number comes before another, modulo 2³² (R405). -/
def seqBefore (a b : Nat) : Bool := decide (2 ^ 31 ≤ (a + 2 ^ 32 - b % 2 ^ 32) % 2 ^ 32)

/-- A number is performed or skipped, or below the window (Table 21-5, row 1). -/
def settledSeq (st : Stream) (n : Nat) : Bool := seqBefore n st.low || st.done.contains n

def updCounters (s : State) (hk : Nat) (f : HallCounters → HallCounters) : State :=
  s.updHall hk (fun h => { h with counters := f h.counters })

/-! What a context gets back (Table 21-7, R421, R433). -/

def Wait.names (key seq : Nat) : Wait → Bool
  | .remote _ _ k n _ => k == key && n == seq
  | .gather _ _ parts _ _ => parts.any (fun p => p.1 == key && p.2.1 == seq)
  | .donate _ _ k n => k == key && n == seq
  | _ => false

/-- A wait after one answer: what still waits, and what is written once nothing does. -/
def Wait.answered (key seq : Nat) (bs : List Byte) (w : Wait) : Wait × Option (Dest × List Byte × Option Scope) :=
  match w with
  | .remote d _ _ _ acq => (w, some (d, bs, acq))
  | .gather x size parts got acq =>
    let mine := parts.filter (fun p => p.1 == key && p.2.1 == seq)
    let rest := parts.filter (fun p => !(p.1 == key && p.2.1 == seq))
    let got' := got ++ mine.flatMap (fun p => p.2.2.2.map (fun e => (e.1, (bs.drop e.2).take size)))
    (.gather x size rest got' acq,
      if rest.isEmpty then some (Dest.vector x size (got'.map (·.1)) false, got'.flatMap (·.2), acq) else Option.none)
  | _ => (w, Option.none)

/-- The context that waits for an answer, or the wake entry that does: its stall. -/
def answerCtx (s : State) (key seq : Nat) : Option Nat :=
  (s.ctxs.find? (fun e => e.2.wait.names key seq && e.2.dying.isNone && e.2.st != .idle)).map (·.1)
def answerEntry (s : State) (key seq : Nat) : Option (Nat × WakeEntry) :=
  s.stalls.findSome? (fun e => (e.2.wake.find? (fun w => !w.ready && w.wait.names key seq)).map (fun w => (e.1, w)))
def setEntry (s : State) (k : Nat) (w w' : WakeEntry) : State :=
  s.updStall k (fun x => { x with wake := x.wake.map (fun y => if y == w then w' else y) })

/-- The counter of a DONATE of context `c` is lowered again when its reply is not 0, or never comes (R429, R433): in another arcade as
its message is delivered. The message is the device's own: a DISCARD of the task's tag does not take it. -/
def undoJinc (s : State) (c pa : Nat) : State :=
  if counterArcade pa = ctxArcade c then (counterOp s pa .jdec).1
  else postMessage s (ctxArcade c) (counterArcade pa) none 0 (ctxStall c) .counterOp (.jdec pa)

/-- The context goes on behind the access that waited. -/
def remoteDone (s : State) (c : Nat) (d : Dest) (bs : List Byte) (acq : Option Scope) (f : FlagSet) : State :=
  wake (((acquireAt (writeDest s c d bs) c acq).raise c f).updCtx c Ctx.advance) c

/-- An answer reaches a context, or the frame of an evicted task (R375). -/
def arriveAnswer (s : State) (key seq : Nat) (bs : List Byte) (f : FlagSet) : State :=
  match answerCtx s key seq with
  | some c =>
    match (s.ctx c).wait with
    | .donate x pa _ _ => remoteDone (if leNat bs = 0 then s else undoJinc s c pa) c (.value x) bs none f
    | w =>
      match w.answered key seq bs with
      | (w', none) => s.updCtx c (fun v => { v with wait := w' })
      | (_, some (d, data, acq)) => remoteDone s c d data acq f
  | none =>
    match answerEntry s key seq with
    | none => s
    | some (k, w) =>
      match w.wait with
      | .donate x pa _ _ =>
        replyToSlots (setEntry (if leNat bs = 0 then s else undoJinc s (64 * k) pa) k w { w with ready := true }) k w (.value x) bs
      | _ =>
        match w.wait.answered key seq bs with
        | (w', none) => setEntry s k w { w with wait := w' }
        | (_, some (d, data, _)) => flagsToFrame (replyToSlots (setEntry s k w { w with ready := true }) k w d data) k w f

/-- The address that the loss of a request is reported at: that of the load or atomic, or 0 at a DONATE (R421, R433). -/
def Wait.lostAt (key seq : Nat) : Wait → Nat
  | .remote _ va _ _ _ => va
  | .gather _ _ parts _ _ => ((parts.find? (fun p => p.1 == key && p.2.1 == seq)).map (fun p => p.2.2.1)).getD 0
  | _ => 0
def undoDonate (s : State) (c : Nat) : Wait → State
  | .donate _ pa _ _ => undoJinc s c pa
  | _ => s

/-- A load, an atomic or a DONATE is given up: FLOSS at its instruction (R421, R433); an evicted task takes it when it resumes. -/
def loseRequest (s : State) (key seq : Nat) : State :=
  let pkg := hallPkg (streamDst key)
  match answerCtx s key seq with
  | some c =>
    let w := (s.ctx c).wait
    (wake (undoDonate s c w) c).trap c ⟨.floss, pkg % 2 ^ 13, w.lostAt key seq⟩
  | none =>
    match answerEntry s key seq with
    | none => s
    | some (k, w) =>
      setEntry (undoDonate s (64 * k) w.wait) k w
        { w with ready := true, loss := some pkg, wait := .remote .nothing (w.wait.lostAt key seq) key seq none }

/-- A message of a release store at `.ha` or wider by context `c`, which holds it (R312). -/
def FabricMessage.holds (m : FabricMessage) (c : Nat) : Bool :=
  match m.body with
  | .access _ x qs => x == c && qs.any (fun q => q.rel && Scope.le .ha q.scope)
  | _ => false

/-- A message of the context's release store is still to be performed at its destination. -/
def heldByStore (s : State) (c : Nat) : Bool :=
  s.streams.any (fun e => e.2.waiting.any (·.holds c) || e.2.sent.any (fun x => x.msg.holds c && !settledSeq e.2 x.msg.seq))

/-- A message of a held release store is performed or given up. After the last one the store completes; at `.sy` a loss makes it take
FLOSS (R312, R421, Table 23-4). -/
def endPosted (s : State) (c : Nat) : State :=
  let v := s.ctx c
  match v.wait with
  | .posted sy =>
    if heldByStore s c then s
    else
      let s1 := s.updCtx c (fun w => { w with wait := .none })
      if sy && v.lost != 0 then (s1.updCtx c (fun w => { w with lost := 0 })).trap c (flossRelease v)
      else s1.updCtx c Ctx.advance
  | _ => s

/-- A message that carries a posted store of a context. -/
def FabricMessage.postedBy (m : FabricMessage) : Option Nat :=
  match m.body with
  | .access _ c _ => if headerKind m.bytes = AccessKind.store.code then some c else none
  | _ => none

/-- A posted store is acknowledged (R293). -/
def storeAcked (s : State) (m : FabricMessage) : State :=
  match m.postedBy with
  | some _ => unpost s m
  | none => s

/-- A posted store is performed at its destination: a context that it holds goes on (R312). -/
def storePerformed (s : State) (m : FabricMessage) : State :=
  match m.postedBy with
  | some c => if m.holds c && (s.ctx c).ttag.toNat == m.tag then endPosted s c else s
  | none => s

/-- A posted store is given up (R421): the issuing context's count, whatever runs there while its task lives; when its task is over, LOSTP
and an event. -/
def storeLost (s : State) (m : FabricMessage) (pkg : Nat) : State :=
  match m.postedBy with
  | none => s
  | some c =>
    let s1 := unpost s m
    if !(s.pkg (ctxPkg c)).ended.contains m.tag then
      endPosted (s1.updCtx c (fun v => { v with lost := v.lost + 1, lostPkg := if v.lost = 0 then pkg else v.lostPkg })) c
    else
      (updCounters s1 (ctxHall c) (fun k => { k with lostp := k.lostp + 1 })).updPkg (ctxPkg c) (fun p =>
        { p with log := p.log ++ [.lossEvent 1] })

/-! The source (R418, R420). -/

/-- Waiting messages are encoded while there is room (R418). -/
def refill : Nat → State → Nat → State
  | 0, s, _ => s
  | n + 1, s, key =>
    let st := s.stream key
    match st.waiting with
    | [] => s
    | m :: r =>
      if streamLimit ≤ st.sent.length then s
      else
        refill n (restick (encodeMessage (s.updStream key (fun v => { v with waiting := r })) key m.tag m.body m.bytes) m.body (· - 1))
          key

/-- Messages of a stream are acknowledged: they are kept no longer. -/
def acknowledge (s : State) (key : Nat) (f : Nat → Bool) : State :=
  let gone := (s.stream key).sent.filter (fun x => f x.msg.seq)
  let s1 := s.updStream key (fun v => { v with sent := v.sent.filter (fun x => !f x.msg.seq) })
  refill (s1.stream key).waiting.length (gone.foldl (fun t x => storeAcked t x.msg) s1) key

/-- SACK_RECEIVE (R418): bit b acknowledges message base + b. -/
def execSackReceive (stream base bits : Nat) (s : State) : Answer :=
  .next (acknowledge s stream (fun n => n / 64 * 64 == base && bitOf bits (n % 64)))

/-- A response or ACK acknowledges its request (R419). -/
def execAck (stream seq : Nat) (s : State) : Answer := .next (acknowledge s stream (· == seq))

/-- A message that is given up (R420, R421): SKIPPED, a SKIP for its number, the loss reported. -/
def giveUp (s : State) (key : Nat) (x : Sent) : State :=
  let s1 := updCounters (s.updStream key (fun v => { v with sent := v.sent.filter (· != x) })) (streamSrc key)
    (fun k => { k with skipped := k.skipped + 1 })
  let s2 := sendMessage s1 (streamSrc key) (streamDst key) 2 0 (.skip key x.msg.seq) (leBytes 16 (x.msg.seq + 2 ^ 32 * key))
  let s3 := match x.msg.body with
    | .access _ _ _ => if x.msg.postedBy.isSome then storeLost s2 x.msg (hallPkg (streamDst key)) else loseRequest s2 key x.msg.seq
    | .donate _ => loseRequest s2 key x.msg.seq
    | .answer cls n _ => loseRequest s2 (reverseStream key cls) n
    | _ => s2
  refill (s3.stream key).waiting.length s3 key

/-- RETX_TIMEOUT (R420): the message is sent again, or given up after RETRY + 1 sends; within a package, and where it is a slice message
(R437), it is sent without end, with a machine-check event after 16 sends. -/
def execRetxTimeout (stream seq : Nat) (s : State) : Answer :=
  match (s.stream stream).sent.find? (fun x => x.msg.seq == seq) with
  | none => .next s
  | some x =>
    let src := streamSrc stream
    let inside := hallPkg src == hallPkg (streamDst stream) || x.msg.body.isControl
    if !inside && decide (((s.hall src).crateOf (streamClass stream)).retry < x.sends) then .next (giveUp s stream x)
    else
      let x' : Sent := { x with sends := x.sends + 1 }
      let s1 := updCounters (s.updStream stream (fun v => { v with sent := v.sent.map (fun y => if y == x then x' else y) })) src
        (fun k => { k with retx := k.retx + 1 })
      let s2 := if inside && x.sends == 16 then s1.updPkg (hallPkg src) (fun p => { p with log := p.log ++ [.machineCheck src] })
        else s1
      .next (transmit s2 stream x')

/-! Lost fragments. -/

/-- A stripe can no longer be decoded from what is on the way and in its slot: its message will not be acknowledged within TIMEOUT
(R420). An answer that is not retained is recovered by the repeat of its request (R419). -/
def afterLoss (s : State) (p : Packet) : State :=
  let st := s.stream p.stream
  let slot := (s.hall (streamDst p.stream)).slots.find? (fun x => x.stream == p.stream && x.seq == p.seq && x.stripe == p.stripe)
  let held := ((slot.map (fun x => x.frags.map (·.1))).getD []) ++
    (s.packets.filter (fun q => q.stream == p.stream && q.seq == p.seq && q.stripe == p.stripe)).map (·.frag)
  let decoded := (st.arriving.find? (fun a => a.msg.seq == p.seq)).any (fun a => a.stripes.any (fun x => x.1 == p.stripe))
  if seqBefore p.seq st.low || st.done.contains p.seq || decoded || decide (p.k ≤ held.dedup.length) then s
  else if st.sent.any (fun x => x.msg.seq == p.seq) then s.causeOnce (.retxTimeout p.stream p.seq)
  else match p.body with
    | .answer cls n _ => s.causeOnce (.retxTimeout (reverseStream p.stream cls) n)
    | .ack cls n => s.causeOnce (.retxTimeout (reverseStream p.stream cls) n)
    | _ => s

def removePacket (s : State) (i : Nat) : State := { s with packets := s.packets.eraseIdx i }

/-! Routes (R410 to R412). -/

/-- W, X, Y, Z of a package number. -/
def coordOf (n d : Nat) : Nat :=
  match d with
  | 0 => n % 2
  | 1 => bitsOf n 2 1
  | 2 => bitsOf n 7 3
  | _ => bitsOf n 12 8
def withCoord (n d x : Nat) : Nat :=
  let lo := match d with
    | 0 => 0 | 1 => 1 | 2 => 3 | _ => 8
  let base := 2 ^ lo
  n - coordOf n d * base + x * base

/-- Positions of a dimension: 2, 4 and the ring sizes. -/
def dimSize (p : Package) : Nat → Nat
  | 0 => 2
  | 1 => 4
  | 2 => p.ysize
  | _ => p.zsize

/-- The direction that corrects a dimension (R412): straight in a mesh, the shorter way around a ring, + when both are equal. -/
def legDirection (p : Package) (here there d : Nat) : Nat :=
  let a := coordOf here d
  let b := coordOf there d
  let n := dimSize p d
  if d < 2 then (if a < b then 2 * d else 2 * d + 1)
  else if 2 * ((b + n - a) % n) ≤ n then 2 * d else 2 * d + 1

/-- A packet between halls of one package (R413). -/
def Packet.inside (p : Packet) : Bool := hallPkg (streamSrc p.stream) == hallPkg (streamDst p.stream)

/-- The halls of a package that lie between a source and a destination on the base die, on route FRAG mod 3: none on route 0, the lower
of the two others on route 1, the higher on route 2 (R413). -/
def dieRoute (src dst frag : Nat) : List Nat :=
  let others := (List.range 4).filter (fun h => h != src && h != dst)
  if frag % 3 = 0 then [] else (others.drop (frag % 3 - 1)).take 1

/-- The hall a packet inside a package goes to next over a base-die link; `none` at its destination. -/
def nextHall (p : Packet) : Option Nat :=
  let src := streamSrc p.stream % 4
  let dst := streamDst p.stream % 4
  if p.hall = dst then none
  else if p.hall = src then some ((dieRoute src dst p.frag).headD dst)
  else some dst

/-- The direction of a packet's next hop, and whether it is the detour hop; `none` at the destination. -/
def nextDirection (s : State) (p : Packet) : Option (Nat × Bool) :=
  let there := hallPkg (streamDst p.stream)
  if p.pcls = 2 ∧ !p.detoured then some (if coordOf p.pkg 0 = 0 then 0 else 1, true)
  else if p.pcls = 3 ∧ !p.detoured then some (if coordOf p.pkg 1 < 3 then 2 else 3, true)
  else
    ((if p.pcls = 1 then [3, 2, 1, 0] else [2, 3, 1, 0]).find? (fun d => coordOf p.pkg d != coordOf there d)).map (fun d =>
      (legDirection (s.pkg p.pkg) p.pkg there d, false))

/-- The package a direction leads to (R411). -/
def neighbour (s : State) (pkg dir : Nat) : Nat :=
  let d := dir / 2
  let n := dimSize (s.pkg pkg) d
  withCoord pkg d ((coordOf pkg d + (if dir % 2 = 0 then 1 else n - 1)) % n)
/-- A port's other end: the same port number of the opposite direction (log entry 23). -/
def farPort (q : Nat) : Nat := q / 8 * 8 + (q / 4 + 1) % 2 * 4 + q % 4

/-- The port of a hop: 4d + ((floor(FRAG/P) + h) mod 4), or the next up port of the direction (R412). -/
def hopPort (s : State) (p : Packet) (dir : Nat) : Option Nat :=
  ((List.range 4).map (fun i => 4 * dir + (p.frag / p.classes + p.hop + i) % 4)).find? (fun q => (s.port p.pkg q).state == 0)

/-- A package number beyond the rings of GCFG is unassigned (R410). -/
def reachable (s : State) (p : Packet) : Bool :=
  let there := hallPkg (streamDst p.stream)
  decide (coordOf there 2 < (s.pkg p.pkg).ysize) && decide (coordOf there 3 < (s.pkg p.pkg).zsize)

/-! Flow control (R414). -/

/-- Free buffers of a class at an input port. -/
def freeBuffers (s : State) (pkg q cls : Nat) : Nat :=
  8 - s.packets.countP (fun p => p.pkg == pkg && p.port == some q && streamClass p.stream == cls)
/-- A hop that enters a ring needs two, one that goes on in it, or in a mesh, one. -/
def buffersNeeded (p : Packet) (dir : Nat) : Nat :=
  if dir / 2 < 2 then 1
  else match p.port with
    | some q => if q / 8 = dir / 2 then 1 else 2
    | none => 2

/-! Packets on a link (R409, R424, R425). -/

/-- Flits of a packet (R409). -/
def Packet.flits (p : Packet) : Nat := 2 + p.f / 32

/-- The header flit (Table 21-2), with the key epoch and the counter value that a link gives it. -/
def Packet.headerFlit (p : Packet) (kep : Bool) (flitc : Nat) : Nat :=
  let src := streamSrc p.stream
  let dst := streamDst p.stream
  hallPkg dst + dst % 4 * 2 ^ 13 + hallPkg src * 2 ^ 15 + src % 4 * 2 ^ 28 + streamClass p.stream * 2 ^ 30 + p.seq % 2 ^ 32 * 2 ^ 32 +
    p.stripe % 256 * 2 ^ 64 + p.frag % 32 * 2 ^ 72 + (p.k - 1) % 16 * 2 ^ 77 + p.m % 8 * 2 ^ 81 + p.fsz % 4 * 2 ^ 84 +
    p.pcls % 4 * 2 ^ 86 + (if kep then 2 ^ 88 else 0) + p.res0 % 2 ^ 7 * 2 ^ 89 + (p.length - 1) % 2 ^ 14 * 2 ^ 96 +
    p.res0 / 2 ^ 7 % 2 ^ 18 * 2 ^ 110 + flitc % 2 ^ 64 * 2 ^ 128 + p.tag % 2 ^ 32 * 2 ^ 192

/-- What a receiver discards a packet for (R409). -/
def Packet.bad (p : Packet) : Bool :=
  p.res0 != 0 || p.fsz == 3 || decide (p.k + p.m ≤ p.frag) || decide (stripeCount p.length p.k p.f ≤ p.stripe)

/-- A packet sealed for a link direction, and opened at its other end: the payload, where the tag is right (R424). -/
def sealPacket (p : Packet) (id key : Nat) (kep : Bool) (flitc : Nat) : List Nat × List Nat :=
  gcmSeal key (natBytes 4 id ++ natBytes 8 flitc) (natBytes 32 (p.headerFlit kep flitc)) (p.data.map BitVec.toNat)
def openPacket (p : Packet) (id key : Nat) (kep : Bool) (flitc : Nat) (sealed : List Nat × List Nat) : Option (List Byte) :=
  (gcmOpen key (natBytes 4 id ++ natBytes 8 flitc) (natBytes 32 (p.headerFlit kep flitc)) sealed.1 sealed.2).map
    (fun l => l.map (BitVec.ofNat 8))

/-- The key and counter of the next packet of a transmitter: a pending key is taken at the packet boundary; `none` when the counter is
exhausted. -/
def nextCounter (t : Port) (n : Nat) : Option Port :=
  match t.pending with
  | some k => some { t with key := k, pending := none, kep := !t.kep, txCount := 0 }
  | none => if 2 ^ 64 - 2 < t.txCount + n - 1 then none else some t

/-- The receiver takes a packet that authenticates under the key of its epoch and whose counter is fresh: the port, the payload. -/
def acceptPacket (r : Port) (p : Packet) (id : Nat) (kep : Bool) (flitc : Nat) (sealed : List Nat × List Nat) : Option (Port × List Byte) :=
  let r' : Port := if kep = r.rxKep then r
    else { r with rxKey := r.rxPending.getD r.rxKey, rxPending := none, rxKep := kep, rxMin := 0 }
  if p.bad || decide (flitc < r'.rxMin) then none
  else (openPacket p id r'.rxKey kep flitc sealed).map (fun bs => ({ r' with rxMin := flitc + 1 }, bs))
/-- A receiver has discarded a packet (Table 21-6). -/
def countAuthf (s : State) (pkg q : Nat) : State := s.updPort pkg q (fun r => { r with authf := min (r.authf + 1) 0xFFFF })

/-! FRAGMENT_HOP. -/

/-- A packet that cannot move goes behind the others, and tries again. -/
def delayPacket (s : State) (i : Nat) (p : Packet) : State :=
  { removePacket s i with packets := (removePacket s i).packets ++ [p] }.cause (.fragmentHop 0)

/-- No port of the direction is up, or the package does not exist: the fragment is lost, SLOTDROP of hall 0 counts (R412). -/
def dropAtNode (s : State) (i : Nat) (p : Packet) : State :=
  afterLoss (updCounters (removePacket s i) (4 * p.pkg) (fun k => { k with slotdrop := k.slotdrop + 1 })) p

/-- A packet takes one hop through port `q` (R412, R414, R424). -/
def hopThrough (s : State) (i : Nat) (p : Packet) (dir q : Nat) (detour : Bool) : State :=
  let dst := neighbour s p.pkg dir
  let rq := farPort q
  match nextCounter (s.port p.pkg q) p.flits with
  | none =>
    let s1 := s.updPort p.pkg q (fun t => { t with state := 2, keyexh := true })
    delayPacket (s1.updPkg p.pkg (fun k => { k with log := k.log ++ [.keyExh q] })) i p
  | some t =>
    if freeBuffers s dst rq (streamClass p.stream) < buffersNeeded p dir then delayPacket s i p
    else
      let s1 := s.updPort p.pkg q (fun _ => { t with txCount := t.txCount + p.flits })
      let id := Config.linkId p.pkg q
      match acceptPacket (s1.port dst rq) p id t.kep t.txCount (sealPacket p id t.key t.kep t.txCount) with
      | none => afterLoss (removePacket (countAuthf s1 dst rq) i) p
      | some (r, bs) =>
        let p' : Packet := { p with pkg := dst, port := some rq, hop := p.hop + 1, detoured := p.detoured || detour, data := bs }
        { s1.updPort dst rq (fun _ => r) with packets := s1.packets.set i p' }.cause (.fragmentHop 0)

/-- A packet inside a package crosses a base-die link (R413), or has come to its hall. -/
def hopInside (s : State) (i : Nat) (p : Packet) : State :=
  match nextHall p with
  | none => s.next (.fragmentArrival i)
  | some h => { s with packets := s.packets.set i { p with hall := h } }.cause (.fragmentHop 0)

/-- A fragment packet moves: over the base die, by a hop when the next buffer has room, or to its hall (R413, R414). -/
def execFragmentHop (packet : Nat) (s : State) : Answer :=
  match s.packets[packet]? with
  | none => .next s
  | some p =>
    if p.inside then .next (hopInside s packet p)
    else match nextDirection s p with
    | none => .next (s.next (.fragmentArrival packet))
    | some (dir, detour) =>
      if !reachable s p then .next (dropAtNode s packet p)
      else
        match hopPort s p dir with
        | none => .next (dropAtNode s packet p)
        | some q => .next (hopThrough s packet p dir q detour)

/-! Decoding (R415). -/

def updSlots (s : State) (hk : Nat) (f : List Slot → List Slot) : State := s.updHall hk (fun h => { h with slots := f h.slots })

/-- The message of a stream is complete, and its turn has come (R416). -/
def messageReady (st : Stream) : Option Arriving :=
  st.arriving.find? (fun a => a.msg.seq == st.low && a.stripes.length == a.total)

/-- A decoded stripe joins its message. -/
def addStripe (s : State) (p : Packet) (bs : List Byte) : State :=
  let total := stripeCount p.length p.k p.f
  let join (a : Arriving) : Arriving := if a.msg.seq = p.seq then { a with stripes := a.stripes ++ [(p.stripe, bs)], send := max a.send p.send } else a
  let s1 := s.updStream p.stream (fun v =>
    if v.arriving.any (fun a => a.msg.seq == p.seq) then { v with arriving := v.arriving.map join }
    else { v with arriving := v.arriving ++ [⟨⟨p.seq, p.tag, p.body, []⟩, [(p.stripe, bs)], total, p.length, p.send⟩] })
  match messageReady (s1.stream p.stream) with
  | some _ => s1.causeOnce (.messagePerform p.stream)
  | none => s1

/-- A fragment joins its slot, which decodes when it first holds k fragments, from exactly those (R415). -/
def addFragment (s : State) (hk : Nat) (slot : Slot) (p : Packet) : State :=
  let slot' : Slot := { slot with frags := slot.frags ++ [(p.frag, p.data)] }
  let s1 := updSlots s hk (fun l => l.filter (· != slot))
  if slot'.frags.length < slot'.k then updSlots s1 hk (fun l => l ++ [slot'])
  else
    let rebuilt := slot'.frags.any (fun e => decide (slot'.k ≤ e.1))
    let s2 := updCounters s1 hk (fun c =>
      { c with decoded := c.decoded + 1, recon := if rebuilt then c.recon + 1 else c.recon })
    addStripe s2 p (rebuildStripe slot'.k slot'.frags)

/-- An answer is sent again under its number (R419). -/
def answerAgain (s : State) (key : Nat) (a : Saved) : State :=
  let rk := reverseStream key 1
  let bs := match a.request.body with
    | .access k _ _ =>
      if headerKind a.request.bytes = AccessKind.load.code then
        (agentRead s k (leNat (a.request.bytes.take 7)) (leNat ((a.request.bytes.drop 8).take 2) % 2 ^ 14)).2
      else a.reply.msg.bytes
    | _ => a.reply.msg.bytes
  transmit s rk { a.reply with msg := { a.reply.msg with bytes := bs } }

/-- A discarded fragment of a request that is already performed: one of a later sending is a repeat, which is answered once (R419). -/
def noteRepeat (s : State) (p : Packet) : State :=
  let st := s.stream p.stream
  match st.answers.find? (fun a => a.request.seq == p.seq) with
  | none => s
  | some a =>
    if p.send ≤ ((st.seen.find? (fun e => e.1 == p.seq)).map (·.2)).getD 1 then s
    else
      answerAgain (s.updStream p.stream (fun v => { v with seen := v.seen.filter (fun e => e.1 != p.seq) ++ [(p.seq, p.send)] }))
        p.stream a

/-- The open messages of a stream, but the lowest, that its destination keeps something of. -/
def keptMessages (s : State) (key : Nat) : List Nat :=
  let st := s.stream key
  ((st.arriving.map (·.msg.seq) ++ ((s.hall (streamDst key)).slots.filter (fun x => x.stream == key)).map (·.seq)).filter (fun n =>
    n != st.low && !settledSeq st n)).dedup

/-- Stripes of a message cannot be kept: it is beyond the window of 256 numbers behind the lowest open one, or 255 messages behind that
are kept, which leaves the one place of the lowest (R416, R418; log entry 115). -/
def beyondWindow (s : State) (key n : Nat) : Bool :=
  let low := (s.stream key).low
  let kept := keptMessages s key
  !seqBefore n (low + 257) || (n != low && !kept.contains n && decide (255 ≤ kept.length))

/-- Table 21-5. -/
def handleFragment (s : State) (p : Packet) : State :=
  let hk := streamDst p.stream
  let st := s.stream p.stream
  let count (t : State) (f : HallCounters → HallCounters) : State := updCounters t hk f
  if settledSeq st p.seq then noteRepeat (count s (fun c => { c with dup := c.dup + 1 })) p
  else if (st.arriving.find? (fun a => a.msg.seq == p.seq)).any (fun a => a.stripes.any (fun x => x.1 == p.stripe)) then
    count s (fun c => { c with late := c.late + 1 })
  else
    match (s.hall hk).slots.find? (fun x => x.stream == p.stream && x.seq == p.seq && x.stripe == p.stripe) with
    | some slot =>
      if slot.frags.any (fun e => e.1 == p.frag) then count s (fun c => { c with dup := c.dup + 1 })
      else addFragment s hk slot p
    | none =>
      if 1024 ≤ (s.hall hk).slots.length || beyondWindow s p.stream p.seq then
        afterLoss (count s (fun c => { c with slotdrop := c.slotdrop + 1 })) p
      else addFragment s hk ⟨p.stream, p.seq, p.stripe, p.k, p.m, p.f, []⟩ p

/-- A fragment arrives at its hall: discarded when its header is bad (R409), else handled by Table 21-5. -/
def execFragmentArrival (packet : Nat) (s : State) : Answer :=
  match s.packets[packet]? with
  | none => .next s
  | some p =>
    if if p.inside then (nextHall p).isSome else (nextDirection s p).isSome then .next s
    else
      let s1 := removePacket s packet
      if p.bad then
        .next (afterLoss (match p.port with
          | some q => countAuthf s1 p.pkg q
          | none => s1) p)
      else .next (handleFragment s1 p)

/-- A slot that has not decoded within TIMEOUT is freed with its fragments; STALE counts it (R415). -/
def execSlotTimeout (hall slot : Nat) (s : State) : Answer :=
  match (s.hall hall).slots[slot]? with
  | none => .next s
  | some x =>
    let s1 := updCounters (updSlots s hall (fun l => l.eraseIdx slot)) hall (fun c => { c with stale := c.stale + 1 })
    .next (if (s.stream x.stream).sent.any (fun y => y.msg.seq == x.seq) then s1.causeOnce (.retxTimeout x.stream x.seq) else s1)

/-! Performing a message (R416, R417, R447). -/

/-- Numbers that are skipped are passed (R416). -/
def passDone : Nat → Stream → Stream
  | 0, st => st
  | n + 1, st =>
    if st.done.contains st.low then
      passDone n { st with done := st.done.filter (· != st.low), low := (st.low + 1) % 2 ^ 32 }
    else st

/-- A number is performed or skipped: what the stream keeps of it goes, a SACK is due (R416, R418), the filter moves on (R419). -/
def settleSeq (s : State) (key n : Nat) : State :=
  let recov := (s.pkg (hallPkg (streamDst key))).recov
  let s1 := s.updStream key (fun v =>
    let v1 := passDone (v.done.length + 1) { v with done := v.done ++ [n], arriving := v.arriving.filter (fun a => a.msg.seq != n) }
    let old (m : Nat) : Bool := seqBefore (m + 256) v1.low
    { v1 with
      unsent := if recov then v1.unsent else v1.unsent ++ [n]
      answers := v1.answers.filter (fun a => !old a.request.seq)
      seen := v1.seen.filter (fun e => !old e.1) })
  let s2 := if (messageReady (s1.stream key)).isSome then s1.causeOnce (.messagePerform key) else s1
  if recov then s2 else s2.causeOnce (.sack key)

/-- A SACK for every block with numbers not yet named (R418). -/
def execSack (stream : Nat) (s : State) : Answer :=
  let st := s.stream stream
  let bases := (st.unsent.map (fun n => n / 64 * 64)).dedup
  let bits (b : Nat) : Nat := (List.range 64).foldl (fun a i => if settledSeq st (b + i) then a + 2 ^ i else a) 0
  .next (bases.foldl (fun t b =>
    sendMessage t (streamDst stream) (streamSrc stream) 2 0 (.sack stream b (bits b)) (leBytes 8 b ++ leBytes 8 (bits b)))
    (s.updStream stream (fun v => { v with unsent := [] })))

/-- SKIP (R421): the number counts as performed; its fragments are discarded from now on. A slot of it that is open stays until its
TIMEOUT (R415). -/
def execSkip (stream seq : Nat) (s : State) : Answer :=
  .next (if settledSeq (s.stream stream) seq then s else settleSeq s stream seq)

/-- The answer of a request: a response or an ACK; under RECOV = 1 it is saved (R418, R419). -/
def sendAnswer (s : State) (key : Nat) (m : FabricMessage) (body : Body) (bs : List Byte) : State :=
  let rk := reverseStream key 1
  if (s.pkg (hallPkg (streamDst key))).recov then
    let x := codedMessage s rk 0 body bs
    (encodeMessage s rk 0 body bs).updStream key (fun v => { v with answers := v.answers ++ [⟨m, x⟩] })
  else offerMessage s rk 0 body bs

/-- A message without a response is acknowledged by a message only under RECOV = 1 (R419); answers have none. -/
def sendAck (s : State) (key : Nat) (m : FabricMessage) : State :=
  if (s.pkg (hallPkg (streamDst key))).recov then sendAnswer s key m (.ack (streamClass key) m.seq) (leBytes 8 (m.seq % 2 ^ 32)) else s

/-- Enabled bytes of a block are stored (R447). -/
def maskedWrite (s : State) (key pa mask : Nat) (bs : List Byte) : State :=
  bs.zipIdx.foldl (fun t e => if bitOf mask e.2 then agentWrite t key (pa + e.2) [e.1] else t) s

/-- A remote atomic at the storage (R321, R417): the old bytes and the flags. -/
def remoteAtomic (s : State) (key pa w : Nat) (operands : List Byte) : State × List Byte × FlagSet :=
  let op := AtomOp.ofCode (bitsOf w 16 14 + 8 * bitsOf w 17 17)
  let (n, signed) := (atomType op (some (Raw.fmtOf (bitsOf w 21 18)))).getD (w % 2 ^ 14, false)
  let x := leNat (operands.take n)
  let y := leNat ((operands.drop (if op = .cas2 then 16 else 8)).take n)
  let (s1, old) := agentRead s key pa n
  let r := atomNew op n signed x y (leNat old)
  (match r.new with
   | some v => agentWrite s1 key pa (leBytes n v)
   | none => s1, old, r.flags)

/-- A thread access, as its header names it (R447). -/
def performAccess (s : State) (stream : Nat) (m : FabricMessage) (key : Nat) : State :=
  let pa := leNat (m.bytes.take 7)
  let w := leNat ((m.bytes.drop 8).take 8)
  let n := w % 2 ^ 14
  let data := m.bytes.drop 16
  let kind := headerKind m.bytes
  if kind = AccessKind.load.code then
    let (s1, bs) := agentRead s key pa n
    sendAnswer s1 stream m (.answer (streamClass stream) m.seq 0) bs
  else if kind = AccessKind.store.code then
    let s1 := if data.length = 16 + n then maskedWrite s key pa (leNat (data.take 16)) (data.drop 16) else agentWrite s key pa (data.take n)
    sendAck (storePerformed s1 m) stream m
  else
    let (s1, old, f) := remoteAtomic s key pa w data
    sendAnswer s1 stream m (.answer (streamClass stream) m.seq f) old

/-- A message whose turn has come is performed (R417). -/
def performMessage (s : State) (key : Nat) (m : FabricMessage) : State :=
  match m.body with
  | .access k _ _ => performAccess s key m k
  | .network ak x => sendAck (toInbox s ak x) key m
  | .control e => sendAck (s.next e) key m
  | .counter pa dead _ => sendAck (s.next (.remoteCounterOp pa dead)) key m
  | .donate _ =>
    let (s1, r) := acceptDonation s (hallPkg (streamDst key)) (donateRequest m.bytes)
    sendAnswer s1 key m (.answer (streamClass key) m.seq 0) (leBytes 8 (BitVec.ofInt 64 r).toNat)
  | .answer cls n f =>
    let rk := reverseStream key cls
    let s1 := arriveAnswer s rk n m.bytes f
    if (s1.pkg (hallPkg (streamDst key))).recov then s1.next (.ack rk n) else s1
  | .ack cls n => s.next (.ack (reverseStream key cls) n)
  | .sack st base bits => s.next (.sackReceive st base bits)
  | .skip st n => s.next (.skip st n)

/-- The Carter whose lines a message waits for (R348). -/
def messageHeld (s : State) (m : FabricMessage) : Option Nat :=
  match m.body with
  | .access k _ _ => rangeHeldBy s k (leNat (m.bytes.take 7)) (leNat ((m.bytes.drop 8).take 2) % 2 ^ 14)
  | _ => none

/-- MESSAGE_PERFORM (R416): the lowest number not yet performed, once all of its stripes are decoded. -/
def execMessagePerform (stream : Nat) (s : State) : Answer :=
  match messageReady (s.stream stream) with
  | none => .next s
  | some a =>
    let m : FabricMessage :=
      { a.msg with bytes := ((List.range a.total).flatMap (fun i => (a.stripes.lookup i).getD [])).take a.length }
    if (messageHeld s m).isSome then .next (s.cause (.messagePerform stream))
    else
      .next (performMessage (settleSeq (s.updStream stream (fun v => { v with seen := v.seen ++ [(a.msg.seq, a.send)] })) stream
        a.msg.seq) stream m)

/-! Links (R423, R425). -/

/-- WIDTH of the widest link that working lanes allow (Table 21-6). -/
def widthOf (lanes : Nat) : Nat := if 4 ≤ lanes then 0 else if 2 ≤ lanes then 1 else if lanes = 1 then 2 else 3

/-- The packet that a transmitter sends next through a port. -/
def nextOnPort (s : State) (pkg port : Nat) : Option Nat :=
  s.packets.findIdx? (fun p => p.pkg == pkg && !p.inside && (match nextDirection s p with
    | some (dir, _) => hopPort s p dir == some port
    | none => false))

/-- The packet that a port was sending is lost in the middle: the counter values of its flits are used up (R423, R424; log entry 23). -/
def loseInTransit (s : State) (pkg port : Nat) : State :=
  match (nextOnPort s pkg port).bind (fun i => (s.packets[i]?).map (fun p => (i, p))) with
  | none => s
  | some (i, p) =>
    match nextCounter (s.port pkg port) p.flits with
    | none => s
    | some t => afterLoss (removePacket (s.updPort pkg port (fun _ => { t with txCount := t.txCount + p.flits })) i) p

/-- A lane fails, `lanes` go on working: the packet in transit is lost, and the link retrains, or goes down with no lane left (R423). A
link that an exhausted counter has taken down stays so until a key comes (R425). -/
def execLaneFailure (pkg port lanes : Nat) (s : State) : Answer :=
  if (s.port pkg port).state = 3 then .next s
  else if (s.port pkg port).keyexh then .next (s.updPort pkg port (fun p => { p with lanes := lanes }))
  else
    let s1 := loseInTransit s pkg port
    if lanes = 0 then .next (s1.updPort pkg port (fun p => { p with lanes := 0, state := 2, width := 3 }))
    else
      .next ((s1.updPort pkg port (fun p => { p with lanes := lanes, state := 1, retrains := min (p.retrains + 1) 0xFFFF })).cause
        (.retrainDone pkg port))

/-- A link has retrained, and is up at the widest width its lanes allow (R423). -/
def execRetrainDone (pkg port : Nat) (s : State) : Answer :=
  let p := s.port pkg port
  .next (if p.state = 1 then s.updPort pkg port (fun p => { p with state := if p.lanes = 0 then 2 else 0, width := widthOf p.lanes })
    else s)

/-- Veram installs a pending key of a link direction, at both ends; an exhausted link retrains and resumes with it (R425). -/
def execKeyInstall (pkg port key : Nat) (s : State) : Answer :=
  let t := s.port pkg port
  if t.state = 3 then .next s
  else
    let s1 := s.updPort pkg port (fun p => { p with pending := some key })
    let s2 := s1.updPort (neighbour s pkg (port / 4)) (farPort port) (fun p => { p with rxPending := some key })
    .next (if t.keyexh then
        (s2.updPort pkg port (fun p => { p with keyexh := false, state := 1, retrains := min (p.retrains + 1) 0xFFFF })).cause
          (.retrainDone pkg port)
      else s2)

end Sys2Proof.Machine
end

