-- ==== Sys2Proof/Machine/MatrixRun.lean ====
section
/-! DEFINITION. The matrix unit at work: which command starts (R168), reading operands (R153 to R155, R167, R349), the sums (R59 to R63,
R164, R201), the solvers (R176 to R178), completion (R169), bank transfers (R161, R203). -/

namespace Sys2Proof.Machine

/-! Which command starts (R168). -/

/-- No command accepted earlier into the other class that targets a bank of this one is outstanding, and none of its own class waits to
start before it there, so that commands on one bank complete in acceptance order (R168, R202). -/
def eligible (v : Stall) (x : Cmd) : Bool :=
  let before (o : Cmd) : Bool := decide (o.seq < x.seq) && o.banks.any x.banks.contains
  !(v.low ++ v.high).any before && !(v.running.toList ++ v.closing).any (fun o => o.high != x.high && before o)

/-- The command that starts next, and the count of consecutive high starts after it. -/
def pickCmd (v : Stall) : Option (Cmd × Nat) :=
  let hi := v.high.find? (eligible v)
  let lo := v.low.find? (eligible v)
  match hi, lo with
  | some h, some l => if 8 ≤ v.highStarts then some (l, 0) else some (h, v.highStarts + 1)
  | some h, none => some (h, v.highStarts + 1)
  | none, some l => some (l, 0)
  | none, none => none

/-- The unit starts the next command when it is free, its stall runs (R391) and no transfer holds the command's banks (R161). A command
that has freed the unit may still have cells to make final (R170, Table 17-3). -/
def execMatrixStart (stall : Nat) (s : State) : Answer :=
  let v := s.stall stall
  if (v.running.isSome && !v.closing.isEmpty) || v.halted then .next s
  else
    match pickCmd v with
    | none => .next s
    | some (x, n) =>
      if v.transfers.any (fun t => t.banks.any x.banks.contains) then .next s
      else
        .next (((s.setStall stall
          { v with closing := v.closing ++ v.running.toList, running := some x, highStarts := n, low := v.low.filter (· != x),
                   high := v.high.filter (· != x) }).cause
          (.matrixComplete stall)).cause (.followOnHandoff (stallArcade stall)))

/-! Reading operands. -/

/-- An operand as read: its elements by line and K index, its factors by line and K index. -/
structure Operand where
  elems : Array Nat
  byRow : Bool
  cols : Nat
  lines : Nat
  k : Nat
  fmt : Fmt
  smode : Nat
  scales : Array Nat
  deriving Repr

/-- The reads of a command, each list with the first address whose data is in error. -/
def runReads (s : State) (x : Cmd) : State × List (Array Nat × Option Nat) :=
  x.reads.zipIdx.foldl (fun (p : State × List (Array Nat × Option Nat)) e =>
    let (t, vs, bad) := readValues s.tick x.ctx x.trans e.1.1 e.1.2.1 (x.early.getD e.2 []) p.1 e.1.2.2
    (t, p.2 ++ [(vs, bad)])) (s, [])

def nthRead (l : List (Array Nat × Option Nat)) (i : Nat) : Array Nat := (l.getD i (#[], none)).1
/-- The first address whose data is in error. -/
def readsBad (l : List (Array Nat × Option Nat)) : Option Nat := l.findSome? (·.2)

/-- An operand from its elements and scales: A has its lines in rows, B in columns (R155). -/
def operandOf (t : Tile) (byRow : Bool) (es sc : Array Nat) : Operand :=
  ⟨es, byRow, t.cols, if byRow then t.rows else t.cols, if byRow then t.cols else t.rows, t.fmt, t.smode, sc⟩

def Operand.code (o : Operand) (line k : Nat) : Nat :=
  if o.byRow then o.elems.getD (line * o.cols + k) 0 else o.elems.getD (k * o.cols + line) 0
/-- The factor of element (line, k) (Table 06-2). -/
def Operand.factor (o : Operand) (line k : Nat) : FVal :=
  match o.smode with
  | 0 => oneF
  | 1 => fp32.decode (o.scales.getD 0 0)
  | 2 => e8m0Val (o.scales.getD (line * (o.k / 32) + k / 32) 0)
  | _ => fp16.decode (o.scales.getD line 0)

/-! Sums (R61 to R63). -/

/-- A product of factors: NaN with IV where ∞ meets 0. -/
def prodOf (l : List FVal) : Flagged FVal :=
  l.foldl (fun p x =>
    let r := FVal.mul p.val x
    ⟨r.val, p.flags ||| r.flags⟩) ⟨oneF, 0⟩

/-- AccAdd in fa56 mode (Table 02-7): `nan` when an element or scale of the group is NaN. -/
def accAdd56 (acc : BitVec 56) (nan : Bool) (ps : List (Flagged FVal)) : Flagged (BitVec 56) :=
  let a := fa56.decode acc.toNat
  let out (x : FVal) : BitVec 56 := BitVec.ofNat 56 (fa56.encode x)
  let pos := ps.any (fun p => p.val == .inf false)
  let neg := ps.any (fun p => p.val == .inf true)
  if a.isNan || nan then ⟨out .nan, 0⟩
  else if ps.any (fun p => p.val.isNan) then ⟨out .nan, flagIV⟩
  else if (pos && neg) || (pos && a == .inf true) || (neg && a == .inf false) then ⟨out .nan, flagIV⟩
  else if pos then ⟨out (.inf false), 0⟩
  else if neg then ⟨out (.inf true), 0⟩
  else if a.isInf then ⟨acc, 0⟩
  else
    let sum := ps.foldl (fun t p => (FVal.add .rne t p.val).val) a
    let r := fa56.roundVal .rne sum
    if r.val.isZero then ⟨0, 0⟩ else ⟨out r.val, flagIf (r.flags &&& flagOF != 0) flagAOI⟩

/-- AccAdd in q56 mode (R63). -/
def accAddQ (acc : BitVec 56) (sum : Int) : Flagged (BitVec 56) :=
  let (v, clamped) := saturate (acc.toInt + sum) (intLow true 56) (intHigh true 56)
  ⟨BitVec.ofInt 56 v, flagIf clamped flagAOS⟩

/-- An integer operand of a q56 pairing; a ds8 element in units of 2⁻⁶ (R60). -/
def q56Elem (t : Fmt) (w : Nat) : Int := if t = .ds8 then ds8Units w else intElem (t.int?.getD true) t.width w

/-- The K indices in groups of G. -/
def groups (k g : Nat) : List (List Nat) := (List.range (k / g)).map (fun i => (List.range g).map (fun j => i * g + j))

/-- Cell (i, j) of an fa56 pairing. -/
def cellFloat (a b : Operand) (g : Nat) (acc : BitVec 56) (i j : Nat) : Flagged (BitVec 56) :=
  (groups a.k g).foldl (fun r ks =>
    let fs := ks.map (fun k => [fmtValue a.fmt (a.code i k), a.factor i k, fmtValue b.fmt (b.code j k), b.factor j k])
    let x := accAdd56 r.val (fs.any (fun l => l.any FVal.isNan)) (fs.map prodOf)
    ⟨x.val, r.flags ||| x.flags⟩) ⟨acc, 0⟩

/-- Cell (i, j) of a q56 pairing. -/
def cellInt (a b : Operand) (g : Nat) (acc : BitVec 56) (i j : Nat) : Flagged (BitVec 56) :=
  (groups a.k g).foldl (fun r ks =>
    let sum := ks.foldl (fun t k => t + q56Elem a.fmt (a.code i k) * q56Elem b.fmt (b.code j k)) (0 : Int)
    let x := accAddQ r.val sum
    ⟨x.val, r.flags ||| x.flags⟩) ⟨acc, 0⟩

/-- An element of an MMAM operand as a moment, its scale applied, its variance checked (R201, R183). -/
def tileMoment (o : Operand) (line k : Nat) : Flagged Moment × Bool :=
  if o.fmt = .m64 then
    let m := decodeMoment (o.code line k)
    if m.mean.isNan then (⟨⟨.nan, plusZero⟩, 0⟩, true)
    else
      let v := runSteps (fixVar m.var)
      (⟨⟨m.mean, v.val⟩, v.flags⟩, false)
  else
    let x := fmtValue o.fmt (o.code line k)
    let f := o.factor line k
    (⟨⟨(FVal.mul x f).val, plusZero⟩, 0⟩, x.isNan || f.isNan)

/-- Cells (i, j) of both banks (R201). -/
def cellMoment (a b : Operand) (acc0 acc1 : BitVec 56) (i j : Nat) : Flagged (BitVec 56 × BitVec 56) :=
  (groups a.k 16).foldl (fun r ks =>
    let es := ks.map (fun k => (tileMoment a i k, tileMoment b j k))
    let nan := es.any (fun e => e.1.2 || e.2.2)
    let nv := es.foldl (fun f e => f ||| e.1.1.flags ||| e.2.1.flags) (0 : FlagSet)
    let s0 := es.map (fun e => prodOf [e.1.1.val.mean, e.2.1.val.mean])
    let s1 := es.flatMap (fun e =>
      let x := e.1.1.val
      let y := e.2.1.val
      [prodOf [x.mean, x.mean, y.var], prodOf [y.mean, y.mean, x.var], prodOf [x.var, y.var]])
    let c0 := accAdd56 r.val.1 nan s0
    let c1 := accAdd56 r.val.2 nan s1
    ⟨(c0.val, c1.val), r.flags ||| nv ||| c0.flags ||| c1.flags⟩) ⟨(acc0, acc1), 0⟩

/-- The cells of a 64 × 64 block computed by `f` inside rows × cols, the others as they are. -/
def blockCells {α : Type} (rows cols : Nat) (f : Nat → Nat → Flagged α) (keep : Nat → α) : Array (Flagged α) :=
  ((List.range 4096).map (fun i =>
    if decide (i / 64 < rows) && decide (i % 64 < cols) then f (i / 64) (i % 64) else ⟨keep i, 0⟩)).toArray

def arrayFlags {α : Type} (l : Array (Flagged α)) : FlagSet := l.foldl (fun f x => f ||| x.flags) 0

/-- An MMA writes its bank (R164): the flags. -/
def runMmaOn (s : State) (k : Nat) (x : Cmd) (zero : Bool) (a b : Operand) : State × FlagSet :=
  let v := s.stall k
  let cells := bankCells v x.pair x.bank
  let g := groupSize a.fmt b.fmt
  let old (i : Nat) : BitVec 56 := cells.getD i 0
  let start (i : Nat) : BitVec 56 := if zero then 0 else old i
  let cell (i j : Nat) : Flagged (BitVec 56) :=
    if (v.pair x.pair).mode x.bank then cellInt a b g (start (64 * i + j)) i j else cellFloat a b g (start (64 * i + j)) i j
  let new := blockCells a.lines b.lines cell old
  (s.updStall k (fun w => setBank w x.pair x.bank (fun i => (new.getD i ⟨0, 0⟩).val)), arrayFlags new)

/-- An MMAM writes both banks (R201). -/
def runMmamOn (s : State) (k : Nat) (x : Cmd) (a b : Operand) : State × FlagSet :=
  let v := s.stall k
  let c0 := bankCells v x.pair 0
  let c1 := bankCells v x.pair 1
  let new := blockCells a.lines b.lines
    (fun i j => cellMoment a b (c0.getD (64 * i + j) 0) (c1.getD (64 * i + j) 0) i j) (fun i => (c0.getD i 0, c1.getD i 0))
  (s.updStall k (fun w =>
      setBank (setBank w x.pair 0 (fun i => (new.getD i ⟨(0, 0), 0⟩).val.1)) x.pair 1 (fun i => (new.getD i ⟨(0, 0), 0⟩).val.2)),
    arrayFlags new)

/-! Solvers (R176 to R178). Tiles lie in windows; a matrix is its elements row by row. -/

/-- A matrix as read: elements by row and column. -/
structure Mat where
  cols : Nat
  elems : Array FVal

def Mat.get (m : Mat) (r c : Nat) : FVal := m.elems.getD (r * m.cols + c) plusZero
def Mat.set (m : Mat) (r c : Nat) (x : FVal) : Mat := { m with elems := m.elems.set! (r * m.cols + c) x }

/-- A matrix from the elements that `need` selects, in logical order; the others are read by no step. -/
def matOf (t : Tile) (need : Nat → Nat → Bool) (es : Array Nat) : Mat :=
  let idx := (List.range t.rows).flatMap (fun r => ((List.range t.cols).filter (need r)).map (fun c => r * t.cols + c))
  ⟨t.cols, (idx.zip es.toList).foldl (fun m e => m.set! e.1 (fp32.decode e.2)) (Array.replicate (t.rows * t.cols) plusZero)⟩

/-- An element written in place. -/
def putElem (s : State) (c : Nat) (t : Tile) (r col : Nat) (x : FVal) : State :=
  match windowPa c (t.addr r col) with
  | some pa => writeHome s 0 pa (leBytes 4 (fp32.encode x))
  | none => s

def roundRne (x : FVal) : FVal := (fp32.roundVal .rne x).val
def divRne (a b : FVal) : FVal := (fp32.finish .rne (FVal.div a b)).val
def sqrtRne (a : FVal) : FVal := (fp32.finish .rne (FVal.sqrt a)).val

/-- x − Σ a·b, summed exactly and rounded once (R175). -/
def dotFrom (x : FVal) (l : List (FVal × FVal)) : FVal :=
  roundRne (l.foldl (fun t p => (FVal.fma .rne p.1.neg p.2 t).val) x)

/-- One column of the factorisation: the matrix with column j, or nothing when d ≤ 0 or NaN (R176). -/
def choleskyCol (n : Nat) (m : Mat) (j : Nat) : Option Mat :=
  let d := dotFrom (m.get j j) ((List.range j).map (fun k => (m.get j k, m.get j k)))
  if !FVal.lt plusZero d then none
  else
    let p := sqrtRne d
    some ((List.range n).foldl (fun (w : Mat) i =>
      if i ≤ j then w
      else w.set i j (divRne (dotFrom (m.get i j) ((List.range j).map (fun k => (m.get i k, m.get j k)))) p)) (m.set j j p))

/-- The columns in order: the matrix, and how many columns were factored. -/
def choleskyFrom (n : Nat) : Nat → Nat → Mat → Mat × Nat
  | 0, j, m => (m, j)
  | f + 1, j, m =>
    match choleskyCol n m j with
    | none => (m, j)
    | some w => choleskyFrom n f (j + 1) w

/-- One triangular solve over rows `order`; `dep i` are the columns already solved for row i (R177). -/
def triangle (t : Nat → Nat → FVal) (order : List Nat) (dep : Nat → List Nat) (b : Array FVal) : Array FVal :=
  order.foldl (fun x i =>
    let v := dotFrom (x.getD i plusZero) ((dep i).map (fun k => (t i k, x.getD k plusZero)))
    x.set! i (divRne v (t i i))) b
def solveLower (n : Nat) (t : Nat → Nat → FVal) (b : Array FVal) : Array FVal :=
  triangle t (List.range n) (fun i => List.range i) b
def solveUpper (n : Nat) (t : Nat → Nat → FVal) (b : Array FVal) : Array FVal :=
  triangle t (List.range n).reverse (fun i => (List.range n).filter (fun k => decide (i < k))) b

def Mat.col (m : Mat) (n c : Nat) : Array FVal := ((List.range n).map (fun i => m.get i c)).toArray

/-- The largest magnitude; NaN when one is NaN (R178). -/
def normInf (l : Array FVal) : FVal := l.foldl (fun a x => FVal.max a x.abs) plusZero

/-- The refinement of one column (R178): the column, how often it was refined, and whether the cap stopped it. -/
def refine (n cap : Nat) (tol : FVal) (a l : Mat) (b : Array FVal) : Nat → Nat → Array FVal → Array FVal × Nat × Bool
  | 0, it, x => (x, it, true)
  | f + 1, it, x =>
    let r := ((List.range n).map (fun i =>
      dotFrom (b.getD i plusZero) ((List.range n).map (fun k => (a.get i k, x.getD k plusZero))))).toArray
    let bound := (FVal.mul tol (normInf b)).val
    if FVal.le (normInf r) bound then (x, it, false)
    else if it = cap then (x, it, true)
    else
      let y := solveLower n l.get r
      let d := solveUpper n (fun i k => l.get k i) y
      refine n cap tol a l b f (it + 1)
        (((List.range n).map (fun i => roundRne (FVal.add .rne (x.getD i plusZero) (d.getD i plusZero)).val)).toArray)

/-- A column written in place. -/
def putCol (s : State) (c : Nat) (t : Tile) (col : Nat) (x : Array FVal) : State :=
  (List.range t.rows).foldl (fun u i => putElem u c t i col (x.getD i plusZero)) s

/-- MCHOL on the lower triangle of its tile (R176). -/
def runChol (s : State) (x : Cmd) (l : List (Array Nat × Option Nat)) : State × FlagSet × Option Nat :=
  let t := tileOf x.a
  let n := t.rows
  let (w, j) := choleskyFrom n n 0 (matOf t (fun r c => decide (c ≤ r)) (nthRead l 0))
  let lower := (List.range n).flatMap (fun i => (List.range (i + 1)).map (fun j => (i, j)))
  ((lower.filter (fun e => decide (e.2 < j))).foldl (fun u e => putElem u x.ctx t e.1 e.2 (w.get e.1 e.2)) s,
    flagIf (decide (j < n)) flagNP, some j)

/-- MTRSL and MTRSU (R177). -/
def runTrs (s : State) (x : Cmd) (lower : Bool) (l : List (Array Nat × Option Nat)) : State × FlagSet × Option Nat :=
  let ta := tileOf x.a
  let tb := tileOf x.b
  let n := ta.rows
  let a := matOf ta (fun r c => if lower then decide (c ≤ r) else decide (r ≤ c)) (nthRead l 0)
  let b := matOf tb (fun _ _ => true) (nthRead l 1)
  let solve := if lower then solveLower n a.get else solveUpper n a.get
  ((List.range tb.cols).foldl (fun t col => putCol t x.ctx tb col (solve (b.col n col))) s, 0, none)

/-- MRFN (R178). -/
def runRfn (s : State) (x : Cmd) (l : List (Array Nat × Option Nat)) : State × FlagSet × Option Nat :=
  let ta := tileOf x.a
  let tb := tileOf x.b
  let tx := tileOf x.b2
  let n := ta.rows
  let a := matOf ta (fun _ _ => true) (nthRead l 0)
  let f := matOf (tileOf x.a2) (fun r c => decide (c ≤ r)) (nthRead l 1)
  let b := matOf tb (fun _ _ => true) (nthRead l 2)
  let x0 := matOf tx (fun _ _ => true) (nthRead l 3)
  let tol := fp32.decode (x.zval.toNat % 2 ^ 32)
  let cap := bitsOf x.zval.toNat 35 32 + 1
  let (s1, it, capped) := (List.range tb.cols).foldl (fun (p : State × Nat × Bool) col =>
    let (v, k, stop) := refine n cap tol a f (b.col n col) (cap + 1) 0 (x0.col n col)
    (if k = 0 then p.1 else putCol p.1 x.ctx tx col v, max p.2.1 k, p.2.2 || stop)) (s, 0, false)
  (s1, flagIf capped flagRCAP, some it)

/-- The reads whose errors count: MRFN reads L only in an iteration (R153, R178). -/
def solverBad (x : Cmd) (result : Option Nat) (l : List (Array Nat × Option Nat)) : Option Nat :=
  match x.kind, result with
  | .rfn, some 0 => readsBad (l.eraseIdx 1)
  | _, _ => readsBad l

/-- What a solver does, its operands read first and its result written at the end (log entry 114): the state, its flags, its result, and
the address of an operand in error (R176 to R178). -/
def runSolver (s : State) (x : Cmd) : State × FlagSet × Option Nat × Option Nat :=
  let (s1, l) := runReads s x
  let (s2, flags, result) :=
    match x.kind with
    | .chol => runChol s1 x l
    | .trsl => runTrs s1 x true l
    | .trsu => runTrs s1 x false l
    | .rfn => runRfn s1 x l
    | _ => (s1, 0, none)
  match solverBad x result l with
  | some va => (s1, 0, none, some va)
  | none => (s2, flags, result, none)

/-- The result of a solver is written, and its context goes on (R175). -/
def finishSolver (s : State) (x : Cmd) (flags : FlagSet) (result : Option Nat) : State :=
  let c := x.ctx
  if (s.ctx c).wait != .solver then s
  else
    let s1 := (s.raise c flags).updCtx c (fun v => { v with wait := .none })
    match result, x.dest with
    | some n, some r => s1.writeG c r (w64 n)
    | some n, none => s1.updCtx c (fun v => { v with lat := w64 n })
    | none, _ => s1

/-! Completion. -/

/-- An uncorrectable error in the operands of an accepted command kills a task (R364): cause ECC, asynchronous. -/
def asyncEcc (s : State) (c va : Nat) : State :=
  s.beginDeath c
    { cause := Cause.ecc.code, einfo := w64 (2 * 4 + (if (s.ctx c).pl then 0 else 1024)), eva := w64 va, async := true, dbl := false,
      notrap := false, purged := false, abort := false, detail := 0, atTend := false, quiet := false,
      stage := 0, stores := [], tbm := 0, time := 0, next := (s.ctx c).unissuedPc }

/-- The command whose cells become final next, and the stall without it. -/
def popCmd (v : Stall) : Option (Cmd × Stall) :=
  match v.closing, v.running with
  | x :: r, _ => some (x, { v with closing := r })
  | [], some x => some (x, { v with running := none })
  | [], none => none

/-- A command reads operands in another package that stores posted by its context have yet to reach (R167). -/
def readsPosted (s : State) (x : Cmd) : Bool :=
  (s.ctx x.ctx).posted != 0 && x.reads.any (fun r => r.2.2.any (fun va => isRemote x.ctx (placeThrough x.ctx x.trans va)))

/-- The oldest started command completes (R169): its cells and flags are written; the unit is free for the next. -/
def execMatrixComplete (stall : Nat) (s : State) : Answer :=
  match popCmd (s.stall stall) with
  | none => .next s
  | some (x, v) =>
    if readsPosted s x then .next (s.cause (.matrixComplete stall))
    else
      let s0 := (s.setStall stall v).cause (.matrixStart stall)
      let holder := ((s.stall stall).pair x.pair).holder
      let onPair (f : State → Operand → Operand → State × FlagSet) : Answer :=
        let (s1, l) := runReads s0 x
        match readsBad l, holder with
        | some va, some h => .next (asyncEcc s1 h va)
        | some _, none => .next s1
        | none, h =>
          let (s2, flags) := f s1 (operandOf (tileOf x.a) true (nthRead l 0) (nthRead l 1))
            (operandOf (tileOf x.b) false (nthRead l 2) (nthRead l 3))
          .next (match h with
            | some h => s2.raise h flags
            | none => s2)
      match x.kind with
      | .mma zero => onPair (fun t a b => runMmaOn t stall x zero a b)
      | .mmam => onPair (fun t a b => runMmamOn t stall x a b)
      | .chol | .trsl | .trsu | .rfn =>
        match runSolver s0 x with
        | (s1, _, _, some va) =>
          .next (asyncEcc (s1.updCtx x.ctx (fun v => { v with wait := if v.wait = .solver then .none else v.wait })) x.ctx va)
        | (s1, flags, result, none) => .next (finishSolver s1 x flags result)

/-- The words that an ALOAD or MALDM read; one that acquires read them all at issue (R161, R203, R312). -/
def transferWords (s : State) (x : Transfer) : State × Array Nat :=
  if x.acquires then (s, x.early.toArray)
  else
    let (s1, ws, _) := readValues s.tick x.ctx x.trans false 8 x.early s (cellAddrs x.va x.stride)
    (s1, ws)

/-- An m64 word as MALDM takes it: a NaN mean gives (NaN, +0) and no flag, else the variance is checked (R183, R203). -/
def loadedMoment (w : Nat) : Flagged (FVal × FVal) :=
  let m := decodeMoment w
  if m.mean.isNan then ⟨(.nan, plusZero), 0⟩
  else
    let v := runSteps (fixVar m.var)
    ⟨(m.mean, v.val), v.flags⟩

/-- The cells that an ALOAD or MALDM writes (R161, R203). -/
def landTransfer (s : State) (k : Nat) (x : Transfer) : State × FlagSet :=
  let (s1, ws) := transferWords s x
  if x.both then
    let ms := ws.map loadedMoment
    let put (v : Stall) (bank : Nat) (f : FVal × FVal → FVal) : Stall :=
      setBank v x.pair bank (fun i => BitVec.ofNat 56 (fa56.encode (f (ms.getD i ⟨(plusZero, plusZero), 0⟩).val)))
    (s1.updStall k (fun v => put (put v 0 (·.1)) 1 (·.2)), arrayFlags ms)
  else (s1.updStall k (fun v => setBank v x.pair x.bank (fun i => BitVec.ofNat 56 (ws.getD i 0))), 0)

/-- The oldest bank transfer of a stall completes; one whose words lie in another package, after the stores its context has posted. -/
def execBankTransferComplete (stall : Nat) (s : State) : Answer :=
  match (s.stall stall).transfers with
  | [] => .next s
  | x :: r =>
    if (s.ctx x.ctx).posted != 0 && (cellAddrs x.va x.stride).any (fun va => isRemote x.ctx (placeThrough x.ctx x.trans va)) then
      .next (s.cause (.bankTransferComplete stall))
    else
      let s0 := (s.updStall stall (fun v => { v with transfers := r })).cause (.matrixStart stall)
      let (s1, flags) := landTransfer s0 stall x
      .next (match ((s1.stall stall).pair x.pair).holder with
        | some h => s1.raise h flags
        | none => s1)

/-- A context waits for a free pair to be restored (R237). -/
def Ctx.waitsForPair (v : Ctx) : Bool :=
  match v.wait with
  | .pair _ _ => true
  | _ => false

/-- A freed pair is cleared and can be granted again (R159), to a restored task that waits for one (R237). -/
def execPairClearDone (stall pair : Nat) (s : State) : Answer :=
  let s1 := s.updStall stall (fun v => v.setPair pair { v.pair pair with clearing := false })
  .next (((s1.ctxs.filter (fun e => ctxStall e.1 == stall && e.2.waitsForPair)).map (·.1)).foldl
    (fun t c => t.cause (.resumeContinuation c)) s1)

end Sys2Proof.Machine
end

