-- ==== Sys2Proof/Machine/Sha3.lean ====
section
/-! DEFINITION. SHA3-512 (R443, R444): Keccak-f[1600] over 25 lanes, lane x + 5y, and the sponge of 72-byte blocks. -/

namespace Sys2Proof.Machine

/-- How far each lane turns. -/
def keccakTurns : List Nat :=
  [0, 1, 62, 28, 27, 36, 44, 6, 55, 20, 3, 10, 43, 25, 39, 41, 45, 15, 21, 8, 18, 2, 61, 56, 14]

/-- The constants of the 24 rounds. -/
def keccakConstants : List Nat :=
  [0x0000000000000001, 0x0000000000008082, 0x800000000000808A, 0x8000000080008000, 0x000000000000808B, 0x0000000080000001,
   0x8000000080008081, 0x8000000000008009, 0x000000000000008A, 0x0000000000000088, 0x0000000080008009, 0x000000008000000A] ++
  [0x000000008000808B, 0x800000000000008B, 0x8000000000008089, 0x8000000000008003, 0x8000000000008002, 0x8000000000000080,
   0x000000000000800A, 0x800000008000000A, 0x8000000080008081, 0x8000000000008080, 0x0000000080000001, 0x8000000080008008]

def lane (a : List Word) (i : Nat) : Word := a.getD i 0

/-- θ: every lane takes in the parities of two columns. -/
def keccakTheta (a : List Word) : List Word :=
  let c := (List.range 5).map (fun x => lane a x ^^^ lane a (x + 5) ^^^ lane a (x + 10) ^^^ lane a (x + 15) ^^^ lane a (x + 20))
  (List.range 25).map (fun i => lane a i ^^^ lane c ((i + 4) % 5) ^^^ (lane c ((i + 1) % 5)).rotateLeft 1)

/-- ρ and π: every lane turns and moves. -/
def keccakMove (a : List Word) : List Word :=
  (List.range 25).map (fun i =>
    let j := (i % 5 + 3 * (i / 5)) % 5 + 5 * (i % 5)
    (lane a j).rotateLeft (keccakTurns.getD j 0))

/-- χ: every lane takes in two others of its row. -/
def keccakChi (a : List Word) : List Word :=
  (List.range 25).map (fun i => lane a i ^^^ (~~~ lane a (i / 5 * 5 + (i + 1) % 5) &&& lane a (i / 5 * 5 + (i + 2) % 5)))

/-- A round, and the permutation. -/
def keccakRound (a : List Word) (k : Nat) : List Word :=
  let b := keccakChi (keccakMove (keccakTheta a))
  (lane b 0 ^^^ w64 k) :: b.drop 1
def keccak (a : List Word) : List Word := keccakConstants.foldl keccakRound a

/-- A block of 72 bytes is taken in. -/
def absorb (a : List Word) (block : List Byte) : List Word :=
  keccak ((List.range 25).map (fun i => lane a i ^^^ w64 (leNat ((block.drop (8 * i)).take 8))))

/-- The bytes that fill a message up to whole blocks, with the domain bits of SHA3. -/
def sha3Padding (len : Nat) : List Byte :=
  let q := 72 - len % 72
  if q = 1 then [0x86] else 0x06 :: List.replicate (q - 2) 0 ++ [0x80]

/-- SHA3-512 of a message: 64 bytes. -/
def sha3 (m : List Byte) : List Byte :=
  let t := m ++ sha3Padding m.length
  let a := (List.range (t.length / 72)).foldl (fun s i => absorb s ((t.drop (72 * i)).take 72)) (List.replicate 25 0)
  (a.take 8).flatMap (fun x => leBytes 8 x.toNat)

/-- SHA3-512(M ‖ digest) of a measurement register, the least significant byte of each first (log entry 8). -/
def sha3Extend (m digest : BitVec 512) : BitVec 512 :=
  BitVec.ofNat 512 (leNat (sha3 (leBytes 64 m.toNat ++ leBytes 64 digest.toNat)))

end Sys2Proof.Machine
end

