-- ==== Sys2Proof/Machine/Slices.lean ====
section
/-! DEFINITION. Gangs time-sliced across packages (R435 to R438). -/

namespace Sys2Proof.Machine

/-- A package's record of a slice. -/
def State.slice (s : State) (pkg slid : Nat) : Option Slice := (s.pkg pkg).slices.find? (fun x => x.desc.slid == slid)
def State.updSlice (s : State) (pkg slid : Nat) (f : Slice → Slice) : State :=
  s.updPkg pkg (fun p => { p with slices := p.slices.map (fun x => if x.desc.slid = slid then f x else x) })
def State.dropSlice (s : State) (pkg slid : Nat) : State :=
  s.updPkg pkg (fun p => { p with slices := p.slices.filter (fun x => x.desc.slid != slid) })

/-- The slice as its coordinator holds it. -/
def coordinated (s : State) (slid : Nat) : Option Slice :=
  s.pkgs.findSome? (fun e => e.2.slices.find? (fun x => x.desc.slid == slid && x.coordinator == e.1))

/-- The packages a descriptor names, and the entry of one. -/
def slicePkgs (d : SliceDescriptor) : List Nat := (d.entries.map (·.pkg)).dedup
def entryOf (d : SliceDescriptor) (pkg : Nat) : Option SliceEntry := d.entries.find? (fun e => e.pkg == pkg)
/-- GRACE and the count are in range (R435). -/
def validSlice (d : SliceDescriptor) : Bool :=
  10000 ≤ d.grace && d.grace ≤ 10 ^ 9 && 1 ≤ d.entries.length && d.entries.length ≤ 8192

def newSlice (pkg : Nat) (d : SliceDescriptor) : Slice := ⟨d, pkg, 1, [], [], [], [], [], []⟩

/-- SLICE (R435): the package coordinates, and sends PREPARE. -/
def execSlice (pkg : Nat) (descriptor : SliceDescriptor) (s : State) : Answer :=
  if !validSlice descriptor || (s.slice pkg descriptor.slid).isSome then .next s
  else
    let s1 := s.updPkg pkg (fun p => { p with slices := p.slices ++ [newSlice pkg descriptor] })
    .next ((slicePkgs descriptor).foldl (fun t q => sendSlice t pkg q (.slicePrepare q descriptor.slid)) s1)

/-- The incoming region of a slice is admitted (R253, R435), its RCB read under the PTBR of the outgoing one (log entry 94). -/
def admitIncoming (s : State) (pkg : Nat) (e : SliceEntry) : State :=
  match s.region pkg e.outgoing with
  | none => s
  | some out =>
    let tr := regionTranslator out pkg
    let place : Except Stop (State × Place) := do
      if e.incoming % 256 ≠ 0 ∨ 64 ≤ (s.pkg pkg).waitlist.length then throw badObject
      let s1 ← checkSpan tr (devAcc true false) s e.incoming 256
      let (s2, l) ← tr s1 e.incoming (devAcc true false)
      pure (s2, l.place)
    match place with
    | .error _ => s
    | .ok (s1, p) => (admitRegion s1 pkg e.incoming 0 p).1

/-- PREPARE (phase 1): READY when both regions are there and the incoming one is admitted and held in the wait list. -/
def execSlicePrepare (pkg slid : Nat) (s : State) : Answer :=
  match coordinated s slid with
  | none => .next s
  | some x =>
    match entryOf x.desc pkg with
    | none => .next s
    | some e =>
      let s0 := if (s.region pkg e.incoming).isSome then s else admitIncoming s pkg e
      let waits := ((s0.region pkg e.incoming).map (fun r => r.st == 1)).getD false
      let s1 := if waits then s0.updRegion pkg e.incoming (fun r => { r with held := true }) else s0
      let s2 := if pkg = x.coordinator ∨ (s1.slice pkg slid).isSome then s1
        else s1.updPkg pkg (fun p => { p with slices := p.slices ++ [{ newSlice x.coordinator x.desc with phase := 2 }] })
      .next (sendSlice s2 pkg x.coordinator (.sliceAnswer x.coordinator slid pkg (waits && (s.region pkg e.outgoing).isSome)))

/-- A package's part is over. -/
def endSlice (s : State) (pkg slid : Nat) : State := s.dropSlice pkg slid
/-- The coordinator has decided: a record that it keeps for no package of its own goes. -/
def decided (s : State) (pkg : Nat) (x : Slice) : State :=
  if (slicePkgs x.desc).contains pkg then s.updSlice pkg x.desc.slid (fun y => { y with phase := 5 }) else endSlice s pkg x.desc.slid

/-- The answers are in (phase 2): COMMIT when all are READY and there is time, otherwise ABORT. -/
def execSliceAnswer (pkg slid sender : Nat) (ready : Bool) (s : State) : Answer :=
  match s.slice pkg slid with
  | none => .next s
  | some x =>
    if x.coordinator ≠ pkg ∨ x.phase ≠ 1 ∨ !(slicePkgs x.desc).contains sender ∨ x.ready.contains sender ∨ x.refused.contains sender then .next s
    else
      let y : Slice := if ready then { x with ready := x.ready ++ [sender] } else { x with refused := x.refused ++ [sender] }
      let s1 := s.updSlice pkg slid (fun _ => y)
      if y.ready.length + y.refused.length < (slicePkgs y.desc).length then .next s1
      else if y.refused.isEmpty && decide (s.timeOf pkg + 100000 < y.desc.tstart) then
        .next ((slicePkgs y.desc).foldl (fun t q => sendSlice t pkg q (.sliceTstart q slid)) (s1.updSlice pkg slid (fun z => { z with phase := 3 })))
      else .next ((slicePkgs y.desc).foldl (fun t q => sendSlice t pkg q (.sliceAbort q slid)) (decided s1 pkg y))

/-- The hold on an incoming region ends. -/
def unhold (s : State) (pkg rcb : Nat) : State := s.updRegion pkg rcb (fun r => { r with held := false })

/-- ABORT: the incoming region waits as usual. -/
def execSliceAbort (pkg slid : Nat) (s : State) : Answer :=
  match s.slice pkg slid with
  | none => .next s
  | some x =>
    match entryOf x.desc pkg with
    | none => .next s
    | some e => .next ((endSlice (unhold s pkg e.incoming) pkg slid).cause (.waitlistExamine pkg))

/-- TSTART (phase 3): a request, source 1, for every bound context of the outgoing region. A region that has ended counts as
evicted (R438). -/
def execSliceTstart (pkg slid : Nat) (s : State) : Answer :=
  match s.slice pkg slid with
  | none => .next s
  | some x =>
    match entryOf x.desc pkg with
    | none => .next s
    | some e =>
      if s.timeOf pkg < x.desc.tstart then .next (s.cause (.sliceTstart pkg slid))
      else
        let cs := ((s.region pkg e.outgoing).map (fun r => r.bound.map (·.1))).getD []
        let s1 := s.updSlice pkg slid (fun y => { y with waiting := cs, rebind := [] })
        if cs.isEmpty then .next (sendSlice s1 pkg x.coordinator (.sliceReport x.coordinator slid pkg true))
        else .next ((cs.foldl (fun t c => requestContext t c 1 true slid) s1).cause (.sliceGraceExpiry pkg slid))

/-- TSTART + GRACE: LATE when a context is not freed. -/
def execSliceGraceExpiry (pkg slid : Nat) (s : State) : Answer :=
  match s.slice pkg slid with
  | none => .next s
  | some x =>
    if s.timeOf pkg < x.desc.tstart + x.desc.grace then .next (s.cause (.sliceGraceExpiry pkg slid))
    else if x.waiting.isEmpty then .next s
    else .next (sendSlice s pkg x.coordinator (.sliceReport x.coordinator slid pkg false))

/-- The reports are in (phase 4): START when every one is EVICTED, otherwise ABANDON, which Veram logs (R438). -/
def execSliceReport (pkg slid sender : Nat) (evicted : Bool) (s : State) : Answer :=
  match s.slice pkg slid with
  | none => .next s
  | some x =>
    if x.coordinator ≠ pkg ∨ x.phase ≠ 3 ∨ !(slicePkgs x.desc).contains sender ∨ x.evicted.contains sender ∨ x.late.contains sender then .next s
    else
      let y : Slice := if evicted then { x with evicted := x.evicted ++ [sender] } else { x with late := x.late ++ [sender] }
      let s1 := s.updSlice pkg slid (fun _ => y)
      if y.evicted.length + y.late.length < (slicePkgs y.desc).length then .next s1
      else if y.late.isEmpty then .next ((slicePkgs y.desc).foldl (fun t q => sendSlice t pkg q (.sliceStart q slid)) (decided s1 pkg y))
      else
        let s2 := s1.updPkg pkg (fun p => { p with log := p.log ++ [.sliceAbandon slid y.late] })
        .next ((slicePkgs y.desc).foldl (fun t q => sendSlice t pkg q (.sliceAbandon q slid)) (decided s2 pkg y))

/-- START: the incoming region is bound and released (R255 to R257); before a boot it waits (R443). -/
def execSliceStart (pkg slid : Nat) (s : State) : Answer :=
  match s.slice pkg slid with
  | none => .next s
  | some x =>
    match entryOf x.desc pkg with
    | none => .next s
    | some e =>
      let s1 := endSlice (unhold s pkg e.incoming) pkg slid
      match s1.region pkg e.incoming with
      | none => .next s1
      | some r => .next (if (s1.pkg pkg).booted ∧ r.st = 1 ∧ canBind s1 pkg r then bindRegion s1 pkg r else s1.cause (.waitlistExamine pkg))

/-- A slice's request on a context is withdrawn; a YIELD that waited for it completes (R124, R438). -/
def withdraw (slid : Nat) (s : State) (c : Nat) : State :=
  let mine (q : Request) : Bool := q.source == 1 && q.slid == slid
  if (s.ctx c).requests.any mine then
    (s.updCtx c (fun v => v.setRequests (v.requests.filter (fun q => !mine q)))).causeOnce (.evict c)
  else s

/-- A freed context of the outgoing region is bound to it again. -/
def rebindContext (s : State) (pkg : Nat) (e : Nat × Word) : State :=
  match s.region pkg e.2.toNat with
  | none => s
  | some r =>
    let v := s.ctx e.1
    if v.st != .idle || v.rcbp == e.2 then s
    else
      let s1 := s.updRegion pkg r.rcb (fun q => { q with bound := q.bound ++ [(e.1, v.rcbp)], former := q.former.filter (· != e.1) })
      (bindContext s1 e.1 r).cause (.huntRound e.1)

/-- ABANDON (R438). -/
def execSliceAbandon (pkg slid : Nat) (s : State) : Answer :=
  match s.slice pkg slid with
  | none => .next s
  | some x =>
    let s1 := x.waiting.foldl (withdraw slid) s
    .next (endSlice (x.rebind.foldl (fun t e => rebindContext t pkg e) s1) pkg slid)

/-- A named package has answered the message of the slice's phase. -/
def Slice.answeredBy (x : Slice) (sender : Nat) : Bool :=
  if x.phase = 1 then x.ready.contains sender || x.refused.contains sender else x.evicted.contains sender || x.late.contains sender

/-- A named package that has answered nothing within 10⁸ ns raises a machine check at the coordinator (R437); the slice stays in its
phase. -/
def execSliceNoAnswer (pkg slid sender : Nat) (s : State) : Answer :=
  match s.slice pkg slid with
  | none => .next s
  | some x =>
    .next (if x.coordinator = pkg ∧ (slicePkgs x.desc).contains sender ∧ (x.phase = 1 ∨ x.phase = 3) ∧ !x.answeredBy sender then
        s.updPkg pkg (fun p => { p with log := p.log ++ [.machineCheck sender] })
      else s)

end Sys2Proof.Machine
end

