-- ==== Sys2Proof/Machine/Platform.lean ====
section
/-! DEFINITION. The package around its stalls: reset (R33), boot (R443, R444), Veram's commands (Table 22-4), device registers
(Table 13-5, R439), carving (R289), the host's accesses (R439, R440), TIME (R436). -/

namespace Sys2Proof.Machine

/-! Reset and boot. -/

/-- Veram's own state, which package reset leaves (log entry 25). -/
def Package.afterReset (p : Package) : Package :=
  { Package.reset with
    m0 := p.m0
    m1 := p.m1
    m2 := p.m2
    m3 := p.m3
    svns := p.svns
    minSvns := p.minSvns
    booted := p.booted
    bootError := p.bootError
    log := p.log
    timeOffset := p.timeOffset }

/-- PACKAGE_RESET (R33): every table of the package's units holds its reset records again; memory stays. -/
def execPackageReset (pkg : Nat) (s : State) : Answer :=
  .next
    { s with
      gfile := s.gfile.filter (fun e => e.1 / 2048 / 512 != pkg)
      vfile := s.vfile.filter (fun e => e.1 / 1024 / 512 != pkg)
      ctxs := s.ctxs.filter (fun e => ctxPkg e.1 != pkg)
      stalls := s.stalls.filter (fun e => stallPkg e.1 != pkg)
      arcades := s.arcades.filter (fun e => arcadePkg e.1 != pkg)
      halls := s.halls.filter (fun e => hallPkg e.1 != pkg)
      pkgs := Store.put s.pkgs pkg (s.pkg pkg).afterReset
      l1 := s.l1.filter (fun e => stallPkg (l1Stall e.1) != pkg)
      l2 := s.l2.filter (fun e => hallPkg (l2Hall e.1) != pkg)
      streams := s.streams.filter (fun e => hallPkg (streamSrc e.1) != pkg && hallPkg (streamDst e.1) != pkg)
      packets := s.packets.filter (fun p => p.pkg != pkg && hallPkg (streamSrc p.stream) != pkg && hallPkg (streamDst p.stream) != pkg)
      visits := s.visits.filter (fun e => arcadePkg e.2 != pkg) }

/-- M ← SHA3-512(M ‖ digest) for the register of an image (R444): ROM, Veram, microcode (Porter, Crier, halls), configuration. -/
def Package.measure (p : Package) (step : Nat) (digest : BitVec 512) : Package :=
  match step with
  | 0 => { p with m0 := sha3Extend p.m0 digest }
  | 1 => { p with m1 := sha3Extend p.m1 digest }
  | 2 | 3 | 4 => { p with m2 := sha3Extend p.m2 digest }
  | _ => { p with m3 := sha3Extend p.m3 digest }

/-- The fused minimum of a step's security version. -/
def Package.minSvn (p : Package) (step : Nat) : Nat := Store.get 0 p.minSvns step

/-- An image may follow (R443, R444; log entry 95): the ROM's measurement (0) first, if any, Veram's firmware (1), then the microcode of
the Porter (2), the Crier (3) and the halls (4), each once, then configuration that the host loads (5). `last` is 0 at the start, else
the number of the image before plus 1. -/
def bootNextStep (last step : Nat) : Bool :=
  match step with
  | 0 => last == 0
  | 1 => decide (last ≤ 1)
  | 2 | 3 | 4 => last == step
  | _ => decide (5 ≤ last)

/-- The boot chain (R443), `last` the step before plus 1: an image out of its order, whose signature fails, or whose SVN is below the
fused minimum, stops it with an error, and so does a chain without Veram's firmware and the three of microcode. -/
def bootChain (p : Package) (last : Nat) : List BootImage → Package
  | [] => if 5 ≤ last then { p with booted := true, bootError := 0 } else { p with booted := false, bootError := max last 1 + 1 }
  | i :: r =>
    if !(i.signed && bootNextStep last i.step) || decide (i.svn < p.minSvn i.step) then
      { p with booted := false, bootError := i.step + 1 }
    else bootChain { p.measure i.step i.digest with svns := p.svns ++ [(i.step, i.svn)] } (i.step + 1) r

def execPowerOnBoot (pkg : Nat) (images : List BootImage) (s : State) : Answer :=
  .next (s.updPkg pkg (fun p => bootChain { p with m0 := 0, m1 := 0, m2 := 0, m3 := 0, svns := [] } 0 images))

/-! Veram's mailbox commands (Table 22-4). -/

/-- The fields of an ATTEST report: the nonce, M0 to M3, every SVN, GCFG.SELF, the identity certificate chain (R445). -/
def reportFields (p : Package) (pkg nonce : Nat) : List Nat :=
  [nonce, p.m0.toNat, p.m1.toNat, p.m2.toNat, p.m3.toNat] ++ p.svns.map (·.2) ++ [pkg] ++ Config.identityChain pkg
def execAttest (pkg nonce : Nat) (s : State) : Answer :=
  let f := reportFields (s.pkg pkg) pkg nonce
  .next (s.updPkg pkg (fun p => { p with mailbox := f ++ [Config.attestSignature f] }))

/-- KEYLOAD: key ids 1 to 2,047; 0 is refused. -/
def execKeyload (pkg id wrapped : Nat) (s : State) : Answer :=
  .next (if 1 ≤ id ∧ id ≤ 2047 then s.updPkg pkg (fun p => { p with keys := Store.put p.keys id (Config.unwrapKey wrapped) }) else s)
def execKeyevict (pkg id : Nat) (s : State) : Answer := .next (s.updPkg pkg (fun p => { p with keys := Store.del p.keys id }))
/-- PWRCAP: a limit from 1,000 to 2,200 W (R446). -/
def execPwrcap (pkg watts : Nat) (s : State) : Answer :=
  .next (if 1000 ≤ watts ∧ watts ≤ 2200 then s.updPkg pkg (fun p => { p with pwrcap := watts }) else s)
/-- EVENTS returns and clears the log. -/
def execEvents (pkg : Nat) (s : State) : Answer := .next (s.updPkg pkg (fun p => { p with events := p.log, log := [] }))

/-! Device registers. -/

def execHscarveWrite (hall k : Nat) (value : Word) (s : State) : Answer :=
  .next (if k < 8 then writeCarve s hall k value.toNat else s)

/-- A carved way is zeroed, and EN set (R289). -/
def execHscarveDone (hall k : Nat) (s : State) : Answer :=
  let v := (s.hall hall).carveOf k
  .next (if v.pending then setCarve (clearWay s hall k) hall k { v with en := true, pending := false } else s)

def execCrateWrite (hall cls : Nat) (value : Word) (s : State) : Answer :=
  .next (if cls < 4 then writeCrate s hall cls value.toNat else s)

/-- The input of a mailbox command: word `i`, and `n` words from `i` on as one number (log entry 105). -/
def Package.input (p : Package) (i : Nat) : Nat := Store.get 0 p.mailboxIn i
def Package.inputs (p : Package) (i n : Nat) : Nat := (List.range n).foldl (fun a j => a + p.input (i + j) * 2 ^ (64 * j)) 0

/-- The command of a code of Table 22-4, with its input. -/
def mailboxCommand (p : Package) (pkg code : Nat) : Option Event :=
  match code with
  | 1 => some (.attest pkg (p.inputs 1 8))
  | 2 => some (.keyload pkg (p.input 1) (p.inputs 2 8))
  | 3 => some (.keyevict pkg (p.input 1))
  | 4 =>
    let n := p.input 4
    some (.slice pkg ⟨p.input 1 % 2 ^ 32, p.input 2, p.input 3, if 8192 < n then [] else (List.range n).map (fun i =>
      ⟨p.input (5 + 3 * i), p.input (6 + 3 * i), p.input (7 + 3 * i)⟩)⟩)
  | 5 => some (.pwrcap pkg (p.input 1))
  | 6 => some (.events pkg)
  | _ => none

/-- A write of BAR0 (R439): CRQT, a doorbell, the Veram mailbox. -/
def writeBar0 (s : State) (pkg o : Nat) (value : Word) : State :=
  if o = 0 then s.updPkg pkg (fun p => { p with crqt := value })
  else if 0x100000 ≤ o ∧ o < 0x100000 + 8 * 256 ∧ o % 8 = 0 then s.cause (.doorbell pkg ((o - 0x100000) / 8) value.toNat)
  else if o = 0x2000000 then
    match mailboxCommand (s.pkg pkg) pkg value.toNat with
    | some e => s.cause e
    | none => s
  else if 0x2000000 < o ∧ o < 2 ^ 26 ∧ o % 8 = 0 then
    s.updPkg pkg (fun p => { p with mailboxIn := Store.set 0 p.mailboxIn ((o - 0x2000000) / 8) value.toNat })
  else s

/-- A write of a register: `offset` names the package's physical map, or, from 2⁴³ on, BAR0 (R439). -/
def execRegisterWrite (pkg offset : Nat) (value : Word) (s : State) : Answer :=
  if 2 ^ 13 ≤ pkg then .next s
  else if 2 ^ 43 ≤ offset then .next (writeBar0 s pkg (offset - 2 ^ 43) value)
  else
    match storageOf (pkg * 2 ^ 43 + offset) with
    | .hallRegs h off => .next (if off % 8 = 0 then writeHallReg s h off value.toNat else s)
    | _ => .next s

/-! The host. -/

/-- A snoop of a 128-byte host line (R440): dirty bytes of L1 and L2 are written back, the L2 copies go. -/
def execHostSnoop (pkg line : Nat) (s : State) : Answer :=
  let mine := (s.l1.filter (fun e => l1LineNo e.1 / 2 == line && stallPkg (l1Stall e.1) == pkg && e.2.dirty != 0)).map (·.1)
  let s1 := mine.foldl (fun t k => writeBackLine t (l1Stall k) (l1KeyId k) (l1LineNo k)) s
  let held := (s1.l2.filter (fun e => l2LineNo e.1 == line && hallPkg (l2Hall e.1) == pkg)).map (·.1)
  .next (held.foldl (fun t k => dropVisitor t (l2Hall k) (l2KeyId k) line) s1)

/-- The bytes of an access through BAR2; `none` for one that the link does not support (Table 22-3). -/
def hdmSize : HdmOp → Option Nat
  | .read n => some n
  | .write bs => some bs.length
  | .fetchAdd n _ | .swap n _ => if n = 4 ∨ n = 8 then some n else none
  | .cas n _ _ => if n = 4 ∨ n = 8 ∨ n = 16 then some n else none

/-- What an access through BAR2 stores, from the bytes that are there. -/
def hdmStores (op : HdmOp) (old : Nat) : Option (List Byte) :=
  match op with
  | .read _ => none
  | .write bs => some bs
  | .fetchAdd n x => some (leBytes n (old + x))
  | .swap n x => some (leBytes n x)
  | .cas n c x => if old = c % 2 ^ (8 * n) then some (leBytes n x) else none

/-- The host, or a peer, reads or writes package DRAM through BAR2, or makes an AtomicOp there, offset o naming package offset o (R439);
what was read is returned. A line that a Carter has taken is waited for (R348). -/
def execHdmAccess (pkg offset : Nat) (op : HdmOp) (s : State) : Answer :=
  match hdmSize op with
  | none => .next s
  | some n =>
    let pa := pkg * 2 ^ 43 + offset
    if 2 ^ 39 < offset + n ∨ 2 ^ 13 ≤ pkg then .next s
    else if (rangeHeldBy s 0 pa n).isSome then .next (s.cause (.hdmAccess pkg offset op))
    else
      let (s1, bs) := agentRead s 0 pa n
      let s2 := match hdmStores op (leNat bs) with
        | some new => agentWrite s1 0 pa new
        | none => s1
      .next (match op with
        | .write _ => s2
        | _ => s2.updPkg pkg (fun p => { p with hdm := bs }))

/-- TIME of a package is adjusted (R436). -/
def execTimeSync (pkg : Nat) (delta : Int) (s : State) : Answer :=
  .next (s.updPkg pkg (fun p => { p with timeOffset := p.timeOffset + delta }))

end Sys2Proof.Machine
end

