-- ==== Sys2Proof/Machine/Dispatch.lean ====
section
/-! DEFINITION. One arm per instruction or event: a direct call of its meaning. -/

namespace Sys2Proof.Machine

def exec (i : Instr) (s : State) : Host.Outcome State Fault Refusal :=
  match i with
  | .add a => Sys2Proof.Machine.execAdd a s
  | .sub a => Sys2Proof.Machine.execSub a s
  | .and a => Sys2Proof.Machine.execAnd a s
  | .or a => Sys2Proof.Machine.execOr a s
  | .xor a => Sys2Proof.Machine.execXor a s
  | .shl a => Sys2Proof.Machine.execShl a s
  | .shr a => Sys2Proof.Machine.execShr a s
  | .sra a => Sys2Proof.Machine.execSra a s
  | .mul a => Sys2Proof.Machine.execMul a s
  | .mulh a => Sys2Proof.Machine.execMulh a s
  | .mulhn a => Sys2Proof.Machine.execMulhn a s
  | .min a => Sys2Proof.Machine.execMin a s
  | .max a => Sys2Proof.Machine.execMax a s
  | .minn a => Sys2Proof.Machine.execMinn a s
  | .maxn a => Sys2Proof.Machine.execMaxn a s
  | .not a => Sys2Proof.Machine.execNot a s
  | .mov a => Sys2Proof.Machine.execMov a s
  | .sxw a => Sys2Proof.Machine.execSxw a s
  | .zxw a => Sys2Proof.Machine.execZxw a s
  | .sxb a => Sys2Proof.Machine.execSxb a s
  | .sxh a => Sys2Proof.Machine.execSxh a s
  | .clz a => Sys2Proof.Machine.execClz a s
  | .popc a => Sys2Proof.Machine.execPopc a s
  | .rev a => Sys2Proof.Machine.execRev a s
  | .movi a => Sys2Proof.Machine.execMovi a s
  | .addi a => Sys2Proof.Machine.execAddi a s
  | .shli a => Sys2Proof.Machine.execShli a s
  | .shri a => Sys2Proof.Machine.execShri a s
  | .srai a => Sys2Proof.Machine.execSrai a s
  | .rori a => Sys2Proof.Machine.execRori a s
  | .ceq a => Sys2Proof.Machine.execCeq a s
  | .cne a => Sys2Proof.Machine.execCne a s
  | .clt a => Sys2Proof.Machine.execClt a s
  | .cge a => Sys2Proof.Machine.execCge a s
  | .cltn a => Sys2Proof.Machine.execCltn a s
  | .cgen a => Sys2Proof.Machine.execCgen a s
  | .tst a => Sys2Proof.Machine.execTst a s
  | .bnz a => Sys2Proof.Machine.execBnz a s
  | .bz a => Sys2Proof.Machine.execBz a s
  | .jr a => Sys2Proof.Machine.execJr a s
  | .callr a => Sys2Proof.Machine.execCallr a s
  | .ret => Sys2Proof.Machine.execRet s
  | .j a => Sys2Proof.Machine.execJ a s
  | .call a => Sys2Proof.Machine.execCall a s
  | .ldb a => Sys2Proof.Machine.execLdb a s
  | .ldh a => Sys2Proof.Machine.execLdh a s
  | .ldw a => Sys2Proof.Machine.execLdw a s
  | .ldd a => Sys2Proof.Machine.execLdd a s
  | .ldbs a => Sys2Proof.Machine.execLdbs a s
  | .ldhs a => Sys2Proof.Machine.execLdhs a s
  | .ldws a => Sys2Proof.Machine.execLdws a s
  | .ldq a => Sys2Proof.Machine.execLdq a s
  | .stb a => Sys2Proof.Machine.execStb a s
  | .sth a => Sys2Proof.Machine.execSth a s
  | .stw a => Sys2Proof.Machine.execStw a s
  | .std a => Sys2Proof.Machine.execStd a s
  | .stq a => Sys2Proof.Machine.execStq a s
  | .selnz a => Sys2Proof.Machine.execSelnz a s
  | .selz a => Sys2Proof.Machine.execSelz a s
  | .lea1 a => Sys2Proof.Machine.execLea1 a s
  | .lea2 a => Sys2Proof.Machine.execLea2 a s
  | .lea4 a => Sys2Proof.Machine.execLea4 a s
  | .lea8 a => Sys2Proof.Machine.execLea8 a s
  | .lea16 a => Sys2Proof.Machine.execLea16 a s
  | .nop => Sys2Proof.Machine.execNop s
  | .yield => Sys2Proof.Machine.execYield s
  | .trapf => Sys2Proof.Machine.execTrapf s
  | .flagr a => Sys2Proof.Machine.execFlagr a s
  | .flagc a => Sys2Proof.Machine.execFlagc a s
  | .sysc a => Sys2Proof.Machine.execSysc a s
  | .bkpt a => Sys2Proof.Machine.execBkpt a s
  | .rdc a => Sys2Proof.Machine.execRdc a s
  | .wrc a => Sys2Proof.Machine.execWrc a s
  | .tmark a => Sys2Proof.Machine.execTmark a s
  | .div a => Sys2Proof.Machine.execDiv a s
  | .divn a => Sys2Proof.Machine.execDivn a s
  | .rem a => Sys2Proof.Machine.execRem a s
  | .remn a => Sys2Proof.Machine.execRemn a s
  | .bfx a => Sys2Proof.Machine.execBfx a s
  | .bfxn a => Sys2Proof.Machine.execBfxn a s
  | .bfi a => Sys2Proof.Machine.execBfi a s
  | .rol a => Sys2Proof.Machine.execRol a s
  | .ror a => Sys2Proof.Machine.execRor a s
  | .ctz a => Sys2Proof.Machine.execCtz a s
  | .fadd a => Sys2Proof.Machine.execFadd a s
  | .fsub a => Sys2Proof.Machine.execFsub a s
  | .fmul a => Sys2Proof.Machine.execFmul a s
  | .fdiv a => Sys2Proof.Machine.execFdiv a s
  | .fmin a => Sys2Proof.Machine.execFmin a s
  | .fmax a => Sys2Proof.Machine.execFmax a s
  | .fsqrt a => Sys2Proof.Machine.execFsqrt a s
  | .fabs a => Sys2Proof.Machine.execFabs a s
  | .fma a => Sys2Proof.Machine.execFma a s
  | .fms a => Sys2Proof.Machine.execFms a s
  | .fnma a => Sys2Proof.Machine.execFnma a s
  | .fneg a => Sys2Proof.Machine.execFneg a s
  | .feq a => Sys2Proof.Machine.execFeq a s
  | .flt a => Sys2Proof.Machine.execFlt a s
  | .fle a => Sys2Proof.Machine.execFle a s
  | .funo a => Sys2Proof.Machine.execFuno a s
  | .cvtif a => Sys2Proof.Machine.execCvtif a s
  | .cvtfi a => Sys2Proof.Machine.execCvtfi a s
  | .cvtfb a => Sys2Proof.Machine.execCvtfb a s
  | .cvtbf a => Sys2Proof.Machine.execCvtbf a s
  | .cvtfh a => Sys2Proof.Machine.execCvtfh a s
  | .cvthf a => Sys2Proof.Machine.execCvthf a s
  | .vadd a => Sys2Proof.Machine.execVadd a s
  | .vsub a => Sys2Proof.Machine.execVsub a s
  | .vmul a => Sys2Proof.Machine.execVmul a s
  | .vmin a => Sys2Proof.Machine.execVmin a s
  | .vmax a => Sys2Proof.Machine.execVmax a s
  | .vand a => Sys2Proof.Machine.execVand a s
  | .vor a => Sys2Proof.Machine.execVor a s
  | .vxor a => Sys2Proof.Machine.execVxor a s
  | .vfma a => Sys2Proof.Machine.execVfma a s
  | .vfms a => Sys2Proof.Machine.execVfms a s
  | .vabs a => Sys2Proof.Machine.execVabs a s
  | .vneg a => Sys2Proof.Machine.execVneg a s
  | .vshl a => Sys2Proof.Machine.execVshl a s
  | .vshr a => Sys2Proof.Machine.execVshr a s
  | .vsra a => Sys2Proof.Machine.execVsra a s
  | .vdiv a => Sys2Proof.Machine.execVdiv a s
  | .vceq a => Sys2Proof.Machine.execVceq a s
  | .vcne a => Sys2Proof.Machine.execVcne a s
  | .vclt a => Sys2Proof.Machine.execVclt a s
  | .vcle a => Sys2Proof.Machine.execVcle a s
  | .vcgt a => Sys2Proof.Machine.execVcgt a s
  | .vcge a => Sys2Proof.Machine.execVcge a s
  | .pand a => Sys2Proof.Machine.execPand a s
  | .por a => Sys2Proof.Machine.execPor a s
  | .pxor a => Sys2Proof.Machine.execPxor a s
  | .pnot a => Sys2Proof.Machine.execPnot a s
  | .pset a => Sys2Proof.Machine.execPset a s
  | .pcnt a => Sys2Proof.Machine.execPcnt a s
  | .pfirst a => Sys2Proof.Machine.execPfirst a s
  | .vld a => Sys2Proof.Machine.execVld a s
  | .vst a => Sys2Proof.Machine.execVst a s
  | .vlds a => Sys2Proof.Machine.execVlds a s
  | .vsts a => Sys2Proof.Machine.execVsts a s
  | .vgath a => Sys2Proof.Machine.execVgath a s
  | .vscat a => Sys2Proof.Machine.execVscat a s
  | .vldb a => Sys2Proof.Machine.execVldb a s
  | .vrsum a => Sys2Proof.Machine.execVrsum a s
  | .vrmax a => Sys2Proof.Machine.execVrmax a s
  | .vrmin a => Sys2Proof.Machine.execVrmin a s
  | .vext a => Sys2Proof.Machine.execVext a s
  | .vbcst a => Sys2Proof.Machine.execVbcst a s
  | .vsel a => Sys2Proof.Machine.execVsel a s
  | .vperm a => Sys2Proof.Machine.execVperm a s
  | .vslide a => Sys2Proof.Machine.execVslide a s
  | .vcvt a => Sys2Proof.Machine.execVcvt a s
  | .vpack a => Sys2Proof.Machine.execVpack a s
  | .vunpk a => Sys2Proof.Machine.execVunpk a s
  | .vqds a => Sys2Proof.Machine.execVqds a s
  | .vexp a => Sys2Proof.Machine.execVexp a s
  | .vrcp a => Sys2Proof.Machine.execVrcp a s
  | .vrsq a => Sys2Proof.Machine.execVrsq a s
  | .verf a => Sys2Proof.Machine.execVerf a s
  | .vsett a => Sys2Proof.Machine.execVsett a s
  | .vlen a => Sys2Proof.Machine.execVlen a s
  | .viota a => Sys2Proof.Machine.execViota a s
  | .mma a => Sys2Proof.Machine.execMma a s
  | .mmaz a => Sys2Proof.Machine.execMmaz a s
  | .mmah a => Sys2Proof.Machine.execMmah a s
  | .mmazh a => Sys2Proof.Machine.execMmazh a s
  | .aacq a => Sys2Proof.Machine.execAacq a s
  | .arel => Sys2Proof.Machine.execArel s
  | .azero a => Sys2Proof.Machine.execAzero a s
  | .aload a => Sys2Proof.Machine.execAload a s
  | .astore a => Sys2Proof.Machine.execAstore a s
  | .arowv a => Sys2Proof.Machine.execArowv a s
  | .avrow a => Sys2Proof.Machine.execAvrow a s
  | .ascale a => Sys2Proof.Machine.execAscale a s
  | .tset a => Sys2Proof.Machine.execTset a s
  | .tget a => Sys2Proof.Machine.execTget a s
  | .tadv a => Sys2Proof.Machine.execTadv a s
  | .tshape a => Sys2Proof.Machine.execTshape a s
  | .mwait a => Sys2Proof.Machine.execMwait a s
  | .mstat a => Sys2Proof.Machine.execMstat a s
  | .mchol a => Sys2Proof.Machine.execMchol a s
  | .mtrsl a => Sys2Proof.Machine.execMtrsl a s
  | .mtrsu a => Sys2Proof.Machine.execMtrsu a s
  | .mrfn a => Sys2Proof.Machine.execMrfn a s
  | .madd a => Sys2Proof.Machine.execMadd a s
  | .msub a => Sys2Proof.Machine.execMsub a s
  | .mmul a => Sys2Proof.Machine.execMmul a s
  | .mscl a => Sys2Proof.Machine.execMscl a s
  | .maff a => Sys2Proof.Machine.execMaff a s
  | .mneg a => Sys2Proof.Machine.execMneg a s
  | .mrelu a => Sys2Proof.Machine.execMrelu a s
  | .mexp a => Sys2Proof.Machine.execMexp a s
  | .msig a => Sys2Proof.Machine.execMsig a s
  | .msqr a => Sys2Proof.Machine.execMsqr a s
  | .mmk a => Sys2Proof.Machine.execMmk a s
  | .mmean a => Sys2Proof.Machine.execMmean a s
  | .mvar a => Sys2Proof.Machine.execMvar a s
  | .mcol a => Sys2Proof.Machine.execMcol a s
  | .msum a => Sys2Proof.Machine.execMsum a s
  | .mchk a => Sys2Proof.Machine.execMchk a s
  | .mmam a => Sys2Proof.Machine.execMmam a s
  | .mastm a => Sys2Proof.Machine.execMastm a s
  | .maldm a => Sys2Proof.Machine.execMaldm a s
  | .spawn a => Sys2Proof.Machine.execSpawn a s
  | .spawna a => Sys2Proof.Machine.execSpawna a s
  | .spawnf a => Sys2Proof.Machine.execSpawnf a s
  | .sync => Sys2Proof.Machine.execSync s
  | .syncq a => Sys2Proof.Machine.execSyncq a s
  | .syncc a => Sys2Proof.Machine.execSyncc a s
  | .falloc a => Sys2Proof.Machine.execFalloc a s
  | .ffree a => Sys2Proof.Machine.execFfree a s
  | .jinit a => Sys2Proof.Machine.execJinit a s
  | .jadd a => Sys2Proof.Machine.execJadd a s
  | .pub a => Sys2Proof.Machine.execPub a s
  | .tname a => Sys2Proof.Machine.execTname a s
  | .tdrop a => Sys2Proof.Machine.execTdrop a s
  | .tend => Sys2Proof.Machine.execTend s
  | .tabort a => Sys2Proof.Machine.execTabort a s
  | .rlaunch a => Sys2Proof.Machine.execRlaunch a s
  | .rwait a => Sys2Proof.Machine.execRwait a s
  | .rquery a => Sys2Proof.Machine.execRquery a s
  | .gbar a => Sys2Proof.Machine.execGbar a s
  | .gbara a => Sys2Proof.Machine.execGbara a s
  | .gbarw a => Sys2Proof.Machine.execGbarw a s
  | .grank a => Sys2Proof.Machine.execGrank a s
  | .gsize a => Sys2Proof.Machine.execGsize a s
  | .gangBarrierWake pkg rcb => Sys2Proof.Machine.execGangBarrierWake pkg rcb s
  | .donate a => Sys2Proof.Machine.execDonate a s
  | .aadd a => Sys2Proof.Machine.execAadd a s
  | .aand a => Sys2Proof.Machine.execAand a s
  | .aor a => Sys2Proof.Machine.execAor a s
  | .axor a => Sys2Proof.Machine.execAxor a s
  | .amin a => Sys2Proof.Machine.execAmin a s
  | .amax a => Sys2Proof.Machine.execAmax a s
  | .aswp a => Sys2Proof.Machine.execAswp a s
  | .acas a => Sys2Proof.Machine.execAcas a s
  | .acas2 a => Sys2Proof.Machine.execAcas2 a s
  | .abinc a => Sys2Proof.Machine.execAbinc a s
  | .abdec a => Sys2Proof.Machine.execAbdec a s
  | .afadd a => Sys2Proof.Machine.execAfadd a s
  | .amadd a => Sys2Proof.Machine.execAmadd a s
  | .fence a => Sys2Proof.Machine.execFence a s
  | .fencee a => Sys2Proof.Machine.execFencee a s
  | .flush a => Sys2Proof.Machine.execFlush a s
  | .inval a => Sys2Proof.Machine.execInval a s
  | .pref a => Sys2Proof.Machine.execPref a s
  | .tbmc => Sys2Proof.Machine.execTbmc s
  | .binit a => Sys2Proof.Machine.execBinit a s
  | .barr a => Sys2Proof.Machine.execBarr a s
  | .bwait a => Sys2Proof.Machine.execBwait a s
  | .bexp a => Sys2Proof.Machine.execBexp a s
  | .btest a => Sys2Proof.Machine.execBtest a s
  | .barrierWake object => Sys2Proof.Machine.execBarrierWake object s
  | .copy a => Sys2Proof.Machine.execCopy a s
  | .ctset a => Sys2Proof.Machine.execCtset a s
  | .cwm a => Sys2Proof.Machine.execCwm a s
  | .cwait a => Sys2Proof.Machine.execCwait a s
  | .tfpin a => Sys2Proof.Machine.execTfpin a s
  | .tfrel a => Sys2Proof.Machine.execTfrel a s
  | .eret => Sys2Proof.Machine.execEret s
  | .halt => Sys2Proof.Machine.execHalt s
  | .repart a => Sys2Proof.Machine.execRepart a s
  | .ctxsave a => Sys2Proof.Machine.execCtxsave a s
  | .ctxload a => Sys2Proof.Machine.execCtxload a s
  | .purge a => Sys2Proof.Machine.execPurge a s
  | .tlbinv a => Sys2Proof.Machine.execTlbinv a s
  | .packageReset pkg => Sys2Proof.Machine.execPackageReset pkg s
  | .powerOnBoot pkg images => Sys2Proof.Machine.execPowerOnBoot pkg images s
  | .loadReply ctx => Sys2Proof.Machine.execLoadReply ctx s
  | .storePerform ctx => Sys2Proof.Machine.execStorePerform ctx s
  | .pageWalk hall => Sys2Proof.Machine.execPageWalk hall s
  | .homeRecall hall key line => Sys2Proof.Machine.execHomeRecall hall key line s
  | .lineEviction level unit key line => Sys2Proof.Machine.execLineEviction level unit key line s
  | .networkMessageDelivery arcade => Sys2Proof.Machine.execNetworkMessageDelivery arcade s
  | .matrixStart stall => Sys2Proof.Machine.execMatrixStart stall s
  | .matrixComplete stall => Sys2Proof.Machine.execMatrixComplete stall s
  | .bankTransferComplete stall => Sys2Proof.Machine.execBankTransferComplete stall s
  | .pairClearDone stall pair => Sys2Proof.Machine.execPairClearDone stall pair s
  | .huntRound ctx => Sys2Proof.Machine.execHuntRound ctx s
  | .take victim thief => Sys2Proof.Machine.execTake victim thief s
  | .stealReply thief => Sys2Proof.Machine.execStealReply thief s
  | .tileMoveComplete thief => Sys2Proof.Machine.execTileMoveComplete thief s
  | .thiefReoffer thief => Sys2Proof.Machine.execThiefReoffer thief s
  | .counterReoffer arcade => Sys2Proof.Machine.execCounterReoffer arcade s
  | .jinc counter => Sys2Proof.Machine.execJinc counter s
  | .jdec counter => Sys2Proof.Machine.execJdec counter s
  | .jdead counter => Sys2Proof.Machine.execJdead counter s
  | .jaddn counter n => Sys2Proof.Machine.execJaddn counter n s
  | .jsus counter => Sys2Proof.Machine.execJsus counter s
  | .jcall counter => Sys2Proof.Machine.execJcall counter s
  | .jcas counter => Sys2Proof.Machine.execJcas counter s
  | .jmark counter => Sys2Proof.Machine.execJmark counter s
  | .resumeContinuation ctx => Sys2Proof.Machine.execResumeContinuation ctx s
  | .taskDeath ctx => Sys2Proof.Machine.execTaskDeath ctx s
  | .discard pkg tag => Sys2Proof.Machine.execDiscard pkg tag s
  | .preemptionRequest ctx source deadline => Sys2Proof.Machine.execPreemptionRequest ctx source deadline s
  | .preemptDeadline ctx => Sys2Proof.Machine.execPreemptDeadline ctx s
  | .evict ctx => Sys2Proof.Machine.execEvict ctx s
  | .resumeEvicted ctx => Sys2Proof.Machine.execResumeEvicted ctx s
  | .waitlistExamine pkg => Sys2Proof.Machine.execWaitlistExamine pkg s
  | .imageLoaded pkg rcb => Sys2Proof.Machine.execImageLoaded pkg rcb s
  | .rootRelease pkg rcb => Sys2Proof.Machine.execRootRelease pkg rcb s
  | .regionEnd pkg rcb => Sys2Proof.Machine.execRegionEnd pkg rcb s
  | .doorbell pkg queue wpos => Sys2Proof.Machine.execDoorbell pkg queue wpos s
  | .queueRestart pkg queue => Sys2Proof.Machine.execQueueRestart pkg queue s
  | .distributorSelect pkg => Sys2Proof.Machine.execDistributorSelect pkg s
  | .nopPacket pkg queue => Sys2Proof.Machine.execNopPacket pkg queue s
  | .launch pkg queue => Sys2Proof.Machine.execLaunch pkg queue s
  | .signal pkg queue => Sys2Proof.Machine.execSignal pkg queue s
  | .wait pkg queue => Sys2Proof.Machine.execWait pkg queue s
  | .indirect pkg queue => Sys2Proof.Machine.execIndirect pkg queue s
  | .link pkg queue => Sys2Proof.Machine.execLink pkg queue s
  | .barrier pkg queue => Sys2Proof.Machine.execBarrier pkg queue s
  | .badpkt pkg queue => Sys2Proof.Machine.execBadpkt pkg queue s
  | .transferComplete arcade channel => Sys2Proof.Machine.execTransferComplete arcade channel s
  | .followOnHandoff arcade => Sys2Proof.Machine.execFollowOnHandoff arcade s
  | .crossTrigger stall stop => Sys2Proof.Machine.execCrossTrigger stall stop s
  | .inspectorHalt arcade stalls => Sys2Proof.Machine.execInspectorHalt arcade stalls s
  | .inspectorResume arcade stalls => Sys2Proof.Machine.execInspectorResume arcade stalls s
  | .inspectorStep arcade => Sys2Proof.Machine.execInspectorStep arcade s
  | .idataRead arcade => Sys2Proof.Machine.execIdataRead arcade s
  | .idataWrite arcade value => Sys2Proof.Machine.execIdataWrite arcade value s
  | .idignReset arcade => Sys2Proof.Machine.execIdignReset arcade s
  | .hscarveWrite hall k value => Sys2Proof.Machine.execHscarveWrite hall k value s
  | .crateWrite hall cls value => Sys2Proof.Machine.execCrateWrite hall cls value s
  | .registerWrite pkg offset value => Sys2Proof.Machine.execRegisterWrite pkg offset value s
  | .fragmentHop packet => Sys2Proof.Machine.execFragmentHop packet s
  | .fragmentArrival packet => Sys2Proof.Machine.execFragmentArrival packet s
  | .slotTimeout hall slot => Sys2Proof.Machine.execSlotTimeout hall slot s
  | .messagePerform stream => Sys2Proof.Machine.execMessagePerform stream s
  | .sack stream => Sys2Proof.Machine.execSack stream s
  | .sackReceive stream base bits => Sys2Proof.Machine.execSackReceive stream base bits s
  | .ack stream seq => Sys2Proof.Machine.execAck stream seq s
  | .retxTimeout stream seq => Sys2Proof.Machine.execRetxTimeout stream seq s
  | .skip stream seq => Sys2Proof.Machine.execSkip stream seq s
  | .laneFailure pkg port lanes => Sys2Proof.Machine.execLaneFailure pkg port lanes s
  | .retrainDone pkg port => Sys2Proof.Machine.execRetrainDone pkg port s
  | .keyInstall pkg port key => Sys2Proof.Machine.execKeyInstall pkg port key s
  | .donreq pkg request => Sys2Proof.Machine.execDonreq pkg request s
  | .barrowTake thief => Sys2Proof.Machine.execBarrowTake thief s
  | .remoteCounterOp counter dead => Sys2Proof.Machine.execRemoteCounterOp counter dead s
  | .attest pkg nonce => Sys2Proof.Machine.execAttest pkg nonce s
  | .keyload pkg id wrapped => Sys2Proof.Machine.execKeyload pkg id wrapped s
  | .keyevict pkg id => Sys2Proof.Machine.execKeyevict pkg id s
  | .slice pkg descriptor => Sys2Proof.Machine.execSlice pkg descriptor s
  | .pwrcap pkg watts => Sys2Proof.Machine.execPwrcap pkg watts s
  | .events pkg => Sys2Proof.Machine.execEvents pkg s
  | .slicePrepare pkg slid => Sys2Proof.Machine.execSlicePrepare pkg slid s
  | .sliceAnswer pkg slid sender ready => Sys2Proof.Machine.execSliceAnswer pkg slid sender ready s
  | .sliceAbort pkg slid => Sys2Proof.Machine.execSliceAbort pkg slid s
  | .sliceTstart pkg slid => Sys2Proof.Machine.execSliceTstart pkg slid s
  | .sliceGraceExpiry pkg slid => Sys2Proof.Machine.execSliceGraceExpiry pkg slid s
  | .sliceReport pkg slid sender evicted => Sys2Proof.Machine.execSliceReport pkg slid sender evicted s
  | .sliceStart pkg slid => Sys2Proof.Machine.execSliceStart pkg slid s
  | .sliceAbandon pkg slid => Sys2Proof.Machine.execSliceAbandon pkg slid s
  | .sliceNoAnswer pkg slid sender => Sys2Proof.Machine.execSliceNoAnswer pkg slid sender s
  | .hostSnoop pkg line => Sys2Proof.Machine.execHostSnoop pkg line s
  | .carterBeat arcade => Sys2Proof.Machine.execCarterBeat arcade s
  | .hscarveDone hall k => Sys2Proof.Machine.execHscarveDone hall k s
  | .timeSync pkg delta => Sys2Proof.Machine.execTimeSync pkg delta s
  | .hdmAccess pkg offset op => Sys2Proof.Machine.execHdmAccess pkg offset op s

end Sys2Proof.Machine
end

