-- ==== Sys2Proof/Machine/Step.lean ====
section
/-! DEFINITION. One step of the machine: the turn the schedule asks for, else an event that is due or the next ready context. -/

namespace Sys2Proof.Machine

noncomputable section

/-- The context of `s.cur` issues: its instruction is fetched, decoded and executed. -/
def issueDecoded (s : State) : Host.Outcome State Fault Refusal :=
  match fetch s with
  | .error e => finish s (.error e)
  | .ok (s1, .error e) => .next (s1.trap s1.cur (decodeTrap e))
  | .ok (s1, .ok r) =>
    match decodeRaw r with
    | .error e => .next (s1.trap s1.cur (decodeTrap e))
    | .ok i => exec i (beginIssue s1 r)

/-- The context of a turn has issued its instruction: it neither waits at issue nor for a walk or a line, after which it issues again,
nor for its message to arrive where it acts, nor has it a JSUS to make. -/
def hasIssued (t : State) (c : Nat) : Bool :=
  !(t.ctx c).waited && (t.ctx c).saved.isNone && match (t.ctx c).wait with
    | .walk => false
    | .line _ _ _ => false
    | .slot _ _ => false
    | .hostRead => false
    | .visit => false
    | _ => true

/-- A turn is over. A STEP of the Inspector is done when its instruction has issued, and the context halts again, after a trap at the
handler (R396); an instruction that acted elsewhere is done, and its context halts if its stall has halted meanwhile (R391). -/
def endTurn (midway : Bool) (c : Nat) (o : Host.Outcome State Fault Refusal) : Host.Outcome State Fault Refusal :=
  match o with
  | .next t =>
    if !hasIssued t c then o
    else if (t.ctx c).stepping then
      .next (haltContext (dropVisits (t.updCtx c (fun v => { v with stepping := false })) (.issue c)) c)
    else if midway then
      let u := dropVisits t (.issue c)
      .next (if (u.ctx c).st == .run && isHalted u c then u.updCtx c (fun v => { v with st := .halt, back := .run }) else u)
    else o
  | _ => o

/-- A turn of context `c`. A context that is not ready issues nothing. An instruction that acts elsewhere has passed its boundary. -/
def issueOn (c : Nat) (s : State) : Host.Outcome State Fault Refusal :=
  if ctxLimit ≤ c then .fault .noSuchUnit
  else if !canIssue s c then .next s
  else if (s.ctx c).preemptDue && !isMidway s c then .next (takePreempt { s with cur := c } c)
  else if (s.ctx c).stepping || isMidway s c then endTurn (isMidway s c) c (issueDecoded { s with cur := c })
  else issueDecoded { s with cur := c }

/-- A context is ready (R209): it can issue, and its instruction would not wait at issue for a resource, such as a slot in a class queue
(R166). -/
def isReady (s : State) (c : Nat) : Bool :=
  canIssue s c && match issueOn c (s.updCtx c (fun v => { v with waited := false })) with
    | .next t => !(t.ctx c).waited
    | _ => true

/-- The contexts that issue next (R210): those that are ready; where none is, one that waits at issue asks again for what it waits for. -/
def nextReady (s : State) : Option (Nat × List Nat × State) :=
  match nextIssue (isReady s) s with
  | some x => some x
  | none => nextIssue (canIssue s) s

/-- The Inspector steps context `c` (R396): it leaves HALT until one instruction has issued. -/
def stepHalted (c : Nat) (s : State) : Host.Outcome State Fault Refusal :=
  if (s.ctx c).st != .halt then .next s
  else issueOn c ((resumeContext s c).updCtx c (fun v => { v with stepping := true }))

/-- One step (log entry 4): the first turn of the schedule; without one, the oldest due event in every other step or when no
context is ready, else the contexts that the next ports select. -/
def step (s : State) : Host.Outcome State Fault Refusal :=
  let t := { s with tick := s.tick + 1 }
  match t.sched with
  | .event e :: r => exec e.instr { t with sched := r }
  | .issue c :: r => issueOn c { t with sched := r }
  | .step c :: r => stepHalted c { t with sched := r }
  | [] =>
    match t.due, nextReady t with
    | e :: r, none => exec e.instr { t with due := r }
    | [], none => .next t
    | [], some (c, l, u) => issueOn c { u with sched := l.map .issue }
    | e :: r, some (c, l, u) => if t.tick % 2 = 0 then exec e.instr { t with due := r } else issueOn c { u with sched := l.map .issue }

end

/-- `s` with an instruction of spec/opcode_table.json at the PC of context 0, which runs next in supervisor mode. It stands for
the load and launch of a program (log entry 3): the words lie in the TCM of stall 0, the PC names them in the TCM window. -/
def State.withFetchWord (s : State) (nbits w : Nat) : State :=
  let bytes := (tableWords nbits w).flatMap (fun x => leBytes 2 x.toNat)
  let s1 := putBytes s (tcmBase 0) bytes
  let s2 := s1.updCtx 0 (fun v =>
    { v with st := .run, halted := false, stepping := false, saved := none, dying := none, request := none, also := [], pl := true,
             pc := BitVec.ofNat 57 tcmWindow, walked := [], missed := none, wait := .none, stuck := 0 })
  let s3 := s2.updStall 0 (fun k => { k with texts := [], halted := false })
  { s3 with sched := .issue 0 :: s3.sched }

end Sys2Proof.Machine
end

