-- ==== Sys2Proof/Safety.lean ====
section
/-! DEFINITION. The terms that claims use: which operands a context can read, and what a step of one shape may change. Each shape
names the registers written and says that everything else, every byte of memory included, is as before. -/

namespace Sys2Proof.Machine

/-! Operands. -/

/-- A G operand, present or not, lies in the window of the running context (R14). -/
def State.reads (s : State) (r : GReg) : Bool := s.me.okG 1 r
def State.readsZ (s : State) (z : Option GReg) : Bool := z.all (s.me.okG 1)
/-- A V operand, present or not, lies in the vector window (R19). -/
def State.readsV (s : State) (i : Idx) : Bool := decide (i.val < s.me.vsize)
def State.readsVZ (s : State) (z : Option Idx) : Bool := z.all (fun i => decide (i.val < s.me.vsize))

/-- Registers that an instruction names: `n` of class G from one on (R14, R115, R319), one of V or M (R19), P (R21), T (R22) or A (R23). -/
inductive Named
  | g (r : GReg) (n : Nat)
  | v (i : Idx)
  | p (i : Idx)
  | t (i : Idx)
  | a (i : Idx)
  deriving DecidableEq, Repr
/-- They lie in their class and window. -/
def State.holds (s : State) : Named → Bool
  | .g r n => s.me.okG n r
  | .v i => decide (i.val < s.me.vsize)
  | .p i => decide (i.val < 8)
  | .t i => decide (i.val < 8)
  | .a i => decide (i.val < 2) && (s.held s.cur).isSome
/-- What REGLIM says of those that do not, in its index and class fields: of several registers of class G the first beyond the window. -/
def State.beyond (s : State) : Named → Nat
  | .g r _ => match r with
    | .g i => max i.val s.me.gsize % 128
    | _ => 0
  | .v i => i.val + 4096
  | .p i => i.val + 2 * 4096
  | .t i => i.val + 3 * 4096
  | .a i => i.val + 4 * 4096
/-- The sources of `OP X, Y` are X and Y, of `OP X, Y, Z` Y and Z (R95). -/
def State.first (s : State) (a : GBin) : Word := if a.z.isSome then s.g a.y else s.g a.x
def State.second (s : State) (a : GBin) : Word := s.g (a.z.getD a.y)

/-- The entry of the main file that a destination names; none for `g0`, whose writes are discarded (R14). -/
def State.windowEntry (s : State) (x : GReg) : Option Nat :=
  match x with
  | .g i => if i.val = 0 then none else some (gEntry s.cur s.me i.val)
  | _ => none
/-- The entry of the operand file that a destination names. -/
def operandEntry (x : GReg) : Option Nat :=
  match x with
  | .o i => some i.val
  | _ => none

/-! Conditions on the state alone. -/

/-- `n` bytes at an address lie in the own TCM, seen through its window (R29). -/
def State.inTcm (s : State) (va n : Nat) : Prop := s.cur < ctxLimit ∧ tcmWindow ≤ va ∧ va + n ≤ tcmWindow + 2 ^ 18
/-- Where the window puts such an address. -/
def State.tcmPlace (s : State) (va : Nat) : Place := ⟨tcmBase (ctxStall s.cur) + (va - tcmWindow), false, false, 0, 1⟩
/-- None of `n` bytes there is marked in error (R364). -/
def State.intact (s : State) (va n : Nat) : Prop := ∀ i, i < n → Store.get false s.poison ((s.tcmPlace va).pa + i) = false

/-- A release at the scope can be made at once: no issued store waits for a Carter (R348), and at `.sy` no posted store is out, no host
write waits for its read (R441), and with `report` no lost store is to be reported (R421). -/
def State.canRelease (s : State) (report : Bool) (sc : Option Scope) : Prop := ∀ q, sc = some q →
  storeHeldBy (drain s s.cur) s.cur = none ∧ (q = .sy → (drain s s.cur).me.posted = 0 ∧
    (drain s s.cur).me.owesHost = false ∧ (report = true → (drain s s.cur).me.lost = 0))
/-- The state after that release; with engine order the package's visitor copies are older than what follows (R316). -/
def State.released (s : State) (eng : Bool) (sc : Option Scope) : State :=
  match sc with
  | some q => releaseAt (drain s s.cur) s.cur q eng
  | none => s
/-- The state in which an instruction with an ORD acts in arcade `ak`: its release made, with the engine order ORD asks for; without one,
what an earlier release covers is visible at ORD's scope (R304, R312, R316). -/
def State.sends (s : State) (rel : Option Scope) (ord : Option OrdQ) (ak : Nat) (t : State) : Prop :=
  match rel with
  | some _ => s.canRelease false rel ∧ t = s.released (engineOf ord) rel
  | none => coverFor s ak ord = .ok t

/-- An address names a counter of the own arcade through the scratchpad window, and no store waits before it (R29, R224). -/
def State.ownCounter (s : State) (va : Nat) : Prop :=
  s.cur < ctxLimit ∧ s.me.storeQ = [] ∧ scratchWindow ≤ va ∧ va < scratchWindow + 2 ^ 16 ∧ va % 8 = 0
/-- Where it lies. -/
def State.counterPlace (s : State) (va : Nat) : Nat := scratchBase (ctxArcade s.cur) + (va - scratchWindow)
/-- The counter that an instruction names is reached at `pa` in the state `t`: its checks pass and its message, where one is needed, has
been delivered; or it is a counter of the own arcade (R224, R227). -/
def State.reaches (s : State) (writes : Bool) (va : Nat) (t : State) (pa : Nat) : Prop :=
  (∃ s1, locateCounter translate s writes (!s.me.pl) va = .ok (s1, pa) ∧ atCounter (.issue s.cur) s1 s.cur pa = .ok t) ∨
  (s.ownCounter va ∧ t = s ∧ pa = s.counterPlace va)

/-- An address names a barrier object in the software range of the own scratchpad, through its window, and no store waits before it
(R29, R340). -/
def State.ownObject (s : State) (va : Nat) : Prop :=
  s.cur < ctxLimit ∧ s.me.storeQ = [] ∧ scratchWindow + 2 ^ 17 ≤ va ∧ va < scratchWindow + 2 ^ 21 ∧ va % 16 = 0

/-- An operation of context `c` on the counter at `pa` has been made: its message, where one is needed, has been delivered; or the counter is
of its own arcade (R224, R227). -/
def counts (s : State) (c pa : Nat) (op : CounterOp) (t : State) (r : CounterResult) : Prop :=
  contextOp s c pa op = .ok (t, r) ∨ (counterArcade pa = ctxArcade c ∧ (t, r) = counterOp s pa op)

/-! Shapes. -/

/-- The instruction wrote `w` to the G register X and to `lat`, raised the flags `f` and went on; nothing else changed. -/
structure RegisterStep (s t : State) (x : GReg) (w : Word) (f : FlagSet) : Prop where
  /-- only contexts and the main file differ -/
  rest : t = { s with ctxs := t.ctxs, gfile := t.gfile }
  /-- every byte of memory reads as before -/
  bytes : ∀ key a, homeByte t key a = homeByte s key a
  /-- every other context is as before -/
  others : ∀ c, c ≠ s.cur → t.ctx c = s.ctx c
  /-- the context has `w` in `lat`, the flags added, the PC at the next instruction, and its operand file as `operands` says -/
  own : t.me = { s.me with o := t.me.o, lat := w, flags := s.me.flags ||| f, pc := s.me.nextPc, walked := [], missed := none, saved := none }
  /-- X alone differs in the operand file -/
  operands : ∀ n, Store.get 0 t.me.o n = if operandEntry x = some n then w else Store.get 0 s.me.o n
  /-- X alone differs in the main file -/
  file : ∀ n, Store.get 0 t.gfile n = if s.windowEntry x = some n then w else Store.get 0 s.gfile n

/-- The instruction wrote `lo` to X and to `lat` and then `hi` to the register X' (R115, R172, R319), raised the flags `f` and went on;
nothing else changed. -/
structure PairStep (s t : State) (x x' : GReg) (lo hi : Word) (f : FlagSet) : Prop where
  rest : t = { s with ctxs := t.ctxs, gfile := t.gfile }
  bytes : ∀ key a, homeByte t key a = homeByte s key a
  others : ∀ c, c ≠ s.cur → t.ctx c = s.ctx c
  own : t.me = { s.me with o := t.me.o, lat := lo, flags := s.me.flags ||| f, pc := s.me.nextPc, walked := [], missed := none, saved := none }
  operands : ∀ n, Store.get 0 t.me.o n =
    if operandEntry x' = some n then hi else if operandEntry x = some n then lo else Store.get 0 s.me.o n
  file : ∀ n, Store.get 0 t.gfile n =
    if s.windowEntry x' = some n then hi else if s.windowEntry x = some n then lo else Store.get 0 s.gfile n

/-- A store issued: it joined the context's queue of issued stores, its TBM bit is set, and its performance is due; no byte of memory
changed yet, and nothing else did. -/
structure StoreIssued (s t : State) (q : QStore) : Prop where
  rest : t = { s with ctxs := t.ctxs, due := s.due ++ [.storePerform s.cur] }
  bytes : ∀ key a, homeByte t key a = homeByte s key a
  others : ∀ c, c ≠ s.cur → t.ctx c = s.ctx c
  own : t.me = { s.me with
    storeQ := s.me.storeQ ++ [q], tbm := s.me.tbm ||| tbmBit s.cur q.place, pc := s.me.nextPc, walked := [], missed := none, saved := none }

/-- The instruction wrote `w` to vector register X, raised the flags `f` and went on; nothing else changed. -/
structure VectorStep (s t : State) (x : Idx) (w : VWord) (f : FlagSet) : Prop where
  rest : t = { s with ctxs := t.ctxs, vfile := t.vfile }
  bytes : ∀ key a, homeByte t key a = homeByte s key a
  others : ∀ c, c ≠ s.cur → t.ctx c = s.ctx c
  own : t.me = { s.me with flags := s.me.flags ||| f, pc := s.me.nextPc, walked := [], missed := none, saved := none }
  file : ∀ n, Store.get 0 t.vfile n = if n = vEntry s.cur s.me x.val then w else Store.get 0 s.vfile n

/-- The elements of width `w` of vector register X became `f i` where `act i` holds and stayed as they were elsewhere (R134); the flags
of the active elements and `extra` are raised; nothing else changed. -/
def ElementStep (s t : State) (x : Idx) (w n : Nat) (act : Nat → Bool) (f : Nat → Flagged Nat) (extra : FlagSet) : Prop :=
  ∃ r, VectorStep s t x r
      ((List.range n).foldl (fun g i => g ||| (if act i then (f i).flags else 0)) 0 ||| extra) ∧
    ∀ i, i < n → elem w r i = if act i then (f i).val % 2 ^ w else elem w (s.v x) i

/-- The instruction wrote `w` to predicate register X and went on; nothing else changed. -/
structure PredicateStep (s t : State) (x : Idx) (w : Word128) : Prop where
  rest : t = { s with ctxs := t.ctxs }
  bytes : ∀ key a, homeByte t key a = homeByte s key a
  others : ∀ c, c ≠ s.cur → t.ctx c = s.ctx c
  own : t.me = { s.me with p := t.me.p, pc := s.me.nextPc, walked := [], missed := none, saved := none }
  file : ∀ n, t.me.pred n = if n = x.val then w else s.me.pred n

/-- The instruction wrote `w` to tile register X and went on; nothing else changed. -/
structure TileStep (s t : State) (x : Idx) (w : Word128) : Prop where
  rest : t = { s with ctxs := t.ctxs }
  bytes : ∀ key a, homeByte t key a = homeByte s key a
  others : ∀ c, c ≠ s.cur → t.ctx c = s.ctx c
  own : t.me = { s.me with t := t.me.t, pc := s.me.nextPc, walked := [], missed := none, saved := none }
  file : ∀ n, t.me.tile n = if n = x.val then w else s.me.tile n

/-- Only the record of the running context changed, and became `v`. -/
structure ContextStep (s t : State) (v : Ctx) : Prop where
  rest : t = { s with ctxs := t.ctxs }
  bytes : ∀ key a, homeByte t key a = homeByte s key a
  others : ∀ c, c ≠ s.cur → t.ctx c = s.ctx c
  own : t.me = v

/-- The running context took a trap (R359): EPC, ECAUSE, EINFO and EVA are written, PPL takes PL, PL and INTRAP become 1, and the PC
is TVEC; nothing else changed. -/
def TrapStep (s t : State) (cause einfo eva : Nat) : Prop :=
  ContextStep s t { s.me with
    epc := BitVec.zeroExtend 64 s.me.pc, ecause := BitVec.ofNat 64 cause, einfo := BitVec.ofNat 64 einfo,
    eva := BitVec.ofNat 64 eva, ppl := s.me.pl, pl := true, intrap := true, pc := BitVec.truncate 57 s.me.tvec,
    walked := [], missed := none, saved := none }

/-- An instruction that names these registers as its operands (0 X, 1 Y, 2 Z) takes REGLIM for the first that lies beyond its class or
window (R36). -/
def State.limits (s : State) (i : Instr) (ops : List (Nat × Named)) : Prop :=
  ∀ (before : List (Nat × Named)) (op : Nat × Named) (after : List (Nat × Named)), ops = before ++ op :: after →
    (∀ q ∈ before, s.holds q.2 = true) → s.holds op.2 = false →
    ∃ t, exec i s = .next t ∧ TrapStep s t 0x03 (s.beyond op.2 + 256 * op.1) 0

/-- The running context went on to the next instruction; nothing else changed. -/
def NextStep (s t : State) : Prop := ContextStep s t { s.me with pc := s.me.nextPc, walked := [], missed := none, saved := none }

/-- An instruction that reads the counter at `pa` completed with `w`: written to X and `lat` at once where the counter lies in the own
arcade; from another it comes with the reply that the context waits for (R227, R393). -/
def ReplyStep (s t : State) (pa : Nat) (x : GReg) (w : Word) : Prop :=
  if counterArcade pa = ctxArcade s.cur then RegisterStep s t x w 0
  else (∃ n v, s.me.wait = .answer n v ∧ ContextStep s t { s.me with
      wait := .answer n (some (x, w)), pc := s.me.nextPc, walked := [], missed := none, saved := none }) ∨
    ((∀ n v, s.me.wait ≠ .answer n v) ∧ RegisterStep s t x w 0)

/-- The instruction raised the flags `f` and went on; its stall became `k` and the events `es` became due; nothing else changed. -/
structure StallStep (s t : State) (k : Stall) (es : List Event) (f : FlagSet) : Prop where
  rest : t = { s with ctxs := t.ctxs, stalls := t.stalls, due := s.due ++ es }
  bytes : ∀ key a, homeByte t key a = homeByte s key a
  others : ∀ c, c ≠ s.cur → t.ctx c = s.ctx c
  own : t.me = { s.me with flags := s.me.flags ||| f, pc := s.me.nextPc, walked := [], missed := none, saved := none }
  stalls : ∀ j, j ≠ ctxStall s.cur → t.stall j = s.stall j
  stall : t.stall (ctxStall s.cur) = k

/-- The cells of every bank of a stall but those of the banks named are as in another. -/
def keepsBanks (k k' : Stall) (bs : List (Nat × Nat)) : Prop :=
  ∀ q bank i, bs.contains (q, bank) = false → bank < 2 → i < 4096 → (bankCells k' q bank).getD i 0 = (bankCells k q bank).getD i 0

/-- A tile that lies in the own TCM seen through its window (SPACE 2), row by row, aligned, with no scales (R154, R156). -/
def Tile.plainTcm (t : Tile) : Prop := t.space = 2 ∧ t.spaceOk = true ∧ t.dir = false ∧ t.smode = 0 ∧ t.base % t.size = 0

/-- The command joined its class queue behind the stores already issued, with what its reads would find now, and the unit's start became
due; a solver holds its context until it completes; nothing else changed (R166, R167, R175). -/
def CommandEntered (s u : State) (x : Cmd) (solver : Bool) : Prop :=
  ∃ v, StallStep s v
      (let y : Cmd := { x with early := snapshot s x }
       let k := s.myStall
       if x.high then { k with high := k.high ++ [y] } else { k with low := k.low ++ [y] }) [.matrixStart (ctxStall s.cur)] 0 ∧
    ContextStep v u (if solver then { v.me with wait := .solver } else v.me)

/-- A bank that BGATE and the windows gate now, that was not gated before, and that does not keep its contents (R216). -/
def losesPower (s : State) (k b : Nat) : Bool :=
  (s.stall k).bgate.getLsbD b && !bankCovered s k b && ((s.stall k).gated.lookup b).isNone && !(s.stall k).bgate.getLsbD 16

/-- The banks of stall `k` are powered as its BGATE and the windows ask for, after a write that left `s` (R216, R217): a bank that loses
its power without KEEP reads zero; nothing else differs. -/
structure Regated (s t : State) (k : Nat) : Prop where
  rest : t = { s with ctxs := t.ctxs, stalls := t.stalls, gfile := t.gfile, vfile := t.vfile }
  contexts : ∀ c, t.ctx c = s.ctx c
  others : ∀ j, j ≠ k → t.stall j = s.stall j
  own : t.stall k = { s.stall k with gated := (t.stall k).gated }
  gated : ∀ b, b < 16 → (t.stall k).gated.lookup b =
    if ((s.stall k).bgate.getLsbD b && !bankCovered s k b) = true then
      some (((s.stall k).gated.lookup b).getD ((s.stall k).bgate.getLsbD 16))
    else none
  gfile : ∀ n, Store.get 0 t.gfile n = if n / 2048 = k ∧ losesPower s k (n % 2048 / 256) = true then 0 else Store.get 0 s.gfile n
  vfile : ∀ n, Store.get 0 t.vfile n = if n / 1024 = k ∧ losesPower s k (8 + n % 1024 / 128) = true then 0 else Store.get 0 s.vfile n

/-! The memory's form. -/

/-- The invariant of every step: memory keeps its canonical form. -/
def State.memoryWf (s : State) : Prop := Memory.wf s.mem = true

end Sys2Proof.Machine
end

