-- ==== Sys2Proof/Certificates/Slice0/Obligations.lean ====
section
/-! DEFINITION. The statements for the provers. Each names the rules of the spec that it formalises; a list in a statement names the
instructions it is about, each with its result as the spec gives it. -/

open Sys2Proof Sys2Proof.Machine

/-- Every instruction of majors 0.0 to 0.2 completes with the value of Table 04-2 and sets no flag (R99). -/
def Obligations.basic_integer_results : Prop :=
  (∀ e ∈ ([
      (Instr.add, fun a b => BitVec.ofNat 64 (a.toNat + b.toNat)), (Instr.sub, fun a b => BitVec.ofInt 64 (a.toInt - b.toInt)),
      (Instr.and, fun a b => a &&& b), (Instr.or, fun a b => a ||| b), (Instr.xor, fun a b => a ^^^ b),
      (Instr.shl, fun a b => BitVec.ofNat 64 (a.toNat * 2 ^ (b.toNat % 64))),
      (Instr.shr, fun a b => BitVec.ofNat 64 (a.toNat / 2 ^ (b.toNat % 64))),
      (Instr.sra, fun a b => BitVec.ofInt 64 (a.toInt / 2 ^ (b.toNat % 64))),
      (Instr.mul, fun a b => BitVec.ofNat 64 (a.toNat * b.toNat)),
      (Instr.mulh, fun a b => BitVec.ofInt 64 (a.toInt * b.toInt / 2 ^ 64)),
      (Instr.mulhn, fun a b => BitVec.ofNat 64 (a.toNat * b.toNat / 2 ^ 64)),
      (Instr.min, fun a b => if a.slt b then a else b), (Instr.max, fun a b => if a.slt b then b else a),
      (Instr.minn, fun a b => if a.ult b then a else b), (Instr.maxn, fun a b => if a.ult b then b else a)] :
      List ((GBin → Instr) × (Word → Word → Word))),
    ∀ (a : GBin) (s : State), s.reads a.x = true → s.reads a.y = true → s.readsZ a.z = true →
      ∃ t, exec (e.1 a) s = .next t ∧ RegisterStep s t a.x (e.2 (s.first a) (s.second a)) 0) ∧
  (∀ e ∈ ([
      (Instr.not, fun a => BitVec.allOnes 64 ^^^ a), (Instr.mov, fun a => a),
      (Instr.sxw, fun a => (a.truncate 32).signExtend 64), (Instr.zxw, fun a => (a.truncate 32).zeroExtend 64),
      (Instr.sxb, fun a => (a.truncate 8).signExtend 64), (Instr.sxh, fun a => (a.truncate 16).signExtend 64),
      (Instr.clz, fun a => BitVec.ofNat 64 ((List.range 64).takeWhile (fun i => !a.getMsbD i)).length),
      (Instr.popc, fun a => BitVec.ofNat 64 ((List.range 64).filter (fun i => a.getLsbD i)).length),
      (Instr.rev, fun a => BitVec.ofNat 64 ((List.range 8).foldl (fun n i => n * 256 + a.toNat / 256 ^ i % 256) 0))] :
      List ((GUn → Instr) × (Word → Word))),
    ∀ (a : GUn) (s : State), s.reads a.x = true → s.reads a.y = true →
      ∃ t, exec (e.1 a) s = .next t ∧ RegisterStep s t a.x (e.2 (s.g a.y)) 0)

/-- Integer compares and TST write 1 or 0 to X (R104). -/
def Obligations.compare_results : Prop :=
  ∀ e ∈ ([
      (Instr.ceq, fun a b => decide (a.toNat = b.toNat)), (Instr.cne, fun a b => decide (a.toNat ≠ b.toNat)),
      (Instr.clt, fun a b => a.slt b), (Instr.cge, fun a b => !a.slt b),
      (Instr.cltn, fun a b => a.ult b), (Instr.cgen, fun a b => !a.ult b), (Instr.tst, fun a b => decide (a &&& b ≠ 0))] :
      List ((GBin → Instr) × (Word → Word → Bool))),
    ∀ (a : GBin) (s : State), s.reads a.x = true → s.reads a.y = true → s.readsZ a.z = true →
      ∃ t, exec (e.1 a) s = .next t ∧ RegisterStep s t a.x (if e.2 (s.first a) (s.second a) then 1 else 0) 0

/-- MOVI, ADDI, the immediate shifts, SELNZ, SELZ and the five LEA complete with their value (R102, R103, R105, R106). -/
def Obligations.immediate_select_and_address_results : Prop :=
  (∀ (a : GImm) (s : State), s.reads a.x = true →
    (∃ t, exec (.movi a) s = .next t ∧ RegisterStep s t a.x a.imm 0) ∧
    (∃ t, exec (.addi a) s = .next t ∧ RegisterStep s t a.x (s.g a.x + a.imm) 0)) ∧
  (∀ e ∈ ([
      (Instr.shli, fun a k => BitVec.ofNat 64 (a.toNat * 2 ^ k)), (Instr.shri, fun a k => BitVec.ofNat 64 (a.toNat / 2 ^ k)),
      (Instr.srai, fun a k => BitVec.ofInt 64 (a.toInt / 2 ^ k)),
      (Instr.rori, fun a k => (a >>> k) ||| (a <<< (64 - k)))] : List ((GShift → Instr) × (Word → Nat → Word))),
    ∀ (a : GShift) (s : State), s.reads a.x = true →
      ∃ t, exec (e.1 a) s = .next t ∧ RegisterStep s t a.x (e.2 (s.g a.x) a.amount.val) 0) ∧
  (∀ (a : GTri) (s : State), s.reads a.x = true → s.reads a.y = true → s.reads a.z = true →
    (∃ t, exec (.selnz a) s = .next t ∧ RegisterStep s t a.x (if s.g a.x = 0 then s.g a.z else s.g a.y) 0) ∧
    (∃ t, exec (.selz a) s = .next t ∧ RegisterStep s t a.x (if s.g a.x = 0 then s.g a.y else s.g a.z) 0)) ∧
  (∀ e ∈ ([(Instr.lea1, 1), (Instr.lea2, 2), (Instr.lea4, 4), (Instr.lea8, 8), (Instr.lea16, 16)] : List ((GLea → Instr) × Nat)),
    ∀ (a : GLea) (s : State), s.reads a.x = true → s.reads a.y = true → s.readsZ a.z = true →
      ∃ t, exec (e.1 a) s = .next t ∧
        RegisterStep s t a.x (BitVec.ofNat 64 ((s.first ⟨a.x, a.y, a.z⟩).toNat + (s.second ⟨a.x, a.y, a.z⟩).toNat * e.2 +
          a.imm.toNat)) 0)

/-- Division gives the quotient or remainder of R41, with DZ and OF in its special cases (R41, R100). -/
def Obligations.division_results : Prop :=
  ∀ e ∈ ([
      (Instr.div, true, fun a b => if b = 0 then BitVec.allOnes 64 else BitVec.ofInt 64 (Int.tdiv a.toInt b.toInt)),
      (Instr.divn, false, fun a b => if b = 0 then BitVec.allOnes 64 else BitVec.ofNat 64 (a.toNat / b.toNat)),
      (Instr.rem, true, fun a b => if b = 0 then a else BitVec.ofInt 64 (Int.tmod a.toInt b.toInt)),
      (Instr.remn, false, fun a b => if b = 0 then a else BitVec.ofNat 64 (a.toNat % b.toNat))] :
      List ((GBin → Instr) × Bool × (Word → Word → Word))),
    ∀ (a : GBin) (s : State), s.reads a.x = true → s.reads a.y = true → s.readsZ a.z = true →
      ∃ t, exec (e.1 a) s = .next t ∧ RegisterStep s t a.x (e.2.2 (s.first a) (s.second a))
        (if s.second a = 0 then flagDZ
         else if e.2.1 = true ∧ s.first a = BitVec.intMin 64 ∧ s.second a = BitVec.allOnes 64 then flagOF else 0)

/-- Major 1.1: BFX, BFXN, BFI, ROL, ROR and CTZ, with the field that the control value gives, bit by bit (R101). -/
def Obligations.bit_field_results : Prop :=
  (∀ (a : GBin) (s : State), s.reads a.x = true → s.reads a.y = true → s.readsZ a.z = true →
    let c := s.second a
    let pos := c.toNat % 64
    let wid := min (c.toNat / 256 % 64 + 1) (64 - pos)
    let ins := if a.z.isSome then s.g a.y else s.me.lat
    (∃ t w, exec (.bfx a) s = .next t ∧ RegisterStep s t a.x w 0 ∧
      ∀ i, i < 64 → w.getLsbD i = (s.first a).getLsbD (pos + if i < wid then i else wid - 1)) ∧
    (∃ t w, exec (.bfxn a) s = .next t ∧ RegisterStep s t a.x w 0 ∧
      ∀ i, i < 64 → w.getLsbD i = (decide (i < wid) && (s.first a).getLsbD (pos + i))) ∧
    (∃ t w, exec (.bfi a) s = .next t ∧ RegisterStep s t a.x w 0 ∧
      ∀ i, i < 64 → w.getLsbD i = if pos ≤ i ∧ i < pos + wid then ins.getLsbD (i - pos) else (s.g a.x).getLsbD i) ∧
    (∃ t, exec (.rol a) s = .next t ∧
      RegisterStep s t a.x ((s.first a <<< (c.toNat % 64)) ||| (s.first a >>> (64 - c.toNat % 64))) 0) ∧
    (∃ t, exec (.ror a) s = .next t ∧
      RegisterStep s t a.x ((s.first a >>> (c.toNat % 64)) ||| (s.first a <<< (64 - c.toNat % 64))) 0)) ∧
  (∀ (a : GUn) (s : State), s.reads a.x = true → s.reads a.y = true →
    ∃ t, exec (.ctz a) s = .next t ∧
      RegisterStep s t a.x (BitVec.ofNat 64 ((List.range 64).takeWhile (fun i => !(s.g a.y).getLsbD i)).length) 0)

/-- Scalar fp32 arithmetic rounds its exact result once into bits [31:0]; FMIN, FMAX, FABS and FNEG round nothing (R118, R119, R120, R121,
R47). -/
def Obligations.float_arithmetic_results : Prop :=
  (∀ e ∈ ([
      (Instr.fadd, fun m p q => fp32.finish m (FVal.add m p q)), (Instr.fsub, fun m p q => fp32.finish m (FVal.add m p q.neg)),
      (Instr.fmul, fun m p q => fp32.finish m (FVal.mul p q)), (Instr.fdiv, fun m p q => fp32.finish m (FVal.div p q)),
      (Instr.fmin, fun _ p q => ⟨FVal.min p q, 0⟩), (Instr.fmax, fun _ p q => ⟨FVal.max p q, 0⟩)] :
      List ((GBin → Instr) × (RMode → FVal → FVal → Flagged FVal))),
    ∀ (a : GBin) (s : State), s.reads a.x = true → s.reads a.y = true → s.readsZ a.z = true →
      let r := e.2 (RMode.ofBits (s.me.fmtw.toNat / 2 ^ 14 % 4)) (fp32.decode ((s.first a).toNat % 2 ^ 32))
        (fp32.decode ((s.second a).toNat % 2 ^ 32))
      ∃ t, exec (e.1 a) s = .next t ∧ RegisterStep s t a.x (BitVec.ofNat 64 (fp32.encode r.val)) r.flags) ∧
  (∀ e ∈ ([
      (Instr.fsqrt, fun m p => fp32.finish m (FVal.sqrt p)), (Instr.fabs, fun _ p => ⟨p.abs, 0⟩),
      (Instr.fneg, fun _ p => ⟨p.neg, 0⟩)] : List ((GUn → Instr) × (RMode → FVal → Flagged FVal))),
    ∀ (a : GUn) (s : State), s.reads a.x = true → s.reads a.y = true →
      let r := e.2 (RMode.ofBits (s.me.fmtw.toNat / 2 ^ 14 % 4)) (fp32.decode ((s.g a.y).toNat % 2 ^ 32))
      ∃ t, exec (e.1 a) s = .next t ∧ RegisterStep s t a.x (BitVec.ofNat 64 (fp32.encode r.val)) r.flags) ∧
  (∀ e ∈ ([
      (Instr.fma, fun x y z => (y, z, x)), (Instr.fms, fun x y z => (y, z, x.neg)), (Instr.fnma, fun x y z => (y.neg, z, x))] :
      List ((GTri → Instr) × (FVal → FVal → FVal → FVal × FVal × FVal))),
    ∀ (a : GTri) (s : State), s.reads a.x = true → s.reads a.y = true → s.reads a.z = true →
      let f (r : GReg) := fp32.decode ((s.g r).toNat % 2 ^ 32)
      let k := e.2 (f a.x) (f a.y) (f a.z)
      let m := RMode.ofBits (s.me.fmtw.toNat / 2 ^ 14 % 4)
      let r := fp32.finish m (FVal.fma m k.1 k.2.1 k.2.2)
      ∃ t, exec (e.1 a) s = .next t ∧ RegisterStep s t a.x (BitVec.ofNat 64 (fp32.encode r.val)) r.flags)

/-- Floating-point compares write 1 or 0 without a flag; conversions round once. That CVTFB and CVTFH of -0 keep its sign is the model's
choice (log entry 109) (R122, R123). -/
def Obligations.float_compare_and_conversion_results : Prop :=
  (∀ e ∈ ([
      (Instr.feq, fun p q => !p.isNan && !q.isNan && FVal.eq p q), (Instr.flt, fun p q => !p.isNan && !q.isNan && FVal.lt p q),
      (Instr.fle, fun p q => !p.isNan && !q.isNan && (FVal.lt p q || FVal.eq p q)), (Instr.funo, fun p q => p.isNan || q.isNan)] :
      List ((GBin → Instr) × (FVal → FVal → Bool))),
    ∀ (a : GBin) (s : State), s.reads a.x = true → s.reads a.y = true → s.readsZ a.z = true →
      let r := e.2 (fp32.decode ((s.first a).toNat % 2 ^ 32)) (fp32.decode ((s.second a).toNat % 2 ^ 32))
      ∃ t, exec (e.1 a) s = .next t ∧ RegisterStep s t a.x (if r then 1 else 0) 0) ∧
  (∀ e ∈ ([
      (Instr.cvtif, fun m (y : Word) => let r := fp32.roundVal m (FVal.ofInt y.toInt); ⟨BitVec.ofNat 64 (fp32.encode r.val), r.flags⟩),
      (Instr.cvtfi, fun m y => let r := convertToInt true 64 m (fp32.decode (y.toNat % 2 ^ 32)); ⟨BitVec.ofInt 64 r.val, r.flags⟩),
      (Instr.cvtfb, fun m y => let r := bf16.roundVal m (fp32.decode (y.toNat % 2 ^ 32)); ⟨BitVec.ofNat 64 (bf16.encode r.val), r.flags⟩),
      (Instr.cvtfh, fun m y => let r := fp16.roundVal m (fp32.decode (y.toNat % 2 ^ 32)); ⟨BitVec.ofNat 64 (fp16.encode r.val), r.flags⟩),
      (Instr.cvtbf, fun _ y => ⟨BitVec.ofNat 64 (fp32.encode (bf16.decode (y.toNat % 2 ^ 16))), 0⟩),
      (Instr.cvthf, fun _ y => ⟨BitVec.ofNat 64 (fp32.encode (fp16.decode (y.toNat % 2 ^ 16))), 0⟩)] :
      List ((GUn → Instr) × (RMode → Word → Flagged Word))),
    ∀ (a : GUn) (s : State), s.reads a.x = true → s.reads a.y = true →
      let r := e.2 (RMode.ofBits (s.me.fmtw.toNat / 2 ^ 14 % 4)) (s.g a.y)
      ∃ t, exec (e.1 a) s = .next t ∧ RegisterStep s t a.x r.val r.flags)

/-- Branches, jumps and calls go to A + 2*off or to the register target; CALL and CALLR link; bad register targets take ALIGN or
PAGE (R107, R108, R109, R110, R37). -/
def Obligations.control_transfers : Prop :=
  (∀ (a : GImm) (s : State), s.reads a.x = true →
    let dest : BitVec 57 := BitVec.ofInt 57 (s.me.pc.toInt + 2 * a.imm.toInt)
    (∃ t, exec (.bnz a) s = .next t ∧
      ContextStep s t { s.me with pc := if s.g a.x = 0 then s.me.nextPc else dest, walked := [], missed := none, saved := none }) ∧
    (∃ t, exec (.bz a) s = .next t ∧
      ContextStep s t { s.me with pc := if s.g a.x = 0 then dest else s.me.nextPc, walked := [], missed := none, saved := none })) ∧
  (∀ (a : JOff) (s : State),
    let dest : BitVec 57 := BitVec.ofInt 57 (s.me.pc.toInt + 2 * a.off.toInt)
    (∃ t, exec (.j a) s = .next t ∧ ContextStep s t { s.me with pc := dest, walked := [], missed := none, saved := none }) ∧
    (∃ t u, exec (.call a) s = .next t ∧ RegisterStep s u (.g 1) (BitVec.zeroExtend 64 s.me.nextPc) 0 ∧
      ContextStep u t { u.me with pc := dest })) ∧
  (∀ (a : GOne) (s : State), s.reads a.x = true → (s.g a.x).toNat < 2 ^ 57 → (s.g a.x).toNat % 2 = 0 →
    (∃ t, exec (.jr a) s = .next t ∧
      ContextStep s t { s.me with pc := BitVec.truncate 57 (s.g a.x), walked := [], missed := none, saved := none }) ∧
    (∃ t u, exec (.callr a) s = .next t ∧ RegisterStep s u (.g 1) (BitVec.zeroExtend 64 s.me.nextPc) 0 ∧
      ContextStep u t { u.me with pc := BitVec.truncate 57 (s.g a.x) })) ∧
  (∀ (s : State), (s.g (.g 1)).toNat < 2 ^ 57 → (s.g (.g 1)).toNat % 2 = 0 →
    ∃ t, exec .ret s = .next t ∧
      ContextStep s t { s.me with pc := BitVec.truncate 57 (s.g (.g 1)), walked := [], missed := none, saved := none }) ∧
  (∀ (s : State), s.me.tvec ≠ 0 → s.me.intrap = false →
      ∀ e ∈ ([(fun r => Instr.jr ⟨r⟩), (fun r => Instr.callr ⟨r⟩)] : List (GReg → Instr)), ∀ (r : GReg), s.reads r = true →
      ∀ e1 ∈ [(e r, r), (Instr.ret, GReg.g 1)],
        (2 ^ 57 ≤ (s.g e1.2).toNat → ∃ t, exec e1.1 s = .next t ∧
          TrapStep s t 0x10 (1 + 2 * 2 + if s.me.pl then 0 else 1024) (s.g e1.2).toNat) ∧
        ((s.g e1.2).toNat < 2 ^ 57 → (s.g e1.2).toNat % 2 = 1 → ∃ t, exec e1.1 s = .next t ∧
          TrapStep s t 0x05 (2 * 2) (s.g e1.2).toNat))

/-- A scalar load of the own TCM through its window writes the extended bytes at that address to X and lat (R113, R112, R115,
R29). -/
def Obligations.window_loads : Prop :=
  ∀ (a : GMem) (s : State) (n : Nat),
    let va := effAddr s a.y a.z a.imm n
    let pa := (s.tcmPlace va).pa
    let u := acquireOf s a.ord
    let value := leNat (homeBytes u 0 pa n)
    s.reads a.x = true → s.reads a.y = true → s.readsZ a.z = true →
    s.inTcm va n → va % n = 0 → s.intact va n → newestOverlap s.me pa n = none →
      (∀ e ∈ ([(Instr.ldb, 1), (Instr.ldh, 2), (Instr.ldw, 4), (Instr.ldd, 8)] : List ((GMem → Instr) × Nat)), e.2 = n →
        ∃ t, exec (e.1 a) s = .next t ∧ RegisterStep u t a.x (BitVec.ofNat 64 value) 0) ∧
      (∀ e ∈ ([(Instr.ldbs, 1), (Instr.ldhs, 2), (Instr.ldws, 4)] : List ((GMem → Instr) × Nat)), e.2 = n →
        ∃ t, exec (e.1 a) s = .next t ∧ RegisterStep u t a.x ((BitVec.ofNat (8 * n) value).signExtend 64) 0) ∧
      (n = 16 → s.me.okG 2 a.x = true →
        ∃ t, exec (.ldq a) s = .next t ∧
          PairStep u t a.x (GReg.succ 1 a.x) (BitVec.ofNat 64 value) (BitVec.ofNat 64 (value / 2 ^ 64)) 0)

/-- A scalar load of the own package completes at once or waits in WMEM for a reply that is then due. LOAD_REPLY writes the reply to its
destination: a register, a pair, the active elements of a vector register, a template slot of the arcade (R113, R115, R139, R212, R213,
R337). -/
def Obligations.load_completion : Prop :=
  (∀ e ∈ ([
      (Instr.ldb, 1, fun x => .scalar x 1 false), (Instr.ldh, 2, fun x => .scalar x 2 false), (Instr.ldw, 4, fun x => .scalar x 4 false),
      (Instr.ldd, 8, fun x => .scalar x 8 false), (Instr.ldbs, 1, fun x => .scalar x 1 true), (Instr.ldhs, 2, fun x => .scalar x 2 true),
      (Instr.ldws, 4, fun x => .scalar x 4 true), (Instr.ldq, 16, fun x => .pair x)] : List ((GMem → Instr) × Nat × (GReg → Dest))),
    ∀ (a : GMem) (s s1 s2 : State) (l : Located) (bs : List Byte) (now : Bool),
      let va := effAddr s a.y a.z a.imm e.2.1
      s.me.okG (if e.2.1 = 16 then 2 else 1) a.x = true → s.reads a.y = true → s.readsZ a.z = true → va % e.2.1 = 0 →
      translate s va ⟨0, false, decide (e.2.1 = 16), !s.me.pl⟩ = .ok (s1, l) → isPoisoned s1 s1.cur l.place e.2.1 = false →
      isRemote s1.cur l.place = false →
      readPlace (acquireOf s1 a.ord) s1.cur l.place e.2.1 (policyOf a.ord) = .ok (s2, bs, now) → s2.cur = s1.cur → bs.length = e.2.1 →
      ∃ t, exec (e.1 a) s = .next t ∧
        (now = true →
          (∀ x size signed, e.2.2 a.x = .scalar x size signed →
            RegisterStep s2 t x (if signed then (BitVec.ofNat (8 * size) (leNat bs)).signExtend 64 else BitVec.ofNat 64 (leNat bs)) 0) ∧
          (e.2.2 a.x = .pair a.x →
            PairStep s2 t a.x (GReg.succ 1 a.x) (BitVec.ofNat 64 (leNat (bs.take 8))) (BitVec.ofNat 64 (leNat (bs.drop 8))) 0)) ∧
        (now = false → t = (block s2 s1.cur .wmem (.reply (e.2.2 a.x) bs 0)).cause (.loadReply s1.cur))) ∧
  (∀ (c : Nat) (s : State) (d : Dest) (bs : List Byte) (f : FlagSet),
    (s.ctx c).wait = .reply d bs f → (s.ctx c).hostRead = false → (s.ctx c).dying = none → (s.ctx c).st ≠ .idle → isHalted s c = false →
    (s.stall (ctxStall c)).tracec = 0 →
      let lo := BitVec.ofNat 64 (leNat (bs.take 8))
      let hi := BitVec.ofNat 64 (leNat (bs.drop 8))
      ∃ t, exec (.loadReply c) s = .next t ∧ (t.ctx c).st = .run ∧ (t.ctx c).wait = .none ∧
        (t.ctx c).flags = (s.ctx c).flags ||| f ∧ (t.ctx c).pc = (s.ctx c).nextPc ∧ (∀ e, e ≠ c → t.ctx e = s.ctx e) ∧
        ((∀ x slot, d ≠ .template x slot) → ∀ key a, homeByte t key a = homeByte s key a) ∧
        (∀ x signed, d = .scalar x bs.length signed →
          let w := if signed then (BitVec.ofNat (8 * bs.length) (leNat bs)).signExtend 64 else BitVec.ofNat 64 (leNat bs)
          (t.ctx c).lat = w ∧ t.readG c x = if x = .g 0 then 0 else w) ∧
        (∀ x, d = .value x → (t.ctx c).lat = lo ∧ t.readG c x = if x = .g 0 then 0 else lo) ∧
        (∀ x, d = .pair x ∨ d = .pairValue x → (t.ctx c).lat = lo ∧
          (∀ i : Fin 8, x = .o i → t.readG c (.o i) = lo ∧ t.readG c (GReg.succ 1 x) = hi) ∧
          (∀ i : Fin 128, x = .g i → i.val < 127 →
            t.readG c (.g i) = (if i.val = 0 then 0 else lo) ∧ t.readG c (GReg.succ 1 x) = hi)) ∧
        (∀ x size active bcast, d = .vector x size active bcast → 0 < size → active.Nodup → (∀ i ∈ active, (i + 1) * size ≤ 128) →
          (if bcast then size else active.length * size) ≤ bs.length →
          t.gfile = s.gfile ∧ (t.ctx c).lat = (s.ctx c).lat ∧
          (∀ n, n ≠ vEntry c (s.ctx c) x → Store.get 0 t.vfile n = Store.get 0 s.vfile n) ∧
          ∀ i, (i + 1) * size ≤ 128 → elem (8 * size) (t.readV c x) i = match active.idxOf? i with
            | some j => leNat (if bcast then bs.take size else (bs.drop (j * size)).take size)
            | none => elem (8 * size) (s.readV c x) i) ∧
        (∀ x slot, d = .template x slot → bs.length = 64 →
          let at0 := scratchBase (ctxArcade c) + 2 ^ 16 + 64 * slot
          let good := decide (slot < 1024) && !templateBad (leNat bs)
          let w : Word := if good then 0 else BitVec.allOnes 64
          (t.ctx c).lat = w ∧ (t.readG c x = if x = .g 0 then 0 else w) ∧
          ∀ a, Store.get blankByte t.mem a =
            if good = true ∧ at0 ≤ a ∧ a < at0 + 64 then bs.getD (a - at0) 0 else Store.get blankByte s.mem a))

/-- A scalar store issues: its bytes join the queue of issued stores and no byte of memory changes yet. A release store at `.ac` or narrower
joins the queue behind the stores it orders; at `.ha` or wider it makes its release first, with engine order where ORD[2] asks for it, and
is then performed at once, or posted to its package (R112, R114, R115, R116, R309, R312, R316, R294). -/
def Obligations.store_issue : Prop :=
  ∀ e ∈ ([(Instr.stb, 1), (Instr.sth, 2), (Instr.stw, 4), (Instr.std, 8), (Instr.stq, 16)] : List ((GMem → Instr) × Nat)),
    ∀ (a : GMem) (s : State),
      let va := effAddr s a.y a.z a.imm e.2
      let bytes := leBytes e.2 ((s.g a.x).toNat % 2 ^ 64 + 2 ^ 64 * if e.2 = 16 then (s.g (GReg.succ 1 a.x)).toNat else 0)
      let entry (p : Place) (rel : Bool) : QStore := ⟨va, p, bytes, rel, (a.ord.map (·.scope)).getD .th, policyOf a.ord, none⟩
      s.me.okG (if e.2 = 16 then 2 else 1) a.x = true → s.reads a.y = true → s.readsZ a.z = true → va % e.2 = 0 →
      (∀ (s1 : State) (l : Located), translate s va ⟨1, true, decide (e.2 = 16), !s.me.pl⟩ = .ok (s1, l) →
        let c := s1.cur
        let w := s1.released (engineOf a.ord) (releaseOf a.ord)
        (releaseOf a.ord = none → s1.me.storeQ.length < 32 → forwardCount s1 (ctxStall c) < 16 →
          ∃ t, exec (e.1 a) s = .next t ∧ StoreIssued s1 t (entry l.place false)) ∧
        (∀ sc, releaseOf a.ord = some sc →
          (Scope.le .ha sc = false → s1.me.storeQ.length < 32 → forwardCount s1 (ctxStall c) < 16 →
            ∃ t, exec (e.1 a) s = .next t ∧ StoreIssued (narrowRelease s1 c sc) t (entry l.place true)) ∧
          (Scope.le .ha sc = true → s1.canRelease true (some sc) → w.cur = c → isRemote c l.place = false → exec (e.1 a) s =
            .next ((performThrough w c (entry l.place true)).upd (fun v => { v with tbm := v.tbm ||| tbmBit c l.place })).advance) ∧
          (Scope.le .ha sc = true → s1.canRelease true (some sc) → w.cur = c → isRemote c l.place = true →
            exec (e.1 a) s = .next (postAndHold w (entry l.place true))))) ∧
      (s.inTcm va e.2 → releaseOf a.ord = none → s.me.storeQ.length < 32 → forwardCount s (ctxStall s.cur) < 16 →
        ∃ t, exec (e.1 a) s = .next t ∧ StoreIssued s t (entry (s.tcmPlace va) false))

/-- STORE_PERFORM writes exactly the bytes of the oldest issued store; before it, a load of TCM gets them by forwarding (R309,
R310). -/
def Obligations.store_perform : Prop :=
  (∀ (c : Nat) (s : State) (q : QStore) (r : List QStore),
    (s.ctx c).storeQ = q :: r → q.block = none → q.place.cached = false → isRemote c q.place = false →
    (∀ h off, storageOf q.place.pa ≠ .hallRegs h off) → (∀ off, storageOf q.place.pa ≠ .host off) → isDevice q.place.pa = false →
    homeLine s q.place.key q.place.pa = none →
    (isDram q.place.pa = true → Store.get 0 s.unitKey (q.place.pa / 128) = keyOf s (pkgOf q.place.pa) q.place.key) →
    ∃ t, exec (.storePerform c) s = .next t ∧
      (∀ a, Store.get blankByte t.mem a =
        if q.place.pa ≤ a ∧ a < q.place.pa + q.bytes.length then q.bytes.getD (a - q.place.pa) 0
        else Store.get blankByte s.mem a) ∧
      t = { s with ctxs := t.ctxs, mem := t.mem, poison := t.poison } ∧
      (∀ d, d ≠ c → t.ctx d = s.ctx d) ∧ t.ctx c = { s.ctx c with storeQ := r }) ∧
  (∀ (s : State) (c n : Nat) (p : Place) (q : QStore) (older newer : List QStore) (policy : Policy),
    (s.ctx c).storeQ = older ++ q :: newer →
    (∀ x ∈ newer, ¬(x.place.pa < p.pa + n ∧ p.pa < x.place.pa + x.bytes.length)) →
    isNearStorage p = true → 0 < n → q.place.pa ≤ p.pa → p.pa + n ≤ q.place.pa + q.bytes.length →
      readPlace s c p n policy = .ok (s, (List.range n).map (fun i => q.bytes.getD (p.pa - q.place.pa + i) 0), true))

/-- A scalar load or store of more than a byte whose address is no multiple of its size takes ALIGN and accesses nothing (R37,
R112, Table 18-2). -/
def Obligations.misaligned_accesses_trap : Prop :=
  ∀ e ∈ ([
      (Instr.ldh, 2, 0), (Instr.ldw, 4, 0), (Instr.ldd, 8, 0), (Instr.ldhs, 2, 0),
      (Instr.ldws, 4, 0), (Instr.ldq, 16, 0), (Instr.sth, 2, 1), (Instr.stw, 4, 1), (Instr.std, 8, 1),
      (Instr.stq, 16, 1)] : List ((GMem → Instr) × Nat × Nat)),
    ∀ (a : GMem) (s : State),
      let va := effAddr s a.y a.z a.imm e.2.1
      s.me.tvec ≠ 0 → s.me.intrap = false → s.me.okG (if e.2.1 = 16 then 2 else 1) a.x = true → s.reads a.y = true →
      s.readsZ a.z = true → va % e.2.1 ≠ 0 →
      ∃ t, exec (e.1 a) s = .next t ∧ TrapStep s t 0x05 (2 * e.2.2) va

/-- After reset every CSR reads the value of Tables 01-2 to 01-5, registers read 0, and memory has its canonical form (R33, R35,
Table 01-4, Table 01-5). -/
def Obligations.reset_registers : Prop :=
  State.reset.memoryWf ∧
  ∀ c, c < ctxLimit →
    (∀ e ∈ ([
        (.flags, 0), (.ten, 0x283), (.rmode, 0), (.vt, 8), (.vl, 32), (.fmtw, 0x0888), (.sclp, 0), (.mmode, 0), (.mrho, 0),
        (.mseed, 0), (.ttag, 0), (.framep, 0), (.loc, BitVec.ofNat 64 c), (.tbm, 0), (.rank, 0), (.gsz, 1), (.status, 1), (.epc, 0),
        (.ecause, 0), (.einfo, 0), (.eva, 0), (.tvec, 0), (.gwin, BitVec.ofNat 64 (32 * 2 ^ 16 + 32 * (c % 64))),
        (.vwin, BitVec.ofNat 64 (16 * 2 ^ 16 + 16 * (c % 64))), (.rcbp, 0), (.ptbr, 0), (.liveb, 0), (.keyt, 0), (.sscratch, 0),
        (.frec, 0), (.ctxn, 64), (.bgate, 0x10000), (.haltg, 0), (.tracec, 0)] : List (Csr × Word)),
      readCsr State.reset c e.1 = e.2) ∧
    (∀ r, State.reset.readG c r = 0) ∧ (∀ i, State.reset.readV c i = 0) ∧
    (∀ i, (State.reset.ctx c).pred i = 0 ∧ (State.reset.ctx c).tile i = 0) ∧ (State.reset.ctx c).st = .idle

/-- RDC writes the CSR to X and lat, for every register of Tables 01-4 and 01-5: one of index below 0x100 at either level, a supervisor
CSR in supervisor mode; FLAGS and TEN once earlier bank transfers have set their flags. CYC and TIME are the model's free values (log
entry 5) (R129, R24, R25, R126, Table 01-4, Table 01-5). -/
def Obligations.csr_reads : Prop :=
  ∀ (x : GReg) (s : State), s.reads x = true →
    let reads (r : Csr) (w : Word) : Prop := ∃ t, exec (.rdc ⟨x, r⟩) s = .next t ∧ RegisterStep s t x w 0
    let v := s.me
    let k := s.myStall
    (∀ e ∈ ([
        (.rmode, BitVec.ofNat 64 (v.fmtw.toNat / 2 ^ 14 % 4)), (.vt, BitVec.ofNat 64 (v.fmtw.toNat / 2 ^ 8 % 16)),
        (.vl, BitVec.zeroExtend 64 v.vl), (.fmtw, BitVec.zeroExtend 64 v.fmtw), (.sclp, v.sclp),
        (.mmode, BitVec.ofNat 64 (v.fmtw.toNat / 2 ^ 12 % 4)), (.mrho, BitVec.zeroExtend 64 v.mrho), (.mseed, v.mseed),
        (.ttag, BitVec.zeroExtend 64 v.ttag), (.framep, v.framep), (.loc, BitVec.ofNat 64 s.cur), (.tbm, BitVec.zeroExtend 64 v.tbm),
        (.rank, v.rank), (.gsz, v.gsz), (.cyc, Config.freeCyc (ctxStall s.cur) s.tick),
        (.time, Config.freeTime (ctxPkg s.cur) s.tick + BitVec.ofInt 64 (s.pkg (ctxPkg s.cur)).timeOffset)] : List (Csr × Word)),
      reads e.1 e.2) ∧
    (k.transfers.any (fun y => y.ctx == s.cur && y.both) = false →
      reads .flags (BitVec.zeroExtend 64 v.flags) ∧ reads .ten (BitVec.zeroExtend 64 v.ten)) ∧
    (v.pl = true →
      (∀ e ∈ ([
          (.status, BitVec.ofNat 64 (v.pl.toNat + 2 * v.ppl.toNat + 4 * v.intrap.toNat)), (.epc, v.epc), (.ecause, v.ecause),
          (.einfo, v.einfo), (.eva, v.eva), (.tvec, v.tvec), (.gwin, BitVec.ofNat 64 (v.gbase + 2 ^ 16 * v.gsize)),
          (.vwin, BitVec.ofNat 64 (v.vbase + 2 ^ 16 * v.vsize)), (.rcbp, v.rcbp), (.ptbr, v.ptbr), (.liveb, v.liveb),
          (.keyt, v.keyt), (.sscratch, v.sscratch), (.frec, v.frec), (.ctxn, BitVec.ofNat 64 k.ctxn),
          (.haltg, BitVec.zeroExtend 64 k.haltg), (.tracec, k.tracec)] : List (Csr × Word)),
        reads e.1 e.2) ∧
      (∀ w : Word, (∀ i, i < 64 → w.getLsbD i =
          if i < 17 then k.bgate.getLsbD i else decide (32 ≤ i ∧ i < 48 ∧ (k.gated.lookup (i - 32)).isSome = true)) →
        reads .bgate w))

/-- WRC writes the fields of a CSR from X and changes nothing else: one of index below 0x100 at either level, a supervisor CSR in
supervisor mode; FLAGS and TEN once earlier bank transfers have set their flags. To a read-only CSR, or of an illegal window value, it
takes ILLOP (R129, R13, R19, R24, R25, R79, R126, R216). -/
def Obligations.csr_writes : Prop :=
  (∀ (x : GReg) (s : State), s.reads x = true →
      let w := s.g x
      let k := ctxStall s.cur
      let next (v : Ctx) : Ctx := { v with pc := s.me.nextPc, walked := [], missed := none, saved := none }
      let writes (r : Csr) (v : Ctx) : Prop := ∃ t, exec (.wrc ⟨x, r⟩) s = .next t ∧ ContextStep s t (next v)
      let stallWritten (t : State) (v : Stall) : Prop := t = { s with ctxs := t.ctxs, stalls := t.stalls } ∧ t.me = next s.me ∧
        (∀ c, c ≠ s.cur → t.ctx c = s.ctx c) ∧ (∀ j, j ≠ k → t.stall j = s.stall j) ∧ t.stall k = v
      (∀ e ∈ ([
          (.rmode, { s.me with fmtw := (s.me.fmtw &&& 0x3FFF) ||| ((BitVec.truncate 16 w : BitVec 16) <<< 14) }),
          (.vt, { s.me with fmtw := (s.me.fmtw &&& 0xF0FF) ||| (((BitVec.truncate 16 w : BitVec 16) &&& 0xF) <<< 8) }),
          (.mmode, { s.me with fmtw := (s.me.fmtw &&& 0xCFFF) ||| (((BitVec.truncate 16 w : BitVec 16) &&& 3) <<< 12) }),
          (.vl, { s.me with vl := BitVec.truncate 8 w }), (.fmtw, { s.me with fmtw := BitVec.truncate 16 w }),
          (.sclp, { s.me with sclp := w }), (.mrho, { s.me with mrho := BitVec.truncate 32 w }), (.mseed, { s.me with mseed := w })] :
          List (Csr × Ctx)),
        writes e.1 e.2) ∧
      (s.myStall.transfers.any (fun y => y.ctx == s.cur && y.both) = false →
        writes .flags { s.me with flags := BitVec.truncate 11 w } ∧ writes .ten { s.me with ten := BitVec.truncate 11 w }) ∧
      (s.me.pl = true →
        (∀ e ∈ ([
            (.status, { s.me with pl := w.getLsbD 0, ppl := w.getLsbD 1, intrap := w.getLsbD 2 }), (.epc, { s.me with epc := w }),
            (.ecause, { s.me with ecause := w }), (.einfo, { s.me with einfo := w }), (.eva, { s.me with eva := w }),
            (.tvec, { s.me with tvec := w &&& 0xFFFFFFFFFFFFFFFE }), (.rcbp, { s.me with rcbp := w }),
            (.ptbr, { s.me with ptbr := w &&& 0x00FFFFFFFFFFFFFF }), (.liveb, { s.me with liveb := w }), (.keyt, { s.me with keyt := w }),
            (.sscratch, { s.me with sscratch := w }), (.frec, { s.me with frec := w &&& 0x01FFFFFFFFFFFFC1 })] : List (Csr × Ctx)),
          writes e.1 e.2) ∧
        (let size := w.toNat / 2 ^ 16 % 256
         let base := w.toNat % 2 ^ 11
         size % 8 = 0 → 8 ≤ size → size ≤ 128 → base % 8 = 0 → base + size ≤ 2048 →
          ∃ t, exec (.wrc ⟨x, .gwin⟩) s = .next t ∧ Regated (s.upd (fun v => next { v with gsize := size, gbase := base })) t k) ∧
        (let size := w.toNat / 2 ^ 16 % 128
         let base := w.toNat % 2 ^ 10
         size % 4 = 0 → 4 ≤ size → size ≤ 64 → base % 4 = 0 → base + size ≤ 1024 →
          ∃ t, exec (.wrc ⟨x, .vwin⟩) s = .next t ∧ Regated (s.upd (fun v => next { v with vsize := size, vbase := base })) t k) ∧
        (∃ t, exec (.wrc ⟨x, .bgate⟩) s = .next t ∧
          Regated ((s.upd next).updStall k (fun v => { v with bgate := BitVec.truncate 17 w })) t k) ∧
        (∃ t, exec (.wrc ⟨x, .haltg⟩) s = .next t ∧ stallWritten t { s.myStall with haltg := BitVec.truncate 10 w }) ∧
        (∃ t, exec (.wrc ⟨x, .tracec⟩) s = .next t ∧ stallWritten t { s.myStall with tracec := w &&& 0x01FFFFFFFFFFFF07 }))) ∧
  (∀ (x : GReg) (s : State), s.me.tvec ≠ 0 → s.me.intrap = false →
      (∀ r ∈ [Csr.ttag, .framep, .loc, .tbm, .cyc, .rank, .gsz, .time, .ctxn],
        ∃ t, exec (.wrc ⟨x, r⟩) s = .next t ∧ TrapStep s t 0x01 (10 + 256 * (s.me.len / 2 - 1)) 0) ∧
      (s.reads x = true → s.me.pl = true →
        let size := (s.g x).toNat / 2 ^ 16 % 256
        let base := (s.g x).toNat % 2 ^ 11
        (size % 8 ≠ 0 ∨ size < 8 ∨ 128 < size ∨ base % 8 ≠ 0 ∨ 2048 < base + size →
          ∃ t, exec (.wrc ⟨x, .gwin⟩) s = .next t ∧ TrapStep s t 0x01 (11 + 256 * (s.me.len / 2 - 1)) 0) ∧
        (let vsize := (s.g x).toNat / 2 ^ 16 % 128
         let vbase := (s.g x).toNat % 2 ^ 10
         vsize % 4 ≠ 0 ∨ vsize < 4 ∨ 64 < vsize ∨ vbase % 4 ≠ 0 ∨ 1024 < vbase + vsize →
          ∃ t, exec (.wrc ⟨x, .vwin⟩) s = .next t ∧ TrapStep s t 0x01 (11 + 256 * (s.me.len / 2 - 1)) 0)))

/-- In user mode every privileged instruction, and every access to a supervisor CSR, takes PRIV and has no effect (R24, R36,
R359). -/
def Obligations.privileged_in_user_mode : Prop :=
  ∀ (s : State), s.me.tvec ≠ 0 → s.me.intrap = false → s.me.pl = false →
    (∀ i ∈ [Instr.eret, .halt], ∃ t, exec i s = .next t ∧ TrapStep s t 0x04 0 0) ∧
    (∀ (a : GOne), ∀ i ∈ [Instr.repart a, .ctxload a], ∃ t, exec i s = .next t ∧ TrapStep s t 0x04 0 0) ∧
    (∀ (a : GUn), ∀ i ∈ [Instr.ctxsave a, .purge a, .tlbinv a], ∃ t, exec i s = .next t ∧ TrapStep s t 0x04 0 0) ∧
    (∀ (x : GReg), ∀ r ∈ [Csr.status, .epc, .ecause, .einfo, .eva, .tvec, .gwin, .vwin, .rcbp, .ptbr, .liveb, .keyt, .sscratch,
        .frec, .bgate, .haltg, .tracec],
      (∃ t, exec (.rdc ⟨x, r⟩) s = .next t ∧ TrapStep s t 0x04 0 0) ∧
      (∃ t, exec (.wrc ⟨x, r⟩) s = .next t ∧ TrapStep s t 0x04 0 0)) ∧
    (∀ (x : GReg), ∃ t, exec (.rdc ⟨x, .ctxn⟩) s = .next t ∧ TrapStep s t 0x04 0 0)

/-- SYSC and BKPT take their trap: EPC, ECAUSE, EINFO, EVA, the levels and the PC as R359 says, and all else as it was. That a BKPT with
BKRT in force leaves an earlier stop in the arcade's Inspector registers is the model's choice (log entry 33) (R359, R128, R127, R389,
R390). -/
def Obligations.traps_taken : Prop :=
  ∀ (s : State), s.me.tvec ≠ 0 → s.me.intrap = false →
    (∀ (a : Num8), ∃ t, exec (.sysc a) s = .next t ∧ TrapStep s t 0x30 a.n.toNat 0) ∧
    (∀ (a : Num8), (s.myStall.haltg.getLsbD 8 && s.myStall.haltg.getLsbD 9) = false →
      ∃ t, exec (.bkpt a) s = .next t ∧ TrapStep s t 0x31 a.n.toNat 0) ∧
    (∀ (a : Num8), (s.myStall.haltg.getLsbD 8 && s.myStall.haltg.getLsbD 9) = true →
      let k := ctxStall s.cur
      let halted := s.updArcade (stallArcade k) (fun v =>
        if v.bvalid then v else { v with bvalid := true, bstall := k % 8, bctx := s.cur % 64, ibpc := s.me.pc.toNat })
      exec (.bkpt a) s = .next (triggerGroup halted.advance k true)) ∧
    (s.me.flags &&& s.me.ten ≠ 0 → s.myStall.transfers.any (fun y => y.ctx == s.cur && y.both) = false →
      ∃ t, exec .trapf s = .next t ∧ TrapStep s t 0x20 (s.me.flags &&& s.me.ten).toNat 0)

/-- A trap that cannot be taken begins the death of the task, with NOTRAP or DBL and the trap's cause (R360, R366, R383). -/
def Obligations.untakeable_traps_kill : Prop :=
  ∀ (s : State), (s.me.tvec = 0 ∨ s.me.intrap = true) → s.me.dying = none →
    let dies (o : Host.Outcome State Fault Refusal) (cause n va : Nat) : Prop :=
      ∃ t d, o = .next t ∧ t.me = { s.me with dying := some d } ∧ (∀ c, c ≠ s.cur → t.ctx c = s.ctx c) ∧
        d.cause = cause ∧ d.einfo = BitVec.ofNat 64 n ∧ d.eva = BitVec.ofNat 64 va ∧ d.notrap = decide (s.me.tvec = 0) ∧
        d.dbl = s.me.intrap ∧ d.async = false ∧
        t = { s with ctxs := t.ctxs, sched := .event (.taskDeath s.cur) :: s.sched }
    (∀ (a : Num8), dies (exec (.sysc a) s) 0x30 a.n.toNat 0) ∧
    (∀ (a : Num8), (s.myStall.haltg.getLsbD 8 && s.myStall.haltg.getLsbD 9) = false →
      dies (exec (.bkpt a) s) 0x31 a.n.toNat 0) ∧
    (s.me.pl = true → s.me.epc.toNat < 2 ^ 57 → s.me.epc.toNat % 2 = 1 → dies (exec .eret s) 0x05 4 s.me.epc.toNat)

/-- ERET in supervisor mode restores the level and goes to EPC (R383, R110). -/
def Obligations.eret_returns : Prop :=
  ∀ (s : State), s.me.pl = true →
    (s.me.epc.toNat < 2 ^ 57 → s.me.epc.toNat % 2 = 0 → ∃ t, exec .eret s = .next t ∧
      ContextStep s t { s.me with
        pl := s.me.ppl, intrap := false, pc := BitVec.truncate 57 s.me.epc, walked := [], missed := none, saved := none }) ∧
    (s.me.tvec ≠ 0 → s.me.intrap = false → 2 ^ 57 ≤ s.me.epc.toNat →
      ∃ t, exec .eret s = .next t ∧ TrapStep s t 0x10 5 s.me.epc.toNat) ∧
    (s.me.tvec ≠ 0 → s.me.intrap = false → s.me.epc.toNat < 2 ^ 57 → s.me.epc.toNat % 2 = 1 →
      ∃ t, exec .eret s = .next t ∧ TrapStep s t 0x05 4 s.me.epc.toNat)

/-- NOP, YIELD, TRAPF, FLAGR, FLAGC, TMARK (with the mark bit of TRACEC clear or set) and HALT complete with their effect (R124, R125, R126,
R127, R131, R384). -/
def Obligations.simple_system_instructions : Prop :=
  ∀ (s : State),
    (∃ t, exec .nop s = .next t ∧ NextStep s t) ∧
    (s.me.request = none → ∃ t, exec .yield s = .next t ∧ NextStep s t) ∧
    (s.me.request ≠ none → exec .yield s = .next (block s s.cur .wmsg .yield)) ∧
    (s.myStall.transfers.any (fun y => y.ctx == s.cur && y.both) = false →
      (s.me.flags &&& s.me.ten = 0 → ∃ t, exec .trapf s = .next t ∧ NextStep s t) ∧
      (∀ (a : GOne), s.reads a.x = true →
        (∃ t, exec (.flagr a) s = .next t ∧ RegisterStep s t a.x (BitVec.zeroExtend 64 s.me.flags) 0) ∧
        (∃ t, exec (.flagc a) s = .next t ∧ ContextStep s t { s.me with
          flags := s.me.flags &&& ~~~(BitVec.truncate 11 (s.g a.x)), pc := s.me.nextPc, walked := [], missed := none, saved := none }))) ∧
    (∀ (a : GOne), s.reads a.x = true →
      (s.myStall.tracec.getLsbD 1 = false → ∃ t, exec (.tmark a) s = .next t ∧ NextStep s t) ∧
      (s.myStall.tracec.getLsbD 1 = true →
        exec (.tmark a) s = .next (logTimed s s.cur (2 ^ 30 + (s.g a.x).toNat % 2 ^ 24)).advance)) ∧
    (s.me.pl = true → s.myStall.haltg.getLsbD 8 = true → exec .halt s = .next (triggerGroup s.advance (ctxStall s.cur) true)) ∧
    (s.me.pl = true → s.me.st = .run → s.me.wait = .none → s.myStall.haltg.getLsbD 8 = false →
      ∃ t, exec .halt s = .next t ∧ ContextStep s t { s.me with
        pc := s.me.nextPc, walked := [], missed := none, saved := none, halted := true, st := .halt, back := .run })

/-- Naming a register outside its class or window takes REGLIM with its index, operand and class, the first operand in the order X, Y, Z
(DEDUCED, log entry 12), of a pair or group its first register beyond the window (log entry 12); a register named with no pair held is
a0 or a1. Nothing else happens (R14, R19, R21, R22, R23, R36, R115). -/
def Obligations.operands_beyond_the_window_trap : Prop :=
  ∀ (s : State), s.me.tvec ≠ 0 → s.me.intrap = false →
    let g (n : Nat) (r : GReg) : Nat × Named := (n, .g r 1)
    let gz (z : Option GReg) : List (Nat × Named) := z.toList.map (g 2)
    let v (n : Nat) (i : Idx) : Nat × Named := (n, .v i)
    let vz (z : Option Idx) : List (Nat × Named) := z.toList.map (v 2)
    (∀ (a : GBin), ∀ e ∈ [Instr.add, .sub, .and, .or, .xor, .shl, .shr, .sra, .mul, .mulh, .mulhn, .min, .max, .minn, .maxn, .ceq, .cne,
        .clt, .cge, .cltn, .cgen, .tst, .div, .divn, .rem, .remn, .bfx, .bfxn, .bfi, .rol, .ror, .fadd, .fsub, .fmul, .fdiv, .fmin, .fmax,
        .feq, .flt, .fle, .funo, .rlaunch], s.limits (e a) ([g 0 a.x, g 1 a.y] ++ gz a.z)) ∧
    (∀ (a : GUn), ∀ e ∈ [Instr.not, .mov, .sxw, .zxw, .sxb, .sxh, .clz, .popc, .rev, .ctz, .fsqrt, .fabs, .fneg, .cvtif, .cvtfi, .cvtfb,
        .cvtbf, .cvtfh, .cvthf, .falloc, .pub, .rquery], s.limits (e a) [g 0 a.x, g 1 a.y]) ∧
    (∀ (a : GTri), ∀ e ∈ [Instr.selnz, .selz, .fma, .fms, .fnma], s.limits (e a) [g 0 a.x, g 1 a.y, g 2 a.z]) ∧
    (∀ (a : GImm), ∀ e ∈ [Instr.movi, .addi, .bnz, .bz], s.limits (e a) [g 0 a.x]) ∧
    (∀ (a : GShift), ∀ e ∈ [Instr.shli, .shri, .srai, .rori], s.limits (e a) [g 0 a.x]) ∧
    (∀ (a : GOne), ∀ e ∈ [Instr.jr, .callr, .flagr, .flagc, .tmark, .aacq, .mwait, .mstat, .syncq, .syncc, .ffree, .tdrop, .tabort, .rwait,
        .grank, .gsize], s.limits (e a) [g 0 a.x]) ∧
    (∀ (a : GLea), ∀ e ∈ [Instr.lea1, .lea2, .lea4, .lea8, .lea16], s.limits (e a) ([g 0 a.x, g 1 a.y] ++ gz a.z)) ∧
    (∀ (a : GMem), (∀ e ∈ [Instr.ldb, .ldh, .ldw, .ldd, .ldbs, .ldhs, .ldws, .stb, .sth, .stw, .std, .jadd, .binit, .barr, .bwait, .bexp,
        .btest, .copy, .ctset, .cwm, .cwait], s.limits (e a) ([g 0 a.x, g 1 a.y] ++ gz a.z)) ∧
      ∀ e ∈ [Instr.ldq, .stq], s.limits (e a) ([(0, .g a.x 2), g 1 a.y] ++ gz a.z)) ∧
    (∀ (a : PMem), s.limits (.jinit a) ([g 1 a.y] ++ gz a.z)) ∧
    (∀ (a : YMem), ∀ e ∈ [Instr.flush, .inval, .pref], s.limits (e a) [g 1 a.y]) ∧
    (∀ (a : Atom), ∀ e ∈ [(Instr.aadd, 1), (.aand, 1), (.aor, 1), (.axor, 1), (.amin, 1), (.amax, 1), (.aswp, 1), (.acas, 2), (.acas2, 4),
        (.abinc, 1), (.abdec, 1), (.afadd, 1), (.amadd, 1)], s.limits (e.1 a) [(0, .g a.x e.2), g 1 a.y, g 2 a.z]) ∧
    (∀ (x y : GReg) (tg : Target),
      let entry (n : Nat) : List (Nat × Named) := match tg with | .reg z => [g n z] | .label _ => []
      s.limits (.spawn ⟨x, tg⟩) (g 0 x :: entry 2) ∧ s.limits (.spawna ⟨x, y, tg⟩) ([g 0 x, g 1 y] ++ entry 2) ∧
        s.limits (.spawnf ⟨x, y, tg⟩) ([g 0 x, (1, .g y 2)] ++ entry 2)) ∧
    (∀ (a : VBin), ∀ e ∈ [Instr.vadd, .vsub, .vmul, .vmin, .vmax, .vand, .vor, .vxor, .vfma, .vfms, .vshl, .vshr, .vsra, .vdiv, .vsel,
        .vperm], s.limits (e a) ([v 0 a.x, v 1 a.y] ++ vz a.z)) ∧
    (∀ (a : VUn), ∀ e ∈ [Instr.vabs, .vneg, .vcvt, .vpack, .vunpk, .vqds, .vexp, .vrcp, .vrsq, .verf],
      s.limits (e a) [v 0 a.x, v 1 a.y]) ∧
    (∀ (a : VTri), ∀ e ∈ [Instr.vceq, .vcne, .vclt, .vcle, .vcgt, .vcge], s.limits (e a) [(0, .p a.x), v 1 a.y, v 2 a.z]) ∧
    (∀ (a : PBin), ∀ e ∈ [Instr.pand, .por, .pxor],
      s.limits (e a) ([(0, .p a.x), (1, .p a.y)] ++ a.z.toList.map (fun z => (2, .p z)))) ∧
    (∀ (a : PUn), s.limits (.pnot a) [(0, .p a.x), (1, .p a.y)]) ∧
    (∀ (a : Sys2Proof.PSet), s.limits (.pset a) [(0, .p a.x), g 1 a.y]) ∧
    (∀ (a : PCount), ∀ e ∈ [Instr.pcnt, .pfirst], s.limits (e a) [g 0 a.x, (1, .p a.y)]) ∧
    (∀ (a : VMem), ∀ e ∈ [Instr.vld, .vst, .vlds, .vsts, .vldb], s.limits (e a) ([v 0 a.x, g 1 a.y] ++ gz a.z)) ∧
    (∀ (a : VGather), ∀ e ∈ [Instr.vgath, .vscat], s.limits (e a) ([v 0 a.x, g 1 a.y] ++ vz a.z)) ∧
    (∀ (a : VRed), ∀ e ∈ [Instr.vrsum, .vrmax, .vrmin], s.limits (e a) ([g 0 a.x, v 1 a.y] ++ gz a.z)) ∧
    (∀ (a : VExt), s.limits (.vext a) ([g 0 a.x, v 1 a.y] ++ gz a.z)) ∧
    (∀ (a : VBcst), s.limits (.vbcst a) ([v 0 a.x, g 1 a.y] ++ gz a.z)) ∧
    (∀ (x y : Idx) (d : GReg) (f : Option Fmt) (q : Option Prd), s.limits (.vslide ⟨x, .own d, f, q⟩) [v 0 x, g 1 d] ∧
      s.limits (.vslide ⟨x, .other y d, f, q⟩) [v 0 x, v 1 y, g 2 d]) ∧
    (∀ (a : VSet), s.limits (.vsett a) [g 0 a.x, g 1 a.y]) ∧ (∀ (a : VLen), s.limits (.vlen a) [g 0 a.x]) ∧
    (∀ (a : VIota), s.limits (.viota a) [v 0 a.x]) ∧
    (∀ (a : MBin), ∀ e ∈ [Instr.madd, .msub, .mmul, .mmk], s.limits (e a) ([v 0 a.x, v 1 a.y] ++ vz a.z)) ∧
    (∀ (a : MTri), ∀ e ∈ [Instr.mscl, .maff], s.limits (e a) [v 0 a.x, v 1 a.y, v 2 a.z]) ∧
    (∀ (a : MUn), ∀ e ∈ [Instr.mneg, .mrelu, .mexp, .msig, .msqr, .mmean, .mvar], s.limits (e a) [v 0 a.x, v 1 a.y]) ∧
    (∀ (a : MCol), s.limits (.mcol a) ([v 0 a.x, v 1 a.y] ++ gz (a.z.map (·.2)))) ∧
    (∀ (a : MSum), s.limits (.msum a) ([g 0 a.x, v 1 a.y] ++ gz a.z)) ∧ (∀ (a : MChk), s.limits (.mchk a) [g 0 a.x, v 1 a.y]) ∧
    (∀ (a : ITri), ∀ e ∈ [Instr.mma, .mmaz, .mmah, .mmazh], s.limits (e a) [(0, .a a.x), (1, .t a.y), (2, .t a.z)]) ∧
    (∀ (a : AZero), s.limits (.azero a) [(0, .a a.x)]) ∧ (∀ (a : IG), s.limits (.ascale a) [(0, .a a.x), g 1 a.y]) ∧
    (∀ (a : AMem), ∀ e ∈ [Instr.aload, .astore], s.limits (e a) ([(0, .a a.x), g 1 a.y] ++ gz a.z)) ∧
    (∀ (a : IIG), s.limits (.arowv a) [v 0 a.x, (1, .a a.y), g 2 a.z] ∧ s.limits (.avrow a) [(0, .a a.x), v 1 a.y, g 2 a.z] ∧
      s.limits (.mrfn a) [(0, .t a.x), (1, .t a.y), g 2 a.z]) ∧
    (∀ (a : IGG), ∀ e ∈ [Instr.tset, .tget, .tshape], s.limits (e a) ([(0, .t a.x), g 1 a.y] ++ gz a.z)) ∧
    (∀ (a : TAdv), s.limits (.tadv a) ([(0, .t a.x), g 1 a.y] ++ gz a.z)) ∧
    (∀ (a : IG), s.limits (.tname a) [(0, .t a.x), g 1 a.y]) ∧
    (∀ (a : MChol), s.limits (.mchol a) ((0, .t a.x) :: gz a.z)) ∧
    (∀ (a : II), ∀ e ∈ [Instr.mtrsl, .mtrsu], s.limits (e a) [(0, .t a.x), (1, .t a.y)]) ∧
    (∀ (a : IOne), ∀ e ∈ [Instr.tfpin, .tfrel], s.limits (e a) [(0, .t a.x)]) ∧
    s.g (.g 0) = 0 ∧ (∀ c w, s.putG c (.g 0) w = s) ∧ (∀ i : Fin 128, s.reads (.g i) = decide (i.val < s.me.gsize))

/-- Vector arithmetic on integer elements wraps, element by active element (R136, R134, R133, R40, Table 05-3). -/
def Obligations.vector_integer_elements : Prop :=
  (∀ e ∈ ([
      (Instr.vadd, fun x y _ => x + y), (Instr.vsub, fun x y _ => x - y), (Instr.vmul, fun x y _ => x * y),
      (Instr.vmin, fun x y _ => min x y), (Instr.vmax, fun x y _ => max x y)] : List ((VBin → Instr) × (Int → Int → Int → Int))),
    ∀ (a : VBin) (s : State) (signed : Bool), s.readsV a.x = true → s.readsV a.y = true → s.readsVZ a.z = true →
      let t := a.fmt.getD s.me.vt
      t.int? = some signed →
      let p (i : Nat) := elem t.width (s.v (if a.z.isSome then a.y else a.x)) i
      let q (i : Nat) := elem t.width (s.v (a.z.getD a.y)) i
      ∃ u, exec (e.1 a) s = .next u ∧ ElementStep s u a.x t.width (1024 / t.width)
        (isActive s a.prd t.width (min s.me.vl.toNat (1024 / t.width)))
        (fun i => ⟨wrapTo t.width (e.2 (intElem signed t.width (p i)) (intElem signed t.width (q i)) 0), 0⟩) 0) ∧
  (∀ e ∈ ([(Instr.vfma, fun x y z => x * y + z), (Instr.vfms, fun x y z => x * y - z)] :
      List ((VBin → Instr) × (Int → Int → Int → Int))),
    ∀ (a : VBin) (s : State) (signed : Bool), s.readsV a.x = true → s.readsV a.y = true → s.readsVZ a.z = true →
      let t := a.fmt.getD s.me.vt
      t.int? = some signed →
      let el (r : Idx) (i : Nat) : Int := intElem signed t.width (elem t.width (s.v r) i)
      ∃ u, exec (e.1 a) s = .next u ∧ ElementStep s u a.x t.width (1024 / t.width)
        (isActive s a.prd t.width (min s.me.vl.toNat (1024 / t.width)))
        (fun i => ⟨wrapTo t.width (e.2 (el a.y i) (el (a.z.getD a.y) i) (el a.x i)), 0⟩) 0) ∧
  (∀ e ∈ ([
      (Instr.vshl, fun w _ x k => x * 2 ^ (k % w)), (Instr.vshr, fun w _ x k => x / 2 ^ (k % w)),
      (Instr.vsra, fun w _ x k => wrapTo w (signedOf w x / 2 ^ (k % w)))] : List ((VBin → Instr) × (Nat → Bool → Nat → Nat → Nat))),
    ∀ (a : VBin) (s : State) (signed : Bool), s.readsV a.x = true → s.readsV a.y = true → s.readsVZ a.z = true →
      let t := a.fmt.getD s.me.vt
      t.int? = some signed →
      let p (i : Nat) := elem t.width (s.v (if a.z.isSome then a.y else a.x)) i
      let q (i : Nat) := elem t.width (s.v (a.z.getD a.y)) i
      ∃ u, exec (e.1 a) s = .next u ∧ ElementStep s u a.x t.width (1024 / t.width)
        (isActive s a.prd t.width (min s.me.vl.toNat (1024 / t.width))) (fun i => ⟨e.2 t.width signed (p i) (q i), 0⟩) 0) ∧
  (∀ (a : VBin) (s : State) (signed : Bool), s.readsV a.x = true → s.readsV a.y = true → s.readsVZ a.z = true →
      let t := a.fmt.getD s.me.vt
      t.int? = some signed →
      let p (i : Nat) := elem t.width (s.v (if a.z.isSome then a.y else a.x)) i
      let q (i : Nat) := elem t.width (s.v (a.z.getD a.y)) i
      ∃ u, exec (.vdiv a) s = .next u ∧ ElementStep s u a.x t.width (1024 / t.width)
        (isActive s a.prd t.width (min s.me.vl.toNat (1024 / t.width)))
        (fun i => if q i = 0 then ⟨2 ^ t.width - 1, flagDZ⟩
          else ⟨wrapTo t.width (Int.tdiv (intElem signed t.width (p i)) (intElem signed t.width (q i))),
            if signed = true ∧ p i = 2 ^ (t.width - 1) ∧ q i = 2 ^ t.width - 1 then flagOF else 0⟩) 0) ∧
  (∀ e ∈ ([(Instr.vand, Nat.land), (Instr.vor, Nat.lor), (Instr.vxor, Nat.xor)] : List ((VBin → Instr) × (Nat → Nat → Nat))),
    ∀ (a : VBin) (s : State), s.readsV a.x = true → s.readsV a.y = true → s.readsVZ a.z = true →
      let t := a.fmt.getD s.me.vt
      t ≠ .fa56 →
      let p (i : Nat) := elem t.width (s.v (if a.z.isSome then a.y else a.x)) i
      let q (i : Nat) := elem t.width (s.v (a.z.getD a.y)) i
      ∃ u, exec (e.1 a) s = .next u ∧ ElementStep s u a.x t.width (1024 / t.width)
        (isActive s a.prd t.width (min s.me.vl.toNat (1024 / t.width))) (fun i => ⟨e.2 (p i) (q i), 0⟩) 0) ∧
  (∀ e ∈ ([(Instr.vabs, fun x => if x < 0 then -x else x), (Instr.vneg, fun x => -x)] : List ((VUn → Instr) × (Int → Int))),
    ∀ (a : VUn) (s : State) (signed : Bool), s.readsV a.x = true → s.readsV a.y = true →
      let t := a.fmt.getD s.me.vt
      t.int? = some signed →
      ∃ u, exec (e.1 a) s = .next u ∧ ElementStep s u a.x t.width (1024 / t.width)
        (isActive s a.prd t.width (min s.me.vl.toNat (1024 / t.width)))
        (fun i => ⟨wrapTo t.width (e.2 (intElem signed t.width (elem t.width (s.v a.y) i))), 0⟩) 0)

/-- Vector arithmetic on fp32, bf16 and fp16 elements rounds once, element by active element (R136, R134, R149, R47, Table
05-3). -/
def Obligations.vector_float_elements : Prop :=
  (∀ e ∈ ([
      (Instr.vadd, fun f m x y _ => f.finish m (FVal.add m x y)), (Instr.vsub, fun f m x y _ => f.finish m (FVal.add m x y.neg)),
      (Instr.vmul, fun f m x y _ => f.finish m (FVal.mul x y)), (Instr.vdiv, fun f m x y _ => f.finish m (FVal.div x y)),
      (Instr.vmin, fun _ _ x y _ => ⟨FVal.min x y, 0⟩), (Instr.vmax, fun _ _ x y _ => ⟨FVal.max x y, 0⟩)] :
      List ((VBin → Instr) × (FloatFmt → RMode → FVal → FVal → FVal → Flagged FVal))),
    ∀ (a : VBin) (s : State), s.readsV a.x = true → s.readsV a.y = true → s.readsVZ a.z = true →
      let t := a.fmt.getD s.me.vt
      ∀ f, t ∈ [Fmt.fp32, .bf16, .fp16] → t.float? = some f →
      let p (i : Nat) := elem t.width (s.v (if a.z.isSome then a.y else a.x)) i
      let q (i : Nat) := elem t.width (s.v (a.z.getD a.y)) i
      ∃ u, exec (e.1 a) s = .next u ∧ ElementStep s u a.x t.width (1024 / t.width)
        (isActive s a.prd t.width (min s.me.vl.toNat (1024 / t.width)))
        (fun i => let r := e.2 f (RMode.ofBits (s.me.fmtw.toNat / 2 ^ 14 % 4)) (f.decode (p i)) (f.decode (q i)) .nan
          ⟨f.encode r.val, r.flags⟩) 0) ∧
  (∀ e ∈ ([(Instr.vfma, fun z => z), (Instr.vfms, FVal.neg)] : List ((VBin → Instr) × (FVal → FVal))),
    ∀ (a : VBin) (s : State), s.readsV a.x = true → s.readsV a.y = true → s.readsVZ a.z = true →
      let t := a.fmt.getD s.me.vt
      ∀ f, t ∈ [Fmt.fp32, .bf16, .fp16] → t.float? = some f →
      let m := RMode.ofBits (s.me.fmtw.toNat / 2 ^ 14 % 4)
      let el (r : Idx) (i : Nat) : FVal := f.decode (elem t.width (s.v r) i)
      ∃ u, exec (e.1 a) s = .next u ∧ ElementStep s u a.x t.width (1024 / t.width)
        (isActive s a.prd t.width (min s.me.vl.toNat (1024 / t.width)))
        (fun i => let r := f.finish m (FVal.fma m (el a.y i) (el (a.z.getD a.y) i) (e.2 (el a.x i)))
          ⟨f.encode r.val, r.flags⟩) 0) ∧
  (∀ e ∈ ([(Instr.vabs, FVal.abs), (Instr.vneg, FVal.neg)] : List ((VUn → Instr) × (FVal → FVal))),
    ∀ (a : VUn) (s : State), s.readsV a.x = true → s.readsV a.y = true →
      let t := a.fmt.getD s.me.vt
      ∀ f, t ∈ [Fmt.fp32, .bf16, .fp16] → t.float? = some f →
      ∃ u, exec (e.1 a) s = .next u ∧ ElementStep s u a.x t.width (1024 / t.width)
        (isActive s a.prd t.width (min s.me.vl.toNat (1024 / t.width)))
        (fun i => ⟨f.encode (e.2 (f.decode (elem t.width (s.v a.y) i))), 0⟩) 0) ∧
  (∀ e ∈ ([(Instr.vexp, fexp), (Instr.vrcp, frcp), (Instr.vrsq, frsq), (Instr.verf, ferf)] :
      List ((VUn → Instr) × (RMode → FVal → Flagged FVal))),
    ∀ (a : VUn) (s : State), s.readsV a.x = true → s.readsV a.y = true → a.fmt.getD s.me.vt = .fp32 →
      ∃ u, exec (e.1 a) s = .next u ∧ ElementStep s u a.x 32 32 (isActive s a.prd 32 (min s.me.vl.toNat 32))
        (fun i => let r := e.2 (RMode.ofBits (s.me.fmtw.toNat / 2 ^ 14 % 4)) (fp32.decode (elem 32 (s.v a.y) i))
          ⟨fp32.encode r.val, r.flags⟩) 0)

/-- Vector compares and predicate instructions write every lane bit as R137 and R138 say (R137, R138, Table 05-4). -/
def Obligations.vector_compares_and_predicates : Prop :=
  (∀ e ∈ ([
      (Instr.vceq, fun x y => decide (x = y), fun x y => !x.isNan && !y.isNan && FVal.eq x y),
      (Instr.vcne, fun x y => decide (x ≠ y), fun x y => x.isNan || y.isNan || !FVal.eq x y),
      (Instr.vclt, fun x y => decide (x < y), fun x y => !x.isNan && !y.isNan && FVal.lt x y),
      (Instr.vcle, fun x y => decide (x ≤ y), fun x y => !x.isNan && !y.isNan && !FVal.lt y x),
      (Instr.vcgt, fun x y => decide (x > y), fun x y => !x.isNan && !y.isNan && FVal.lt y x),
      (Instr.vcge, fun x y => decide (x ≥ y), fun x y => !x.isNan && !y.isNan && !FVal.lt x y)] :
      List ((VTri → Instr) × (Int → Int → Bool) × (FVal → FVal → Bool))),
    ∀ (a : VTri) (s : State), a.x.val < 8 → s.readsV a.y = true → s.readsV a.z = true →
      let t := a.fmt.getD s.me.vt
      let w := t.width
      let act := isActive s a.prd w (min s.me.vl.toNat (1024 / w))
      (∀ signed, t.int? = some signed → ∃ u p, exec (e.1 a) s = .next u ∧ PredicateStep s u a.x p ∧
        ∀ i j, i < 1024 / w → j < w / 8 → p.getLsbD (i * (w / 8) + j) =
          (act i && e.2.1 (intElem signed w (elem w (s.v a.y) i)) (intElem signed w (elem w (s.v a.z) i)))) ∧
      (∀ f, t ∈ [Fmt.fp32, .bf16, .fp16] → t.float? = some f → ∃ u p, exec (e.1 a) s = .next u ∧ PredicateStep s u a.x p ∧
        ∀ i j, i < 1024 / w → j < w / 8 → p.getLsbD (i * (w / 8) + j) =
          (act i && e.2.2 (f.decode (elem w (s.v a.y) i)) (f.decode (elem w (s.v a.z) i))))) ∧
  (∀ e ∈ ([(Instr.pand, fun x y => x &&& y), (Instr.por, fun x y => x ||| y), (Instr.pxor, fun x y => x ^^^ y)] :
      List ((PBin → Instr) × (Word128 → Word128 → Word128))),
    ∀ (a : PBin) (s : State), a.x.val < 8 → a.y.val < 8 → a.z.all (fun z => decide (z.val < 8)) = true →
      ∃ u, exec (e.1 a) s = .next u ∧
        PredicateStep s u a.x (e.2 (s.me.pred (if a.z.isSome then a.y else a.x).val) (s.me.pred (a.z.getD a.y).val))) ∧
  (∀ (a : PUn) (s : State), a.x.val < 8 → a.y.val < 8 →
    ∃ u, exec (.pnot a) s = .next u ∧ PredicateStep s u a.x (BitVec.allOnes 128 ^^^ s.me.pred a.y.val)) ∧
  (∀ (a : Sys2Proof.PSet) (s : State), a.x.val < 8 → s.reads a.y = true → s.me.vt ≠ .fa56 →
    ∃ u p, exec (.pset a) s = .next u ∧ PredicateStep s u a.x p ∧
      ∀ i j, i < 1024 / s.me.vt.width → j < s.me.vt.width / 8 →
        p.getLsbD (i * (s.me.vt.width / 8) + j) = decide (i < (s.g a.y).toNat)) ∧
  (∀ (a : PCount) (s : State), s.reads a.x = true → a.y.val < 8 → s.me.vt ≠ .fa56 →
    let n := 1024 / s.me.vt.width
    let on (i : Nat) := (s.me.pred a.y.val).getLsbD (i * (s.me.vt.width / 8))
    (∃ u, exec (.pcnt a) s = .next u ∧ RegisterStep s u a.x (BitVec.ofNat 64 ((List.range n).countP on)) 0) ∧
    (∃ u k, exec (.pfirst a) s = .next u ∧ RegisterStep s u a.x (BitVec.ofNat 64 k) 0 ∧ k ≤ n ∧
      (∀ i, i < k → on i = false) ∧ (k < n → on k = true)))

/-- Reductions, extraction, broadcast, selection, permutation, slides, VSETT, VLEN and VIOTA complete with their value (R143,
R144, R150, R151, Table 05-7). -/
def Obligations.vector_reductions_and_movement : Prop :=
  (∀ e ∈ [(Instr.vrsum, VecOp.add), (Instr.vrmax, .max), (Instr.vrmin, .min)],
    ∀ (a : VRed) (s : State), s.reads a.x = true → s.readsV a.y = true → s.readsZ a.z = true →
      let t := a.fmt.getD s.me.vt
      let w := t.width
      acceptsArith t = true →
      let op (p q : Nat) := vecElem e.2 t (RMode.ofBits (s.me.fmtw.toNat / 2 ^ 14 % 4)) p q 0
      let l := (List.range (1024 / w)).map (fun i =>
        if isActive s a.prd w (min s.me.vl.toNat (1024 / w)) i then elem w (s.v a.y) i else redIdentity e.2 t)
      let tree := pairTree op (Nat.log2 (1024 / w)) l 0
      let last := op ((s.g (a.z.getD a.x)).toNat % 2 ^ w) tree.val
      ∃ u, exec (e.1 a) s = .next u ∧ RegisterStep s u a.x (extendElem t last.val) (tree.flags ||| last.flags)) ∧
  (∀ (a : VExt) (s : State), s.reads a.x = true → s.readsV a.y = true → s.readsZ a.z = true →
    let t := a.fmt.getD s.me.vt
    let k := (s.g (a.z.getD a.x)).toNat
    t ≠ .fa56 → ∃ u, exec (.vext a) s = .next u ∧
      RegisterStep s u a.x (if k < 1024 / t.width then extendElem t (elem t.width (s.v a.y) k) else 0) 0) ∧
  (∀ (a : VBcst) (s : State), s.readsV a.x = true → s.reads a.y = true → s.readsZ a.z = true →
    let t := a.fmt.getD s.me.vt
    let w := t.width
    let act := isActive s a.prd w (min s.me.vl.toNat (1024 / w))
    (a.z = none → t ≠ .fa56 → ∃ u, exec (.vbcst a) s = .next u ∧
      ElementStep s u a.x w (1024 / w) act (fun _ => ⟨(s.g a.y).toNat % 2 ^ w, 0⟩) 0) ∧
    (∀ z, a.z = some z → acceptsArith t = true → ∃ u, exec (.vbcst a) s = .next u ∧
      ElementStep s u a.x w (1024 / w) act (fun i =>
        rampElem t (RMode.ofBits (s.me.fmtw.toNat / 2 ^ 14 % 4)) ((s.g a.y).toNat % 2 ^ w) ((s.g z).toNat % 2 ^ w) i) 0)) ∧
  (∀ (a : VBin) (s : State), s.readsV a.x = true → s.readsV a.y = true → s.readsVZ a.z = true →
    let t := a.fmt.getD s.me.vt
    let w := t.width
    let n := 1024 / w
    let act := isActive s a.prd w (min s.me.vl.toNat n)
    t ≠ .fa56 →
    (∃ u, exec (.vsel a) s = .next u ∧ ElementStep s u a.x w n (fun i => if a.z.isSome then decide (i < min s.me.vl.toNat n) else act i)
      (fun i => ⟨if act i then elem w (s.v a.y) i else elem w (s.v (a.z.getD a.y)) i, 0⟩) 0) ∧
    (∃ u, exec (.vperm a) s = .next u ∧ ElementStep s u a.x w n act (fun i =>
      let j := elem w (s.v (a.z.getD a.y)) i
      ⟨if j < n then elem w (s.v (if a.z.isSome then a.y else a.x)) j else 0, 0⟩) 0)) ∧
  (∀ (x y : Idx) (d : GReg) (f : Option Fmt) (q : Option Prd) (s : State), s.readsV x = true → s.readsV y = true → s.reads d = true →
    let t := f.getD s.me.vt
    let w := t.width
    let n := 1024 / w
    t ≠ .fa56 →
    ∀ e ∈ [(Instr.vslide ⟨x, .own d, f, q⟩, x), (Instr.vslide ⟨x, .other y d, f, q⟩, y)],
      ∃ u, exec e.1 s = .next u ∧ ElementStep s u x w n (isActive s q w (min s.me.vl.toNat n)) (fun i =>
        let j := (i : Int) + (s.g d).toInt
        ⟨if 0 ≤ j ∧ j < n then elem w (s.v e.2) j.toNat else 0, 0⟩) 0) ∧
  (∀ (a : VSet) (s : State), s.reads a.x = true → s.reads a.y = true → a.fmt.getD s.me.vt ≠ .fa56 →
    let t := a.fmt.getD s.me.vt
    let k := min (s.g a.y).toNat (1024 / t.width)
    ∃ v u, exec (.vsett a) s = .next u ∧ RegisterStep v u a.x (BitVec.ofNat 64 k) 0 ∧
      ContextStep s v { s.me with fmtw := (s.me.fmtw &&& 0xF0FF) ||| (BitVec.ofNat 16 t.code <<< 8), vl := BitVec.ofNat 8 k }) ∧
  (∀ (a : VLen) (s : State), s.reads a.x = true → a.fmt.getD s.me.vt ≠ .fa56 →
    ∃ u, exec (.vlen a) s = .next u ∧ RegisterStep s u a.x (BitVec.ofNat 64 (1024 / (a.fmt.getD s.me.vt).width)) 0) ∧
  (∀ (a : VIota) (s : State), s.readsV a.x = true → acceptsArith (a.fmt.getD s.me.vt) = true →
    let t := a.fmt.getD s.me.vt
    ∃ u, exec (.viota a) s = .next u ∧
      ElementStep s u a.x t.width (1024 / t.width) (fun i => decide (i < min s.me.vl.toNat (1024 / t.width)))
        (fun i => match t.float? with
          | some f => ⟨f.encode (FVal.ofInt i), 0⟩
          | none => ⟨i, 0⟩) 0)

/-- VCVT, VPACK, VQDS and VUNPK complete with their converted elements and blocks and the flags of the conversions; the types they do not
accept take ILLCOMBO. That a zero converted by VCVT or VPACK keeps its sign is the model's choice (log entry 109) (R145, R146, R147, R148). -/
def Obligations.vector_conversions : Prop :=
  ∀ (a : VUn) (s : State), s.readsV a.x = true → s.readsV a.y = true →
    let m := RMode.ofBits (s.me.fmtw.toNat / 2 ^ 14 % 4)
    let t := s.me.vt
    let r := a.fmt.getD s.me.vt
    let combo (i : Instr) : Prop := s.me.tvec ≠ 0 → s.me.intrap = false → ∃ u, exec i s = .next u ∧ TrapStep s u 0x02 0 0
    (t ≠ .fa56 → t ≠ .m64 → r ≠ .fa56 → r ≠ .m64 →
      ∃ u, exec (.vcvt a) s = .next u ∧ ElementStep s u a.x r.width (1024 / r.width)
        (isActive s a.prd t.width (min s.me.vl.toNat (min (1024 / t.width) (1024 / r.width))))
        (fun i => convertElem t r m (elem t.width (s.v a.y) i)) 0) ∧
    (t = .fa56 ∨ t = .m64 ∨ r = .fa56 ∨ r = .m64 → combo (.vcvt a)) ∧
    (t ≠ .fp32 → combo (.vpack a) ∧ combo (.vqds a) ∧ combo (.vunpk a)) ∧
    (a.fmt ≠ some .e4m3 → a.fmt ≠ some .e5m2 → combo (.vpack a)) ∧
    (a.fmt ≠ none → a.fmt ≠ some .ds8 → combo (.vqds a)) ∧
    (a.fmt ≠ some .e4m3 → a.fmt ≠ some .e5m2 → a.fmt ≠ some .ds8 → combo (.vunpk a)) ∧
    (t = .fp32 →
      let act := isActive s a.prd 32 (min s.me.vl.toNat 32)
      let val (i : Nat) : FVal := fp32.decode (elem 32 (s.v a.y) i)
      let actives := ((List.range 32).filter act).map val
      let packed (i : Instr) (scale : Nat) (f : Nat → Flagged Nat) : Prop := ∃ u w, exec i s = .next u ∧
        VectorStep s u a.x w ((List.range 32).foldl (fun g i => g ||| (f i).flags) 0) ∧ elem 8 w 32 = scale ∧
        (∀ i, 264 ≤ i → w.getLsbD i = (s.v a.x).getLsbD i) ∧ (∀ i, i < 32 → elem 8 w i = (f i).val % 256)
      (∀ f q, (f = Fmt.e4m3 ∧ q = e4m3) ∨ (f = Fmt.e5m2 ∧ q = e5m2) → a.fmt = some f →
        let scale := blockScale (some q) actives
        packed (.vpack a) scale (fun i =>
          if act i then
            if scale = 255 then ⟨q.nan, 0⟩
            else
              let x := convertSmall q m ((val i).scale (127 - (scale : Int)))
              ⟨q.encode x.val, x.flags⟩
          else ⟨0x00, 0⟩)) ∧
      (a.fmt = none ∨ a.fmt = some .ds8 →
        let scale := blockScale none actives
        packed (.vqds a) scale (fun i => if act i then roundDs8 ((val i).scale (127 - (scale : Int))) else ⟨0x77, 0⟩)) ∧
      (∀ f ∈ [Fmt.e4m3, .e5m2, .ds8], a.fmt = some f →
        let e := elem 8 (s.v a.y) 32
        ∃ u, exec (.vunpk a) s = .next u ∧ ElementStep s u a.x 32 32 act (fun i =>
          if e = 255 then ⟨0x7FC00000, 0⟩
          else
            let x := fp32.roundVal m ((fmtValue f (elem 8 (s.v a.y) i)).scale ((e : Int) - 127))
            ⟨fp32.encode x.val, x.flags⟩) 0))

/-- A vector load writes the bytes read for each active element and leaves the other elements as they were, at once or with the reply that
is then due; of the own TCM through its window it completes at once (R139, R140, R142, R134, R212). -/
def Obligations.vector_loads : Prop :=
  (∀ (s : State) (e : Instr × Idx × GReg × Bool × Option Fmt × Option Prd × Option OrdQ × Word × (Nat → Nat → Word)),
    ((∃ a : VMem, e = (.vld a, a.x, a.y, s.readsZ a.z, a.fmt, a.prd, a.ord, a.imm, fun size i =>
        BitVec.ofNat 64 (i * size) + match a.z with | some z => 128 * s.g z | none => 0) ∨
      e = (.vlds a, a.x, a.y, s.readsZ a.z, a.fmt, a.prd, a.ord, a.imm, fun size i =>
        match a.z with | some z => BitVec.ofNat 64 (i * size) * s.g z | none => BitVec.ofNat 64 (i * size))) ∨
     (∃ a : VGather, e = (.vgath a, a.x, a.y, s.readsVZ a.z, a.fmt, a.prd, a.ord, a.imm, fun size i =>
        match a.z with
        | some z => BitVec.ofInt 64 (size * signedOf (8 * size) (elem (8 * size) (s.v z) i))
        | none => BitVec.ofNat 64 (i * size)))) →
      let (i, x, y, zOk, f, q, ord, imm, off) := e
      let t := f.getD s.me.vt
      let w := t.width
      let size := w / 8
      let act := isActive s q w (min s.me.vl.toNat (1024 / w))
      let va (k : Nat) : Nat := (s.g y + imm + off size k).toNat
      let pa (k : Nat) : Nat := (s.tcmPlace (va k)).pa
      s.readsV x = true → s.reads y = true → zOk = true → t ≠ .fa56 →
      (∀ (s1 s2 : State) (es : List ElemAt) (got : List (Nat × List Byte)) (now : Bool),
        checkElems size ⟨0, false, true, !s.me.pl⟩ s (((List.range (1024 / w)).filter act).map (fun k => (k, va k))) = .ok (s1, es) →
        es.all (fun m => !isRemote s1.cur m.place) = true →
        readElems s1.cur size (policyOf ord) (acquireOf s1 ord) es = .ok (s2, got, now) → s2.cur = s1.cur →
        got.all (fun g => g.2.length == size) = true →
        (es = [] → ∃ u, exec i s = .next u ∧ NextStep (acquireOf s1 ord) u) ∧
        (es ≠ [] → now = true → ∃ u r, exec i s = .next u ∧ VectorStep s2 u x r 0 ∧
          ∀ k, k < 1024 / w → elem w r k = match got.lookup k with
            | some bs => leNat (bs.take size) % 2 ^ w
            | none => elem w (s2.v x) k) ∧
        (es ≠ [] → now = false → exec i s = .next ((block s2 s1.cur .wmem
          (.reply (.vector x.val size (got.map (·.1)) false) (got.flatMap (·.2)) 0)).cause (.loadReply s1.cur)))) ∧
      ((∀ k, k < 1024 / w → act k = true → s.inTcm (va k) size ∧ va k % size = 0 ∧ s.intact (va k) size ∧
          newestOverlap s.me (pa k) size = none) →
        let s1 := acquireOf s ord
        ∃ u r, exec i s = .next u ∧ VectorStep s1 u x r 0 ∧
          ∀ k, k < 1024 / w → elem w r k = if act k then leNat (homeBytes s1 0 (pa k) size) else elem w (s.v x) k)) ∧
  (∀ (s : State) (a : VMem),
    let t := a.fmt.getD s.me.vt
    let w := t.width
    let size := w / 8
    let act := isActive s a.prd w (min s.me.vl.toNat (1024 / w))
    let va := effAddr s a.y a.z a.imm size
    s.readsV a.x = true → s.reads a.y = true → s.readsZ a.z = true → t ≠ .fa56 →
    ((List.range (1024 / w)).any act = false → ∃ u, exec (.vldb a) s = .next u ∧ NextStep (acquireOf s a.ord) u) ∧
    ((List.range (1024 / w)).any act = true →
      (∀ (s1 s2 : State) (m : ElemAt) (bs : List Byte), checkElems size ⟨0, false, true, !s.me.pl⟩ s [(0, va)] = .ok (s1, [m]) →
        isRemote s1.cur m.place = false →
        readPlace (acquireOf s1 a.ord) s1.cur m.place size (policyOf a.ord) = .ok (s2, bs, true) → s2.cur = s1.cur →
        bs.length = size →
        ∃ u r, exec (.vldb a) s = .next u ∧ VectorStep s2 u a.x r 0 ∧
          ∀ k, k < 1024 / w → elem w r k = if act k then leNat bs else elem w (s2.v a.x) k) ∧
      (s.inTcm va size → va % size = 0 → s.intact va size → newestOverlap s.me (s.tcmPlace va).pa size = none →
        let s1 := acquireOf s a.ord
        ∃ u r, exec (.vldb a) s = .next u ∧ VectorStep s1 u a.x r 0 ∧
          ∀ k, k < 1024 / w → elem w r k = if act k then leNat (homeBytes s1 0 (s.tcmPlace va).pa size) else elem w (s.v a.x) k)))

/-- A vector store issues its active elements in increasing number, each at its own address, and changes no byte of memory yet; with a
release at `.ha` or wider, made with engine order where ORD[2] asks for it, each is performed as it issues (R141, R142, R139, R116, R309,
R312, R316, R294). -/
def Obligations.vector_stores : Prop :=
  ∀ (s : State) (e : Instr × Idx × GReg × Bool × Option Fmt × Option Prd × Option OrdQ × Word × (Nat → Nat → Word)),
    ((∃ a : VMem, e = (.vst a, a.x, a.y, s.readsZ a.z, a.fmt, a.prd, a.ord, a.imm, fun size i =>
        BitVec.ofNat 64 (i * size) + match a.z with | some z => 128 * s.g z | none => 0) ∨
      e = (.vsts a, a.x, a.y, s.readsZ a.z, a.fmt, a.prd, a.ord, a.imm, fun size i =>
        match a.z with | some z => BitVec.ofNat 64 (i * size) * s.g z | none => BitVec.ofNat 64 (i * size))) ∨
     (∃ a : VGather, e = (.vscat a, a.x, a.y, s.readsVZ a.z, a.fmt, a.prd, a.ord, a.imm, fun size i =>
        match a.z with
        | some z => BitVec.ofInt 64 (size * signedOf (8 * size) (elem (8 * size) (s.v z) i))
        | none => BitVec.ofNat 64 (i * size)))) →
      let (i, x, y, zOk, f, q, ord, imm, off) := e
      let t := f.getD s.me.vt
      let w := t.width
      let size := w / 8
      let act := isActive s q w (min s.me.vl.toNat (1024 / w))
      let va (k : Nat) : Nat := (s.g y + imm + off size k).toNat
      let entry (rel : Bool) (m : ElemAt) : QStore :=
        ⟨m.va, m.place, leBytes size (elem w (s.v x) m.i), rel, (ord.map (·.scope)).getD .th, policyOf ord, none⟩
      let issued (s1 u : State) (rel : Bool) (es : List ElemAt) : Prop :=
        u = { s1 with ctxs := u.ctxs, due := s1.due ++ es.map (fun _ => .storePerform s1.cur) } ∧
        (∀ key a, homeByte u key a = homeByte s1 key a) ∧ (∀ c, c ≠ s1.cur → u.ctx c = s1.ctx c) ∧
        u.me = { s1.me with
          storeQ := s1.me.storeQ ++ es.map (entry rel), tbm := es.foldl (fun b m => b ||| tbmBit s1.cur m.place) s1.me.tbm,
          pc := s1.me.nextPc, walked := [], missed := none, saved := none }
      let room (s1 : State) (n : Nat) : Prop := s1.me.storeQ.length + n ≤ 32 ∧ forwardCount s1 (ctxStall s1.cur) + n ≤ 16
      s.readsV x = true → s.reads y = true → zOk = true → t ≠ .fa56 →
      (∀ (s1 : State) (es : List ElemAt),
        checkElems size ⟨1, true, true, !s.me.pl⟩ s (((List.range (1024 / w)).filter act).map (fun k => (k, va k))) = .ok (s1, es) →
        es.all (fun m => !isRemote s1.cur m.place) = true → s1.cur = s.cur →
        let c := s1.cur
        let r := s1.released (engineOf ord) (releaseOf ord)
        (releaseOf ord = none → room s1 es.length → ∃ u, exec i s = .next u ∧ issued s1 u false es) ∧
        (∀ sc, releaseOf ord = some sc →
          (Scope.le .ha sc = false → room s1 es.length → ∃ u, exec i s = .next u ∧ issued (narrowRelease s1 c sc) u true es) ∧
          (Scope.le .ha sc = true → s1.canRelease true (some sc) → r.cur = c → exec i s = .next (drain (es.foldl (fun t m =>
            (performThrough t c (entry true m)).upd (fun v => { v with tbm := v.tbm ||| tbmBit c m.place })) r) c).advance))) ∧
      ((∀ k, k < 1024 / w → act k = true → s.inTcm (va k) size ∧ va k % size = 0) → releaseOf ord = none →
        room s ((List.range (1024 / w)).countP act) →
        ∃ u, exec i s = .next u ∧ issued s u false (((List.range (1024 / w)).filter act).map (fun k => ⟨k, va k, s.tcmPlace (va k)⟩)))

/-- Moment arithmetic writes the steps of its rule to each active moment element. That MMK without THR makes a NaN mean canonical is read by
inference (log entry 46, DEDUCED) (R180, R183, R185, R188, R189, R190, R191, R192, R193, R194, R195). -/
def Obligations.moment_elements : Prop :=
  (∀ e ∈ [(Instr.madd, stepMadd), (.msub, stepMsub), (.mmul, stepMmul)],
    ∀ (a : MBin) (s : State), s.readsV a.x = true → s.readsV a.y = true → s.readsVZ a.z = true →
      let act := isActive s a.prd 64 (min s.me.vl.toNat 16)
      let mode := covMode s.me
      let p (i : Nat) := decodeMoment (elem 64 (s.v (if a.z.isSome then a.y else a.x)) i)
      let q (i : Nat) := decodeMoment (elem 64 (s.v (a.z.getD a.y)) i)
      ∃ u, exec (e.1 a) s = .next u ∧ ElementStep s u a.x 64 16 act (fun i =>
          if (p i).mean.isNan || (q i).mean.isNan then ⟨0x7FC00000, 0⟩
          else
            let r := runSteps (do
              let va ← fixVar (p i).var
              let vb ← fixVar (q i).var
              let m ← e.2 mode.val ⟨(p i).mean, va⟩ ⟨(q i).mean, vb⟩
              let v ← fixVar m.var
              pure (⟨m.mean, v⟩ : Moment))
            ⟨encodeMoment r.val, r.flags⟩)
        (if (List.range 16).any act then mode.flags else 0)) ∧
  (∀ e ∈ ([
      (Instr.mscl, fun k _ => stepMscl k), (Instr.maff, fun k b => stepMaff k b)] :
      List ((MTri → Instr) × (FVal → FVal → Moment → StepM Moment))),
    ∀ (a : MTri) (s : State), s.readsV a.x = true → s.readsV a.y = true → s.readsV a.z = true →
      ∃ u, exec (e.1 a) s = .next u ∧
        ElementStep s u a.x 64 16 (isActive s a.prd 64 (min s.me.vl.toNat 16)) (fun i =>
          let m := decodeMoment (elem 64 (s.v a.y) i)
          if m.mean.isNan then ⟨0x7FC00000, 0⟩
          else
            let r := runSteps (do
              let v ← fixVar m.var
              let n ← e.2 (fp32.decode (elem 32 (s.v a.z) i)) (fp32.decode (elem 32 (s.v a.z) (16 + i))) ⟨m.mean, v⟩
              let v' ← fixVar n.var
              pure (⟨n.mean, v'⟩ : Moment))
            ⟨encodeMoment r.val, r.flags⟩) 0) ∧
  (∀ e ∈ [(Instr.mneg, stepMneg), (.mrelu, stepMrelu), (.mexp, stepMexp), (.msig, stepMsig), (.msqr, stepMsqr)],
    ∀ (a : MUn) (s : State), s.readsV a.x = true → s.readsV a.y = true →
      ∃ u, exec (e.1 a) s = .next u ∧
        ElementStep s u a.x 64 16 (isActive s a.prd 64 (min s.me.vl.toNat 16)) (fun i =>
          let m := decodeMoment (elem 64 (s.v a.y) i)
          if m.mean.isNan then ⟨0x7FC00000, 0⟩
          else
            let r := runSteps (do
              let v ← fixVar m.var
              let n ← e.2 ⟨m.mean, v⟩
              let v' ← fixVar n.var
              pure (⟨n.mean, v'⟩ : Moment))
            ⟨encodeMoment r.val, r.flags⟩) 0) ∧
  (∀ (a : MBin) (s : State), s.readsV a.x = true → s.readsV a.y = true → s.readsVZ a.z = true →
      ∃ u, exec (.mmk a) s = .next u ∧
        ElementStep s u a.x 64 16 (isActive s a.prd 64 (min s.me.vl.toNat 16)) (fun i =>
          let mean := fp32.decode (elem 32 (s.v a.y) i)
          let var := match a.z with
            | some z => fp32.decode (elem 32 (s.v z) i)
            | none => .fin false 0 0
          if mean.isNan then ⟨0x7FC00000, 0⟩
          else if var.isNan || (var.isNeg && !var.isZero) then ⟨fp32.encode mean, flagNV⟩
          else if var.isZero then ⟨fp32.encode mean, 0⟩
          else ⟨fp32.encode mean + 2 ^ 32 * fp32.encode var, 0⟩) 0)

/-- MMEAN, MVAR, MCOL, MSUM and MCHK take means, variances, bounds, samples, the sum and the faults of moments. That MCOL in mode MEAN
prepares its operand by R183, and that MVAR gives +0 for a NaN mean, is read by inference (log entry 46, DEDUCED) (R183, R195, R196, R197,
R198, R199). -/
def Obligations.moment_reductions_and_parts : Prop :=
  (∀ (a : MUn) (s : State), s.readsV a.x = true → s.readsV a.y = true →
    let act (i : Nat) := decide (i < 16) && isActive s a.prd 64 (min s.me.vl.toNat 16) i
    (∃ u, exec (.mmean a) s = .next u ∧ ElementStep s u a.x 32 32 act (fun i => ⟨elem 64 (s.v a.y) i % 2 ^ 32, 0⟩) 0) ∧
    (∃ u, exec (.mvar a) s = .next u ∧ ElementStep s u a.x 32 32 act (fun i =>
      let m := decodeMoment (elem 64 (s.v a.y) i)
      if m.mean.isNan then ⟨0, 0⟩
      else if m.var.isNan || (m.var.isNeg && !m.var.isZero) then ⟨0, flagNV⟩
      else if m.var.isZero then ⟨0, 0⟩
      else ⟨fp32.encode m.var, 0⟩) 0)) ∧
  (∀ (a : MCol) (s : State), s.readsV a.x = true → s.readsV a.y = true → s.readsZ (a.z.map (·.2)) = true →
    let mode := (a.z.map (·.1)).getD .mean
    let k := match a.z with
      | some (_, r) => fp32.decode ((s.g r).toNat % 2 ^ 32)
      | none => .fin false 0 0
    let z (i : Nat) := if mode = .sample then normalVariate s.me.mseed i s.me.ttag.toNat a.y.val else .fin false 0 0
    ∃ u, exec (.mcol a) s = .next u ∧
      ElementStep s u a.x 32 32 (fun i => decide (i < 16) && isActive s a.prd 64 (min s.me.vl.toNat 16) i) (fun i =>
        let r := runSteps (stepMcol mode k (z i) (decodeMoment (elem 64 (s.v a.y) i)))
        ⟨fp32.encode r.val, r.flags⟩) 0) ∧
  (∀ (a : MSum) (s : State), s.reads a.x = true → s.readsV a.y = true → s.readsZ a.z = true →
    let l := (List.range 16).map (fun i =>
      if isActive s a.prd 64 (min s.me.vl.toNat 16) i then some (decodeMoment (elem 64 (s.v a.y) i)) else none)
    let r := runSteps (sumMoments l (decodeMoment (s.g (a.z.getD a.x)).toNat))
    ∃ u, exec (.msum a) s = .next u ∧ RegisterStep s u a.x (BitVec.ofNat 64 (encodeMoment r.val)) r.flags) ∧
  (∀ (a : MChk) (s : State), s.reads a.x = true → s.readsV a.y = true →
    ∃ u w, exec (.mchk a) s = .next u ∧ RegisterStep s u a.x w 0 ∧ ∀ i, i < 16 →
      let m := decodeMoment (elem 64 (s.v a.y) i)
      let act := isActive s a.prd 64 (min s.me.vl.toNat 16) i
      w.getLsbD i = (act && (m.var.isNan || (m.var.isNeg && !m.var.isZero))) ∧ w.getLsbD (16 + i) = (act && m.mean.isNan) ∧
      w.getLsbD (32 + i) = (act && (m.var.isInf && !m.var.isNeg)) ∧ w.getLsbD (48 + i) = false)

/-- AACQ grants the lowest free pair, AREL gives it back cleared, AZERO and ASCALE set a bank of it; without a pair AREL changes nothing
(R158, R159, R160, Table 06-5). -/
def Obligations.accumulator_pairs : Prop :=
  ∀ (s : State),
    let k := s.myStall
    (∀ (a : GOne), s.reads a.x = true →
      (∀ p, s.held s.cur = some p → ∃ u, exec (.aacq a) s = .next u ∧ RegisterStep s u a.x (BitVec.ofNat 64 p) 0) ∧
      (s.held s.cur = none → pairBudgetSpent s s.cur = true →
        ∃ u, exec (.aacq a) s = .next u ∧ RegisterStep s u a.x (BitVec.ofInt 64 (-2)) 0) ∧
      (s.held s.cur = none → pairBudgetSpent s s.cur = false →
        (∀ p, p < 4 → (k.pair p).holder = none → (k.pair p).clearing = false →
          (∀ q, q < p → (k.pair q).holder ≠ none ∨ (k.pair q).clearing = true) →
          ∃ u, exec (.aacq a) s = .next u ∧ RegisterStep
            (s.updStall (ctxStall s.cur) (fun v => v.setPair p ⟨some s.cur, false, false, false, 0x3F800000, 0x3F800000⟩))
            u a.x (BitVec.ofNat 64 p) 0) ∧
        ((∀ p, p < 4 → (k.pair p).holder ≠ none ∨ (k.pair p).clearing = true) →
          ∃ u, exec (.aacq a) s = .next u ∧ RegisterStep s u a.x (BitVec.ofInt 64 (-1)) 0))) ∧
    (s.held s.cur = none → ∃ u, exec .arel s = .next u ∧ NextStep s u) ∧
    (∀ p, s.held s.cur = some p →
      (banksBusy s (ctxStall s.cur) [(p, 0), (p, 1)] = false →
        ∃ u v, exec .arel s = .next u ∧ StallStep s u v [.pairClearDone (ctxStall s.cur) p] 0 ∧
          v = { k.setPair p ⟨none, true, false, false, 0x3F800000, 0x3F800000⟩ with acc := v.acc } ∧
          (∀ bank i, bank < 2 → i < 4096 → (bankCells v p bank).getD i 0 = 0) ∧ keepsBanks k v [(p, 0), (p, 1)]) ∧
      (∀ (a : AZero), a.x.val < 2 → banksBusy s (ctxStall s.cur) [(p, a.x.val)] = false →
        ∃ u v, exec (.azero a) s = .next u ∧ StallStep s u v [] 0 ∧
          v = { k.setPair p (((k.pair p).setMode a.x.val a.q56).setScale a.x.val 0x3F800000) with acc := v.acc } ∧
          (∀ i, i < 4096 → (bankCells v p a.x.val).getD i 0 = 0) ∧ keepsBanks k v [(p, a.x.val)]) ∧
      (∀ (a : IG), a.x.val < 2 → s.reads a.y = true → banksBusy s (ctxStall s.cur) [(p, a.x.val)] = false →
        ∃ u, exec (.ascale a) s = .next u ∧
          StallStep s u (k.setPair p ((k.pair p).setScale a.x.val (BitVec.truncate 32 (s.g a.y)))) [] 0)) ∧
    (∀ j p, ∃ u, exec (.pairClearDone j p) s = .next u ∧ ((u.stall j).pair p).clearing = false ∧
      u = { s.updStall j (fun v => v.setPair p { v.pair p with clearing := false }) with due := u.due } ∧
      ∀ c, (s.ctx c).waitsForPair = true → ctxStall c = j → c ∈ s.ctxs.map (·.1) → .resumeContinuation c ∈ u.due)

/-- AROWV writes scaled cells of a row to a vector register, AVROW elements of one to the cells of a row, with the flags of every element;
the types they do not accept take ILLCOMBO. The flags of AVROW's integer elements (log entry 107), an infinite or NaN scaled q56 cell
(log entry 110) and REASON 1 (log entry 49) are the model's choices (R162, R163). -/
def Obligations.accumulator_rows : Prop :=
  ∀ (s : State) (a : IIG) (p : Nat),
    let k := s.myStall
    let z := (s.g a.z).toNat
    let row := z / 64 % 64
    let col := z % 64
    let t := s.me.vt
    let w := t.width
    let m := RMode.ofBits (s.me.fmtw.toNat / 2 ^ 14 % 4)
    let combo (i : Instr) : Prop := s.me.tvec ≠ 0 → s.me.intrap = false → ∃ u, exec i s = .next u ∧ TrapStep s u 0x02 1 0
    s.held s.cur = some p → s.reads a.z = true →
    (s.readsV a.x = true → a.y.val < 2 →
      ((t.int?.isSome || t == .fp32 || t == .bf16 || t == .fp16) = true → banksBusy s (ctxStall s.cur) [(p, a.y.val)] = false →
        ∃ u, exec (.arowv a) s = .next u ∧ ElementStep s u a.x w (1024 / w) (fun _ => true) (fun i =>
          if 64 ≤ col + i then ⟨0, 0⟩
          else rowElem t ((k.pair p).mode a.y.val) m
            (scaledCell (k.pair p) a.y.val ((bankCells k p a.y.val).getD (64 * row + col + i) 0))) 0) ∧
      ((t.int?.isSome || t == .fp32 || t == .bf16 || t == .fp16) = false → combo (.arowv a))) ∧
    (a.x.val < 2 → s.readsV a.y = true →
      let cell (i : Nat) : Flagged (BitVec 56) := cellOf t ((k.pair p).mode a.x.val) (elem w (s.v a.y) i)
      let n := min (1024 / w) (64 - col)
      (t ≠ .m64 → t ≠ .fa56 → ((k.pair p).mode a.x.val = true → t.int?.isSome = true) →
        banksBusy s (ctxStall s.cur) [(p, a.x.val)] = false →
        ∃ u v, exec (.avrow a) s = .next u ∧ StallStep s u v [] ((List.range n).foldl (fun g i => g ||| (cell i).flags) 0) ∧
          v = { k with acc := v.acc } ∧ keepsBanks k v [(p, a.x.val)] ∧
          (∀ i, i < 4096 → (bankCells v p a.x.val).getD i 0 =
            if 64 * row + col ≤ i ∧ i < 64 * row + col + n then (cell (i - (64 * row + col))).val
            else (bankCells k p a.x.val).getD i 0)) ∧
      (t = .m64 ∨ t = .fa56 ∨ ((k.pair p).mode a.x.val = true ∧ t.int?.isSome = false) → combo (.avrow a)))

/-- MMA, MMAZ, MMAH, MMAZH, MMAM and the solvers enter their class queue with the operands checked at issue, behind the stores already
issued, and wait while the queue is full; operands in the own TCM pass the checks on their descriptors alone (R164, R165, R166, R175,
R202). -/
def Obligations.matrix_commands_accepted : Prop :=
  ∀ (s s1 : State) (ts : List Tlb),
    let tile (i : Nat) : Word128 := s.me.tile i
    let st := s1.myStall
    let accepted (i : Instr) (x : Cmd) (solver : Bool) : Prop :=
      (4 ≤ (queueOf st x.high).length → exec i s = .next ((unitEvents (ctxStall s1.cur)).foldl State.causeOnce s.stay)) ∧
      ((queueOf st x.high).length < 4 → storeHeldBy (drain s1 s1.cur) s1.cur = none →
        ∃ u, exec i s = .next u ∧ CommandEntered (drain s1 s1.cur) u { x with seq := s1.tick, trans := ts } solver)
    let cmd (kind : CmdKind) (high : Bool) (pair bank : Nat) (x y : Word128) : Cmd :=
      ⟨0, kind, high, s.cur, pair, bank, x, y, 0, 0, 0, s.me.sclp, none, [], []⟩
    let inTcm (us : List Tile) : Prop := s.cur < ctxLimit ∧ s1 = s ∧ ts = [] ∧ ∀ t ∈ us, t.plainTcm
    s1.cur = s.cur → s1.me = s.me →
    (∀ p, s.held s.cur = some p →
      (∀ e ∈ ([(Instr.mma, false, false), (Instr.mmaz, true, false), (Instr.mmah, false, true), (Instr.mmazh, true, true)] :
          List ((ITri → Instr) × Bool × Bool)),
        ∀ (a : ITri), a.x.val < 2 → a.y.val < 8 → a.z.val < 8 →
          let ta := tileOf (tile a.y.val)
          let tb := tileOf (tile a.z.val)
          checkMma translate false s s.cur p a.x.val ta tb s.me.sclp = .ok (s1, ts) ∨
            (inTcm [ta, tb] ∧ mmaPairing ta.fmt tb.fmt = some ((s.myStall.pair p).mode a.x.val) ∧ ta.cols = tb.rows ∧
              ta.cols % groupSize ta.fmt tb.fmt = 0 ∧ ta.rows ≤ 64 ∧ tb.cols ≤ 64) →
          accepted (e.1 a) (cmd (.mma e.2.1) e.2.2 p a.x.val (tile a.y.val) (tile a.z.val)) false) ∧
      (∀ (a : II), a.x.val < 8 → a.y.val < 8 →
        let ta := tileOf (tile a.x.val)
        let tb := tileOf (tile a.y.val)
        checkMma translate true s s.cur p 0 ta tb s.me.sclp = .ok (s1, ts) ∨
          (inTcm [ta, tb] ∧ mmamPairing ta.fmt tb.fmt ≠ none ∧ ta.cols = tb.rows ∧ ta.cols % groupSize ta.fmt tb.fmt = 0 ∧
            ta.rows ≤ 64 ∧ tb.cols ≤ 64 ∧ (s.myStall.pair p).q0 = false ∧ (s.myStall.pair p).q1 = false ∧ s.me.mmode = 0) →
        accepted (.mmam a) (cmd .mmam false p 0 (tile a.x.val) (tile a.y.val)) false)) ∧
    (let fits (shapes : List (Nat × Word128 × Bool × Bool)) : Prop :=
       ((∀ e ∈ shapes, solverCombo (solverUse e.1 (tileOf e.2.1) e.2.2.1) e.2.2.2 = .ok ()) ∧
         checkTiles translate s s.cur 0 (shapes.map (fun e => solverUse e.1 (tileOf e.2.1) e.2.2.1)) = .ok (s1, ts)) ∨
       (inTcm (shapes.map (fun e => tileOf e.2.1)) ∧ ∀ e ∈ shapes, (tileOf e.2.1).fmt = .fp32 ∧ e.2.2.2 = true)
     (∀ (a : MChol), a.x.val < 8 → s.readsZ a.z = true →
        let x := tileOf (tile a.x.val)
        fits [(0, tile a.x.val, true, x.rows == x.cols && decide (x.rows ≤ 64))] →
        accepted (.mchol a) { cmd .chol false 4 0 (tile a.x.val) 0 with dest := a.z } true) ∧
      (∀ e ∈ [(Instr.mtrsl, CmdKind.trsl), (Instr.mtrsu, .trsu)], ∀ (a : II), a.x.val < 8 → a.y.val < 8 →
        let x := tileOf (tile a.x.val)
        let y := tileOf (tile a.y.val)
        fits [(0, tile a.x.val, false, x.rows == x.cols), (1, tile a.y.val, true, y.rows == x.rows && decide (y.cols ≤ 64))] →
        accepted (e.1 a) (cmd e.2 false 4 0 (tile a.x.val) (tile a.y.val)) true) ∧
      (∀ (a : IIG), a.x.val < 8 → a.y.val < 8 → s.reads a.z = true →
        let x := tileOf (tile a.x.val)
        let l := tileOf (tile (a.x.val + 1))
        let b := tileOf (tile a.y.val)
        let y := tileOf (tile (a.y.val + 1))
        fits [(0, tile a.x.val, false, x.rows == x.cols), (0, tile (a.x.val + 1), false, l.rows == x.rows && l.cols == x.rows),
          (1, tile a.y.val, false, b.rows == x.rows && decide (b.cols ≤ 8)),
          (1, tile (a.y.val + 1), true, y.rows == x.rows && y.cols == b.cols)] →
        accepted (.mrfn a) { cmd .rfn false 4 0 (tile a.x.val) (tile a.y.val) with
          a2 := tile (a.x.val + 1), b2 := tile (a.y.val + 1), zval := s.g a.z, dest := some a.z } true))

/-- The matrix unit starts the eligible command, completes an MMA or MMAM by writing its block of cells and raising its flags, and a
solver by writing its result; a bank transfer writes its cells; a factorisation and a triangular solve follow their recurrences. That an
operand in error is the holder's asynchronous ECC is read from R364 (log entry 50, DEDUCED); that a solver reads all its tiles before it
writes is log entry 114 (R161, R164, R168, R169, R176, R177, R201, R202, R203, R364). -/
def Obligations.matrix_unit_events : Prop :=
  (∀ (v : Stall) (x : Cmd) (n : Nat), pickCmd v = some (x, n) →
    let bars (o y : Cmd) : Prop := o.seq < y.seq ∧ ∃ b ∈ y.banks, b ∈ o.banks
    let free (y : Cmd) : Prop := (∀ o ∈ v.low ++ v.high, ¬bars o y) ∧
      ∀ o ∈ v.running.toList ++ v.closing, o.high ≠ y.high → ¬bars o y
    ((x ∈ v.high ∧ n = v.highStarts + 1) ∨ (x ∈ v.low ∧ n = 0)) ∧ free x ∧
    ((∃ y ∈ v.high, free y) → v.highStarts < 8 → n ≠ 0) ∧ ((∃ y ∈ v.low, free y) → 8 ≤ v.highStarts → n = 0)) ∧
  (∀ (v : Stall), pickCmd v = none → ∀ y ∈ v.low ++ v.high,
    (∃ o ∈ v.low ++ v.high, o.seq < y.seq ∧ ∃ b ∈ y.banks, b ∈ o.banks) ∨
      ∃ o ∈ v.running.toList ++ v.closing, o.high ≠ y.high ∧ o.seq < y.seq ∧ ∃ b ∈ y.banks, b ∈ o.banks) ∧
  (∀ (k : Nat) (s : State),
    let v := s.stall k
    ((v.running.isSome = true ∧ v.closing ≠ []) ∨ v.halted = true ∨ pickCmd v = none → exec (.matrixStart k) s = .next s) ∧
    (∀ x n, v.running = none ∨ v.closing = [] → v.halted = false → pickCmd v = some (x, n) →
      (v.transfers.any (fun t => t.banks.any x.banks.contains) = true → exec (.matrixStart k) s = .next s) ∧
      (v.transfers.any (fun t => t.banks.any x.banks.contains) = false →
        ∃ u, exec (.matrixStart k) s = .next u ∧
          u = { s with stalls := u.stalls, due := s.due ++ [.matrixComplete k, .followOnHandoff (stallArcade k)] } ∧
          (∀ j, j ≠ k → u.stall j = s.stall j) ∧
          u.stall k = { v with closing := v.closing ++ v.running.toList, running := some x, highStarts := n,
                               low := v.low.filter (· != x), high := v.high.filter (· != x) }))) ∧
  (∀ (k : Nat) (s : State), popCmd (s.stall k) = none → exec (.matrixComplete k) s = .next s) ∧
  (∀ (k : Nat) (s : State) (x : Cmd) (v : Stall), popCmd (s.stall k) = some (x, v) → readsPosted s x = false →
    let s0 := (s.setStall k v).cause (.matrixStart k)
    let holder := (v.pair x.pair).holder
    (∀ (s1 : State) (l : List (Array Nat × Option Nat)), runReads s0 x = (s1, l) →
      let a := operandOf (tileOf x.a) true (nthRead l 0) (nthRead l 1)
      let b := operandOf (tileOf x.b) false (nthRead l 2) (nthRead l 3)
      let g := groupSize a.fmt b.fmt
      let inBlock (i : Nat) : Bool := decide (i / 64 < a.lines) && decide (i % 64 < b.lines)
      let old (bank i : Nat) : BitVec 56 := (bankCells (s1.stall k) x.pair bank).getD i 0
      let lands (f : Nat → FlagSet) (bs : List Nat) (cell : Nat → Nat → BitVec 56) : Prop :=
        ∃ u, exec (.matrixComplete k) s = .next u ∧ u = { s1 with stalls := u.stalls, ctxs := u.ctxs } ∧
          (∀ key y, homeByte u key y = homeByte s1 key y) ∧ (∀ j, j ≠ k → u.stall j = s1.stall j) ∧
          u.stall k = { s1.stall k with acc := (u.stall k).acc } ∧
          keepsBanks (s1.stall k) (u.stall k) (bs.map (fun bank => (x.pair, bank))) ∧
          (∀ bank ∈ bs, ∀ i, i < 4096 → (bankCells (u.stall k) x.pair bank).getD i 0 = if inBlock i then cell bank i else old bank i) ∧
          ∀ c, u.ctx c = if holder = some c then
            { s1.ctx c with flags := (s1.ctx c).flags |||
                ((List.range 4096).filter inBlock).foldl (fun h i => h ||| f i) 0 } else s1.ctx c
      (∀ zero, x.kind = .mma zero → x.bank < 2 → readsBad l = none →
        let cell (i : Nat) : Flagged (BitVec 56) :=
          let start := if zero then 0 else old x.bank i
          if ((s1.stall k).pair x.pair).mode x.bank then cellInt a b g start (i / 64) (i % 64)
          else cellFloat a b g start (i / 64) (i % 64)
        lands (fun i => (cell i).flags) [x.bank] (fun _ i => (cell i).val)) ∧
      (x.kind = .mmam → readsBad l = none →
        let cell (i : Nat) := cellMoment a b (old 0 i) (old 1 i) (i / 64) (i % 64)
        lands (fun i => (cell i).flags) [0, 1] (fun bank i => if bank = 0 then (cell i).val.1 else (cell i).val.2)) ∧
      (∀ va h, x.kind = .mmam ∨ (∃ zero, x.kind = .mma zero) → readsBad l = some va → holder = some h →
        exec (.matrixComplete k) s = .next (asyncEcc s1 h va))) ∧
    (∀ (s1 : State) (flags : FlagSet) (result : Option Nat), x.kind ∈ [CmdKind.chol, .trsl, .trsu, .rfn] →
      runSolver s0 x = (s1, flags, result, none) → exec (.matrixComplete k) s = .next (finishSolver s1 x flags result))) ∧
  (∀ (n j : Nat) (m w : Mat), m.cols = n → m.elems.size = n * n → choleskyFrom n n 0 m = (w, j) → ∀ r c, c < j → c ≤ r → r < n →
    w.get r c = if r = c then sqrtRne (dotFrom (m.get c c) ((List.range c).map (fun k => (w.get c k, w.get c k))))
      else divRne (dotFrom (m.get r c) ((List.range c).map (fun k => (w.get r k, w.get c k)))) (w.get c c)) ∧
  (∀ (n i : Nat) (t : Nat → Nat → FVal) (b : Array FVal), b.size = n → i < n →
    let x := solveLower n t b
    let y := solveUpper n t b
    x.getD i plusZero = divRne (dotFrom (b.getD i plusZero) ((List.range i).map (fun k => (t i k, x.getD k plusZero)))) (t i i) ∧
    y.getD i plusZero = divRne (dotFrom (b.getD i plusZero)
      (((List.range n).filter (fun k => decide (i < k))).map (fun k => (t i k, y.getD k plusZero)))) (t i i)) ∧
  (∀ (k : Nat) (s s1 : State) (x : Transfer) (r : List Transfer) (ws : Array Nat),
    (s.stall k).transfers = x :: r → (s.ctx x.ctx).posted = 0 →
    transferWords ((s.updStall k (fun v => { v with transfers := r })).cause (.matrixStart k)) x = (s1, ws) →
    let holder := ((s1.stall k).pair x.pair).holder
    let word (i : Nat) := loadedMoment (ws.getD i 0)
    ∃ u, exec (.bankTransferComplete k) s = .next u ∧ u = { s1 with stalls := u.stalls, ctxs := u.ctxs } ∧
      (∀ key y, homeByte u key y = homeByte s1 key y) ∧ (∀ j, j ≠ k → u.stall j = s1.stall j) ∧
      u.stall k = { s1.stall k with acc := (u.stall k).acc } ∧
      (x.both = false → x.bank < 2 → keepsBanks (s1.stall k) (u.stall k) [(x.pair, x.bank)] ∧
        ∀ i, i < 4096 → (bankCells (u.stall k) x.pair x.bank).getD i 0 = BitVec.ofNat 56 (ws.getD i 0)) ∧
      (x.both = true → keepsBanks (s1.stall k) (u.stall k) [(x.pair, 0), (x.pair, 1)] ∧ ∀ i, i < ws.size → i < 4096 →
        (bankCells (u.stall k) x.pair 0).getD i 0 = BitVec.ofNat 56 (fa56.encode (word i).val.1) ∧
        (bankCells (u.stall k) x.pair 1).getD i 0 = BitVec.ofNat 56 (fa56.encode (word i).val.2)) ∧
      ∀ c, u.ctx c = if holder = some c ∧ x.both = true then
        { s1.ctx c with flags := (s1.ctx c).flags ||| (List.range ws.size).foldl (fun h i => h ||| (word i).flags) 0 } else s1.ctx c)

/-- TSET, TGET, TADV and TSHAPE read and write the descriptor in a tile register; a TADV by elements of an fa56 tile takes ILLCOMBO. That a
TGET with one register as Y and Z leaves the high half there is the model's choice (log entry 112) (R172). -/
def Obligations.tile_registers : Prop :=
  (∀ (s : State) (a : IGG), a.x.val < 8 → s.reads a.y = true → s.readsZ a.z = true →
    let w := s.me.tile a.x.val
    (∃ u v, exec (.tset a) s = .next u ∧ TileStep s u a.x v ∧ v.toNat % 2 ^ 64 = (s.g a.y).toNat ∧
      v.toNat / 2 ^ 64 = match a.z with | some z => (s.g z).toNat | none => w.toNat / 2 ^ 64) ∧
    (∃ u, exec (.tget a) s = .next u ∧
      (a.z = none → RegisterStep s u a.y (BitVec.ofNat 64 (w.toNat % 2 ^ 64)) 0) ∧
      (∀ z, a.z = some z → PairStep s u a.y z (BitVec.ofNat 64 (w.toNat % 2 ^ 64)) (BitVec.ofNat 64 (w.toNat / 2 ^ 64)) 0)) ∧
    (∃ u v, exec (.tshape a) s = .next u ∧ TileStep s u a.x v ∧
      ∀ i, i < 128 → v.getLsbD i =
        if 64 ≤ i ∧ i < 71 then (s.g a.y).getLsbD (i - 64)
        else match a.z with
          | some z => if 71 ≤ i ∧ i < 78 then (s.g z).getLsbD (i - 71) else w.getLsbD i
          | none => w.getLsbD i)) ∧
  (∀ (s : State) (a : TAdv), a.x.val < 8 → s.reads a.y = true → s.readsZ a.z = true →
    let w := s.me.tile a.x.val
    (a.z = none → ∃ u v, exec (.tadv a) s = .next u ∧ TileStep s u a.x v ∧ v.toNat / 2 ^ 57 = w.toNat / 2 ^ 57 ∧
      ((v.toNat % 2 ^ 57 : Nat) : Int) = ((w.toNat % 2 ^ 57 : Nat) + (s.g a.y).toInt + a.imm.toInt) % 2 ^ 57) ∧
    (∀ z, a.z = some z → (tileOf w).fmt ≠ .fa56 →
      ∃ u v, exec (.tadv a) s = .next u ∧ TileStep s u a.x v ∧ v.toNat / 2 ^ 57 = w.toNat / 2 ^ 57 ∧
      ((v.toNat % 2 ^ 57 : Nat) : Int) = ((w.toNat % 2 ^ 57 : Nat) +
        ((s.g a.y).toInt * (tileOf w).stride + (s.g z).toInt) * (tileOf w).size + a.imm.toInt) % 2 ^ 57) ∧
    (∀ z, a.z = some z → (tileOf w).fmt = .fa56 → s.me.tvec ≠ 0 → s.me.intrap = false →
      ∃ u, exec (.tadv a) s = .next u ∧ TrapStep s u 0x02 1 0))

/-- MWAIT goes on when few enough commands remain, handed-on follow-ons counted (R354), MSTAT reads the status word, and bank transfers start
or store. That an acquiring bank load reads all its words at issue, and waits there for stores posted to the package it reads, is the
model's choice (log entry 50) (R116, R173, R174, R354, R161, R203, R312, R316, Table 06-9). -/
def Obligations.matrix_wait_and_bank_transfers : Prop :=
  (∀ (s : State) (a : GOne), s.reads a.x = true →
    let k := s.myStall
    let count (high : Bool) : Nat := countFor s s.cur high + handedFor s s.cur high
    (count false + count true ≤ (s.g a.x).toNat → ∃ u, exec (.mwait a) s = .next u ∧ NextStep s u) ∧
    ((s.g a.x).toNat < count false + count true →
      exec (.mwait a) s = .next ((unitEvents (ctxStall s.cur)).foldl State.causeOnce s.stay)) ∧
    (∃ u, exec (.mstat a) s = .next u ∧ RegisterStep s u a.x (BitVec.ofNat 64
      (k.low.length * 2 ^ 20 + k.high.length * 2 ^ 16 +
        (match s.held s.cur with
          | some p => (k.pair p).q1.toNat * 2 ^ 12 + (k.pair p).q0.toNat * 2 ^ 11 + 2 ^ 10 + p * 2 ^ 8
          | none => 0) +
        count false % 16 * 16 + count true % 16)) 0)) ∧
  (∀ (s s1 : State) (p : Nat) (ts : List Tlb) (y : GReg) (z : Option GReg) (imm : Word) (ord : Option OrdQ),
    let k := ctxStall s.cur
    let base := (s.g y + imm).toNat
    let pitch := match z with | some r => (s.g r).toNat | none => 512
    let addrs := (List.range 64).flatMap (fun i => (List.range 64).map (fun j => (base + i * pitch + 8 * j) % 2 ^ 64))
    let inTcm : Prop := s1 = s ∧ ts = [] ∧ ∀ va ∈ addrs, s.inTcm va 8 ∧ va % 8 = 0 ∧ s.intact va 8
    s.held s.cur = some p → s.reads y = true → s.readsZ z = true → s1.cur = s.cur →
    ((checkTransfer s base pitch ⟨0, false, false, !s.me.pl⟩ = .ok (s1, ts) ∧
        addrs.any (fun va => isPoisoned s1 s.cur (placeThrough s.cur ts va) 8) = false) ∨ inTcm →
      storeHeldBy (drain s1 s.cur) s.cur = none →
      let acq := (acquireScope ord).isSome
      let v := acquireOf (drain s1 s.cur) ord
      let r := readValues v.tick s.cur ts false 8 [] v addrs
      let w := if acq then r.1 else v
      let behind := (drain s1 s.cur).me.posted != 0 && addrs.any (fun va => isRemote s.cur (placeThrough s.cur ts va))
      let early := if behind then [] else r.2.1.toList
      let started (i : Instr) (bank : Nat) (both : Bool) : Prop :=
        ((behind && acq) = true → exec i s = .next (s.stay.causeOnce (.storePerform s.cur))) ∧
        ((behind && acq) = false → ∃ u, exec i s = .next u ∧ StallStep w u
          { w.myStall with transfers := w.myStall.transfers ++ [⟨s.cur, p, bank, both, base, pitch, ts, early, acq⟩] }
          [.bankTransferComplete k] 0)
      (∀ x : Idx, x.val < 2 → banksBusy s k [(p, x.val)] = false → started (.aload ⟨x, y, z, imm, ord⟩) x.val false) ∧
      (banksBusy s k [(p, 0), (p, 1)] = false → (s.myStall.pair p).q0 = false → (s.myStall.pair p).q1 = false →
        started (.maldm ⟨y, z, imm, ord⟩) 0 true)) ∧
    (checkTransfer s base pitch ⟨1, true, false, !s.me.pl⟩ = .ok (s1, ts) ∨ inTcm →
      let rel := releaseOf ord
      let stored (ws : List Nat) (f : FlagSet) : State :=
        (storeWords (if rel = none then drain s1 s.cur else s1.released (engineOf ord) rel) s.cur ts rel (policyOf ord) (addrs.zip ws)).raise s.cur f
      let done (i : Instr) (ws : List Nat) (f : FlagSet) : Prop :=
        (rel = none → storeHeldBy (drain s1 s.cur) s.cur = none → exec i s = .next (stored ws f).advance ∧
          (inTcm → s.me.storeQ = [] → ∀ key b,
            (∀ va ∈ addrs, b < (s.tcmPlace va).pa ∨ (s.tcmPlace va).pa + 8 ≤ b) →
            homeByte (stored ws f).advance key b = homeByte s key b)) ∧
        (∀ sc, rel = some sc → s1.canRelease true (some sc) →
          exec i s = .next (if Scope.le .ha sc && addrs.any (fun va => isRemote s.cur (placeThrough s.cur ts va)) then
            (stored ws f).upd (fun v => { v with wait := .posted (sc == .sy) }) else (stored ws f).advance))
      (∀ x : Idx, x.val < 2 → banksBusy s k [(p, x.val)] = false →
        done (.astore ⟨x, y, z, imm, ord⟩) ((bankCells s.myStall p x.val).map (cellWord ((s.myStall.pair p).mode x.val))).toList 0) ∧
      (banksBusy s k [(p, 0), (p, 1)] = false →
        done (.mastm ⟨y, z, imm, ord⟩) ((momentWords s p).map (·.val)) ((momentWords s p).foldl (fun f w => f ||| w.flags) 0))))

/-- SPAWN, SPAWNA and SPAWNF begin the child on the context and leave the parent continuation at the deque's tail; with both frames in
the own TCM they complete on the operands alone, and write the two headers and nothing else. A full deque of 32 spills its 16 oldest
entries after a release at J, or, where the overflow queue has no room, the parent continuation waits at its own counter instead (R232,
R233, R234, R221, R219, Table 10-6, Tables 09-5 and 09-6). -/
def Obligations.spawning : Prop :=
  (∀ (u : State) (c : Nat), spillRoom u c = true ↔ ∃ r q u1, u.regionOf c = some r ∧
    readQueue (translateFor c) c false u r.ovq = .ok (u1, q) ∧ 16 + q.lwm ≤ q.cap - (q.tail + 2 ^ 64 - q.head) % 2 ^ 64) ∧
  (∀ (u u1 u2 u3 : State) (c : Nat) (r : Region) (q : QueueHead),
    let old := (u.ctx c).deque.take 16
    u.regionOf c = some r → readQueue (translateFor c) c false u r.ovq = .ok (u1, q) → 16 + q.lwm ≤ q.free →
    old.foldlM (fun t e => do
      let (t1, pa) ← ownCounterOf t c e.frame
      let (t2, _) ← contextOp t1 c pa .jinc
      pure t2) u1 = .ok u2 →
    pushEntries (translateFor c) c false u2 r.ovq q (old.map (fun e => { e with spilled := true })) = .ok u3 →
    spill16 u c = .ok (some (u3.updCtx c (fun w => { w with deque := w.deque.drop 16 })))) ∧
  (∀ (s : State) (x y : GReg) (tg : Target) (pc : BitVec 57),
    let v := s.me
    let k := ctxStall s.cur
    let child := (s.g x).toNat
    let frame := v.framep.toNat
    let user := !v.pl
    ∀ e ∈ [
        (Instr.spawn ⟨x, tg⟩, 0, v.fmtw.toNat, v.sclp.toNat, 0), (Instr.spawna ⟨x, y, tg⟩, (s.g y).toNat % 4, v.fmtw.toNat, v.sclp.toNat, 1),
        (Instr.spawnf ⟨x, y, tg⟩, 0, (s.g y).toNat % 2 ^ 16, (s.g (GReg.succ 1 y)).toNat, 2)],
      s.reads x = true → v.okG e.2.2.2.2 y = true ∨ e.2.2.2.2 = 0 →
      (match tg with
        | .label off => pc = BitVec.ofInt 57 (v.pc.toInt + 2 * off.toInt) ∧ v.pc.toNat % 2 = 0
        | .reg z => s.reads z = true ∧ pc = BitVec.truncate 57 (s.g z) ∧ (s.g z).toNat < 2 ^ 57 ∧ (s.g z).toNat % 2 = 0) →
      child % 64 = 0 → child ≠ frame → s.held s.cur = none →
      let parent : Entry := ⟨v.nextPc.toNat, frame, v.nt, e.2.1, false⟩
      let born (w : Ctx) (own tag : Nat) : Ctx := { w with
        pc := pc, ttag := BitVec.ofNat 32 tag, ptag := v.ttag, framep := BitVec.ofNat 64 child,
        pframe := BitVec.ofNat 64 frame, ownjc := BitVec.ofNat 64 own, parjc := v.ownjc, fmtw := BitVec.ofNat 16 e.2.2.1,
        sclp := BitVec.ofNat 64 e.2.2.2.1, flags := 0, nt := 0, root := false, lat := 0, tbm := 0, covered := none, walked := [], missed := none,
        saved := none, wait := .none, holding := none, hunt := endHunt w.hunt }
      let enters (u : State) (degraded : Bool) : Prop := ∀ (u0 u1 u2 u4 u5 : State) (own : Nat),
        let tag := k % 512 * 2 ^ 23 + (u2.stall k).taskCounter
        writeHeader translate s.cur user u frame v.nextPc.toNat ⟨v.flags, 0, v.nt, false, false, false, v.root⟩ = .ok u0 →
        (degraded = false ∧ u1 = u0.upd (fun w => { w with deque := w.deque ++ [parent] })) ∨
          (degraded = true ∧ ∃ w pa x r, locateCounter translate u0 true user v.ownjc.toNat = .ok (w, pa) ∧ counts w s.cur pa .jcall x r ∧
            u1 = suspendAt x pa { parent with aff := 0, spilled := true } v.rcbp.toNat) →
        readWord translate s.cur user u1 (child + 0x10) 8 = .ok (u2, own) →
        writeWord translate s.cur user (newTag u2 k).1 (child + 0x08) 8 frame = .ok u4 →
        writeSpan translate s.cur ⟨5, true, false, user⟩ u4 (child + 0x18)
          (leBytes 8 v.ownjc.toNat ++ leBytes 4 tag ++ leBytes 4 v.ttag.toNat) = .ok u5 →
        ∃ t, exec e.1 s = .next t ∧ t.mem = u5.mem ∧ t.cur = u5.cur ∧ t.me = born u5.me own tag
      (∀ (s1 s2 s3 : State),
        checkSpan translate ⟨5, true, false, user⟩ s child 128 = .ok s1 → checkSpan translate ⟨5, true, false, user⟩ s1 frame 128 = .ok s2 →
        s2.me.pc = v.pc → (∀ r, s2.g r = s.g r) → settle s2 = .ok s3 →
        let rel := some (joinScopeOf s3 s.cur)
        let u := s3.released false rel
        (v.deque.length < 32 → enters s3 false) ∧
        (32 ≤ v.deque.length → spillRoom s3 s.cur = false → enters s3 true) ∧
        (32 ≤ v.deque.length → spillRoom s3 s.cur = true → s3.canRelease false rel →
          (spill16 u s.cur = .ok none → enters u true) ∧ ∀ w, spill16 u s.cur = .ok (some w) → enters w false)) ∧
      (v.deque.length < 32 → s.inTcm child 128 → s.inTcm frame 128 → frame % 64 = 0 → v.storeQ = [] →
        let tag := k % 512 * 2 ^ 23 + s.myStall.taskCounter
        let at1 := (s.tcmPlace child).pa
        let at2 := (s.tcmPlace frame).pa
        ∃ t, exec e.1 s = .next t ∧
          t.me = born { v with deque := v.deque ++ [parent] } (leNat (homeBytes t 0 (at1 + 0x10) 8)) tag ∧
          (∀ c, c ≠ s.cur → t.ctx c = s.ctx c) ∧ t.gfile = s.gfile ∧ t.vfile = s.vfile ∧ (∀ j, j ≠ k → t.stall j = s.stall j) ∧
          t.stall k = { s.myStall with
            taskCounter := if s.myStall.taskCounter = 0x7FFFFF then 1 else s.myStall.taskCounter + 1 } ∧
          homeBytes t 0 at2 8 = leBytes 8 v.nextPc.toNat ∧
          homeBytes t 0 (at2 + 0x28) 24 = leBytes 8 v.fmtw.toNat ++ leBytes 8 v.sclp.toNat ++
            leBytes 8 (v.flags.toNat * 2 ^ 32 + v.nt * 16 + v.root.toNat) ∧
          homeBytes t 0 (at1 + 0x08) 8 = leBytes 8 frame ∧
          homeBytes t 0 (at1 + 0x18) 16 = leBytes 8 v.ownjc.toNat ++ leBytes 4 tag ++ leBytes 4 v.ttag.toNat ∧
          ∀ key b, (b < at2 ∨ at2 + 8 ≤ b) → (b < at2 + 0x28 ∨ at2 + 0x40 ≤ b) → (b < at1 + 0x08 ∨ at1 + 0x10 ≤ b) →
            (b < at1 + 0x18 ∨ at1 + 0x28 ≤ b) → homeByte t key b = homeByte s key b))

/-- TEND joins, releases its pair and returns to the deque, the parent's continuation, or idleness, with a message for a parent's counter in
another package (R431); TABORT dies as a casualty (R239, R240, R221, R258, R431). -/
def Obligations.ends_of_tasks : Prop :=
  (∀ (s s0 s1 : State) (pa : Nat),
    let t := acquireCaches s1 s.cur (joinScopeOf s s.cur)
    let c := t.cur
    let v := t.me
    flagWait s = .ok () → s.me.flags &&& s.me.ten = 0 → s.me.saved = none → settle s = .ok s0 →
    (∃ s2, locateCounter translate s0 true (!s.me.pl) s.me.ownjc.toNat = .ok (s2, pa) ∧ atCounter (.issue s.cur) s2 s.cur pa = .ok s1) ∨
      (s.ownCounter s.me.ownjc.toNat ∧ s1 = s ∧ pa = s.counterPlace s.me.ownjc.toNat) →
    (readCounter s1 pa).count = 0 → waitBanks t (heldBanks t t.cur) = .ok () →
    (v.root = true →
      exec .tend s = .next (goIdle (taskOver (rootOver (freeTaskGranules (reportLosses (leavePair t c) c) c 0) c false) c) c)) ∧
    (v.root = false → ∀ e, v.deque.getLast? = some e → e.frame = v.pframe.toNat → v.pframe ≠ 0 →
      exec .tend s = .next (nextTask (taskOver (freeOwn t c pa) c) c)) ∧
    (v.root = false → parentAtTail v = none → v.parjc.toNat.testBit 63 = false →
      ∀ s2 pp, locateCounter translate t true (!v.pl) v.parjc.toNat = .ok (s2, pp) →
      s2.canRelease false (some (counterScope c pp)) →
      ∀ x r, contextDec (s2.released false (some (counterScope c pp))) c pp .jdec = .ok (x, r) →
      let w := freeOwn x c pa
      (r = .resume → exec .tend s = .next (takeResume (taskOver w c) c pp v.pframe.toNat)) ∧
      (r = .release → exec .tend s = .next (goIdle (taskOver (releaseByCounter w pp) c) c)) ∧
      (r = .under → exec .tend s = .next (w.beginDeath c (tendDeath v))) ∧
      (r = .none → exec .tend s = .next (goIdle (taskOver w c) c))) ∧
    (v.root = false → parentAtTail v = none → v.parjc.toNat.testBit 63 = true → t.canRelease false (some .sy) →
      exec .tend s = .next
        (goIdle (taskOver (sendCounterOp (freeOwn (t.released false (some .sy)) c pa) c (v.parjc.toNat % 2 ^ 56) false) c) c))) ∧
  (∀ (w : State) (c : Nat), (w.stall (ctxStall c)).tracec = 0 → ((goIdle w c).ctx c).st = .idle) ∧
  (∀ (w : State) (c : Nat) (e : Entry), (w.ctx c).deque.getLast? = some e →
    nextTask w c = resumeTask (w.updCtx c (fun z => { z with deque := z.deque.dropLast })) c e.frame (some e.nt)) ∧
  (∀ (w : State) (c : Nat), (w.ctx c).deque = [] → nextTask w c = goIdle w c) ∧
  (∀ (w w1 : State) (c frame nt : Nat) (h : FrameHeader),
    readHeader (translateFor c) c false w frame = .ok (w1, h) → bitOf h.fflags 1 = false → (w1.stall (ctxStall c)).tracec = 0 →
    isHalted w1 c = false →
    (resumeTask w c frame (some nt)).ctx c = { w1.ctx c with
      st := .run, pc := BitVec.ofNat 57 (h.rpc / 2 * 2), ttag := BitVec.ofNat 32 h.tag, ptag := BitVec.ofNat 32 h.ptag,
      framep := BitVec.ofNat 64 frame, pframe := BitVec.ofNat 64 h.pframe, ownjc := BitVec.ofNat 64 h.ownjc,
      parjc := BitVec.ofNat 64 h.parjc, fmtw := BitVec.ofNat 16 h.fmtw, sclp := BitVec.ofNat 64 h.sclp,
      flags := BitVec.ofNat 11 (h.fflags / 2 ^ 32 % 2 ^ 11), nt := nt, root := bitOf h.fflags 0, lat := 0, tbm := 0,
      covered := none, walked := [], missed := none, saved := none, wait := .none, holding := none, hunt := endHunt (w1.ctx c).hunt }) ∧
  (∀ (s : State) (a : GOne), s.reads a.x = true → s.me.dying = none →
    ∃ t d, exec (.tabort a) s = .next t ∧ t.me = { s.me with dying := some d } ∧ d.abort = true ∧ d.detail = s.g a.x ∧
      (∀ c, c ≠ s.cur → t.ctx c = s.ctx c) ∧ t = { s with ctxs := t.ctxs, sched := .event (.taskDeath s.cur) :: s.sched }) ∧
  (∀ s : State, flagWait s = .ok () → s.me.flags &&& s.me.ten ≠ 0 → s.me.tvec ≠ 0 → s.me.intrap = false →
    ∃ t, exec .tend s = .next t ∧ TrapStep s t 0x20 (s.me.flags &&& s.me.ten).toNat 0)

/-- SYNC and SYNCC go on once the children have joined; otherwise SYNC saves its task, and in its next turn suspends it, or goes on
where the last child has ended meanwhile; SYNCQ reads the join. That the save and the JSUS take two turns is read from R237's order (log
entry 54, DEDUCED); a value read at a counter of another arcade comes with its reply (R227, R237, R238, R375, R377, Table 10-11). -/
def Obligations.joins : Prop :=
  ∀ (s s0 s1 : State) (pa : Nat) (a : GOne),
    let user := !s.me.pl
    let goesOn (w : State) : Prop :=
      let acq := acquireCaches w s.cur (joinScopeOf s s.cur)
      (∃ u, exec .sync s = .next u ∧ NextStep acq u) ∧
      (∀ x r, counts acq acq.cur pa .jcas x r →
        ∃ u, exec (.syncc a) s = .next u ∧ ReplyStep x u pa a.x (BitVec.ofNat 64 (readCounter acq pa).cas))
    s.reads a.x = true →
    (s.reaches false s.me.ownjc.toNat s1 pa →
      ∃ u, exec (.syncq a) s = .next u ∧
        ReplyStep s1 u pa a.x (BitVec.ofNat 64 (s.me.deque.length * 2 ^ 56 + (readCounter s1 pa).word))) ∧
    (s.me.saved = none → settle s = .ok s0 →
      (∃ s2, locateCounter translate s0 true user s.me.ownjc.toNat = .ok (s2, pa) ∧ atCounter (.issue s.cur) s2 s.cur pa = .ok s1) ∨
        (s.ownCounter s.me.ownjc.toNat ∧ s1 = s ∧ pa = s.counterPlace s.me.ownjc.toNat) →
      ((readCounter s1 pa).count = 0 → goesOn s1) ∧
      ((readCounter s1 pa).count ≠ 0 →
        let c := s1.cur
        let v := s1.me
        let frame := v.framep.toNat
        let pair := s1.held c
        let s2 := (saveEntry s1 c v.pc.toNat).1
        let e := (saveEntry s1 c v.pc.toNat).2
        let l := e.getD (LiveSet.whole v)
        let need := if pair.isSome then l.pairAt - 0x80 + 57344 else l.bytes
        waitBanks s1 (heldBanks s1 c) = .ok () →
        (frameSize s1 c frame - 0x80 < need → s.me.tvec ≠ 0 → s.me.intrap = false →
          let info := need % 2 ^ 32 + (frameSize s1 c frame - 0x80) * 2 ^ 32
          (∃ u, exec .sync s = .next u ∧ TrapStep s u 0x40 info frame) ∧
          (∃ u, exec (.syncc a) s = .next u ∧ TrapStep s u 0x40 info frame)) ∧
        (need ≤ frameSize s1 c frame - 0x80 → ∀ s3 s4 s5, saveRegs translate c (!v.pl) s2 frame l = .ok s3 →
          (match pair with
            | some p => savePair translate c (!v.pl) s3 (frame + l.pairAt) p = .ok s4
            | none => s4 = s3) →
          writeHeader translate c (!v.pl) s4 frame v.pc.toNat ⟨v.flags, 1, v.nt, pair.isSome, e.isNone, true, v.root⟩ = .ok s5 →
          exec .sync s = .next (s5.upd (fun w => { w with saved := some pa })) ∧
          exec (.syncc a) s = .next (s5.upd (fun w => { w with saved := some pa }))))) ∧
    (s.me.saved = some pa →
      ∀ r, counts s s.cur pa .jsus s1 r →
      let w := suspendAt s1 pa ⟨s1.me.pc.toNat, s1.me.framep.toNat, s1.me.nt, 0, true⟩ s1.me.rcbp.toNat
      let left := leavePair (w.upd (fun v => { v with saved := none })) s1.cur
      (r ≠ .zero → exec .sync s = .next (nextTask (enter left s1.cur .wmsg) s1.cur) ∧
        exec (.syncc a) s = .next (nextTask (enter left s1.cur .wmsg) s1.cur)) ∧
      (r = .zero → ∀ w, clearSaved s1 = .ok w → goesOn w))

/-- FALLOC and FFREE take and return frames and counters, JINIT and JADD work on counters in the order their ORD asks for, PUB, TNAME and
TDROP go on (R228, R229, R227, R230, R231, R116, R304, R316, Table 10-8). -/
def Obligations.frames_and_tiles : Prop :=
  (∀ (s s1 : State) (a : GUn) (r : Region),
    let n := max 128 (((s.g a.y).toNat + 63) / 64 * 64)
    let ak := ctxArcade s.cur
    let alloc := allocFrame (translateFor s.cur) s1 s.cur (!s.me.pl) true (ctxPkg s.cur) r ak n
    s.reads a.x = true → s.reads a.y = true →
    (s.regionOf s.cur = none → ∃ u, exec (.falloc a) s = .next u ∧ RegisterStep s u a.x 0 0) ∧
    (s.regionOf s.cur = some r → settle s = .ok s1 →
      (alloc = .ok none ∨ 65536 < n → ∃ u, exec (.falloc a) s = .next u ∧ RegisterStep s u a.x 0 0) ∧
      (∀ t f, alloc = .ok (some (t, f)) → (∃ u, exec (.falloc a) s = .next u ∧ RegisterStep t u a.x (BitVec.ofNat 64 f.addr) 0) ∧
        f.size = n ∧ f.rcb = r.rcb ∧ f.falloc = true ∧ poolBase r ≤ f.addr ∧ f.addr + n ≤ poolBase r + poolSize r ∧
        (∀ g ∈ framesNear s1 (ctxPkg s.cur) r, g.addr + g.size ≤ f.addr ∨ f.addr + n ≤ g.addr) ∧
        (∃ i, i < 8192 ∧ f.counter = slotPa ak i ∧ (s1.arcade ak).slots.lookup i = none))) ∧
    (s.regionOf s.cur = some r → s.cur < ctxLimit → s.me.storeQ = [] → poolBase r = tcmWindow → poolSize r ≤ 2 ^ 18 → n ≤ 65536 →
      ∀ addr i, findFrame s (ctxPkg s.cur) r n = some addr → findSlot s ak = some i →
      let at0 := (s.tcmPlace addr).pa
      ∃ t u, exec (.falloc a) s = .next u ∧ RegisterStep t u a.x (BitVec.ofNat 64 addr) 0 ∧ t.ctxs = s.ctxs ∧ t.gfile = s.gfile ∧
        t.vfile = s.vfile ∧ t.stalls = s.stalls ∧
        (s.pkg (ctxPkg s.cur)).frames ++ [⟨addr, n, r.rcb, slotPa ak i, true⟩] = (t.pkg (ctxPkg s.cur)).frames ∧
        (t.arcade ak).slots.lookup i = some addr ∧
        homeBytes t 0 at0 128 = leBytes 16 0 ++ leBytes 8 (r.spmap + ak % 64 * 2 ^ 22 + 8 * i) ++ leBytes 104 0 ∧
        homeBytes t 0 (slotPa ak i) 8 = leBytes 8 0 ∧
        ∀ key b, (b < at0 ∨ at0 + 128 ≤ b) → (b < slotPa ak i ∨ slotPa ak i + 8 ≤ b) → homeByte t key b = homeByte s key b)) ∧
  (∀ (s s0 s1 s2 s3 : State) (a : GOne) (own pa : Nat) (f : Frame),
    let x := (s.g a.x).toNat
    let user := !s.me.pl
    let at0 := (s.tcmPlace x).pa + 0x10
    s.reads a.x = true → x % 64 = 0 →
    (frameAt s s.cur x = some f → f.falloc = true →
      (settle s = .ok s0 ∧ readWord translate s.cur user s0 (x + 0x10) 8 = .ok (s1, own) ∧
          locateCounter translate s1 true user own = .ok (s2, pa) ∧ atCounter (.issue s.cur) s2 s.cur pa = .ok s3) ∨
        (s.inTcm x 128 ∧ own = leNat (homeBytes s 0 at0 8) ∧ s.ownCounter own ∧ pa = s.counterPlace own ∧ s3 = s) →
      let j := readCounter s3 pa
      (j.count = 0 ∧ j.s = false ∧ j.d = false → ∃ u, exec (.ffree a) s = .next u ∧ NextStep (releaseWith s3 (ctxPkg s.cur) f pa) u) ∧
      (¬(j.count = 0 ∧ j.s = false ∧ j.d = false) → s.me.tvec ≠ 0 → s.me.intrap = false →
        ∃ u, exec (.ffree a) s = .next u ∧ TrapStep s u 0x41 2 0)) ∧
    ((∀ f, frameAt s s.cur x = some f → f.falloc = false) → s.me.tvec ≠ 0 → s.me.intrap = false →
      ∃ u, exec (.ffree a) s = .next u ∧ TrapStep s u 0x41 10 0)) ∧
  (∀ (s s1 r : State) (x y : GReg) (z : Option GReg) (imm : Word) (ord : Option OrdQ) (pa : Nat),
    let va := effAddr s y z imm 8
    let n := (s.g x).toInt
    s.reads x = true → s.reads y = true → s.readsZ z = true →
    locateCounter translate s true (!s.me.pl) va = .ok (s1, pa) ∨ (s.ownCounter va ∧ s1 = s ∧ pa = s.counterPlace va) →
    s1.sends (releaseOf ord) ord (counterArcade pa) r →
    (∀ e ∈ [(Instr.jinit ⟨y, z, imm, ord⟩, CounterOp.jinit), (Instr.jadd ⟨x, y, z, imm, ord⟩, CounterOp.jadd n)],
      (e.2 = .jadd n → -(2 ^ 31) ≤ n ∧ n < 2 ^ 31) →
      ∀ v o, contextDec r r.cur pa e.2 = .ok (v, o) ∨
        (counterArcade pa = ctxArcade r.cur ∧ counterHeld r pa e.2 = false ∧ (v, o) = counterOp r pa e.2) →
      (o ≠ .under → ∃ u, exec e.1 s = .next u ∧ NextStep (acquireOf (settleCounter v pa o) ord) u) ∧
      (o = .under → s.me.tvec ≠ 0 → s.me.intrap = false → ∃ u, exec e.1 s = .next u ∧ TrapStep s u 0x41 6 0)) ∧
    (¬(-(2 ^ 31) ≤ n ∧ n < 2 ^ 31) → s.me.tvec ≠ 0 → s.me.intrap = false →
      ∃ u, exec (.jadd ⟨x, y, z, imm, ord⟩) s = .next u ∧ TrapStep s u 0x41 6 0)) ∧
  (∀ (s s1 : State) (a : GUn), s.reads a.x = true → s.reads a.y = true → settle s = .ok s1 ∨ (s.me.storeQ = [] ∧ s1 = s) →
    ∃ u, exec (.pub a) s = .next u ∧ u.gfile = s1.gfile ∧ u.vfile = s1.vfile ∧ u.cur = s1.cur ∧ u.me.pc = s1.me.nextPc ∧
      (windowBase ≤ (s.g a.x).toNat → NextStep s1 u)) ∧
  (∀ (s s1 s2 : State) (a : IG),
    let slot := (s.g a.y).toNat
    let w := s.me.tile a.x.val
    let va := s.me.framep.toNat + 0x40 + 16 * slot
    a.x.val < 8 → s.reads a.y = true →
    (slot < 4 → (tileOf w).space = 1 → (tileOf w).fmt ≠ .fa56 →
      (settle s = .ok s1 → writeWord translate s.cur (!s.me.pl) s1 va 16 w.toNat = .ok s2 →
        ∃ u, exec (.tname a) s = .next u ∧
          ContextStep s2 u { s2.me with nt := max s2.me.nt (slot + 1), pc := s2.me.nextPc, walked := [], missed := none, saved := none }) ∧
      (s.inTcm va 16 → va % 16 = 0 → s.me.storeQ = [] →
        let at0 := (s.tcmPlace va).pa
        ∃ u, exec (.tname a) s = .next u ∧
          u = { s with ctxs := u.ctxs, mem := u.mem, poison := u.poison } ∧ (∀ c, c ≠ s.cur → u.ctx c = s.ctx c) ∧
          u.me = { s.me with nt := max s.me.nt (slot + 1), pc := s.me.nextPc, walked := [], missed := none, saved := none } ∧
          homeBytes u 0 at0 16 = leBytes 16 w.toNat ∧
          ∀ key b, (b < at0 ∨ at0 + 16 ≤ b) → homeByte u key b = homeByte s key b)) ∧
    (s.me.tvec ≠ 0 → s.me.intrap = false →
      (4 ≤ slot → ∃ u, exec (.tname a) s = .next u ∧ TrapStep s u 0x41 3 0) ∧
      (slot < 4 → (tileOf w).space ≠ 1 ∨ (tileOf w).fmt = .fa56 → ∃ u, exec (.tname a) s = .next u ∧ TrapStep s u 0x41 4 0))) ∧
  (∀ (s : State) (a : GOne), s.reads a.x = true →
    let n := min s.me.nt (s.g a.x).toNat
    let w := freeTaskGranules s s.cur n
    ∃ u, exec (.tdrop a) s = .next u ∧ ContextStep w u { w.me with nt := n, pc := w.me.nextPc, walked := [], missed := none, saved := none })

/-- The counter operations change COUNT, CAS, S and D as Table 10-4 says and give its results; an operation of another package does too,
and one below 0 counts DONUNDER (R224, R225, R431, Table 10-3, Table 10-4, Table 22-1). -/
def Obligations.counter_operations : Prop :=
  (∀ (s : State) (pa : Nat) (slot : Nat × Nat), counterSlot pa = some slot →
    let j := readCounter s pa
    let dec (cas : Nat) : JoinCounter × CounterResult :=
      if j.count = 0 then (j, .under)
      else if j.count = 1 ∧ j.s = true then (⟨0, cas, false, j.d⟩, .resume)
      else if j.count = 1 ∧ j.d = true then (⟨0, cas, false, true⟩, .release)
      else (⟨j.count - 1, cas, j.s, j.d⟩, .none)
    ∀ e ∈ ([
        (.jinc, (⟨(j.count + 1) % 2 ^ 32, j.cas, j.s, j.d⟩, .none)), (.jdec, dec j.cas), (.jdead, dec (min (j.cas + 1) 65535)),
        (.jsus, if j.count = 0 then (j, .zero) else (⟨j.count, j.cas, true, j.d⟩, .wait)),
        (.jcall, (⟨(j.count + 1) % 2 ^ 32, j.cas, true, j.d⟩, .none)), (.jcas, (⟨j.count, 0, j.s, j.d⟩, .value j.cas)),
        (.jmark, (⟨j.count, j.cas, j.s, true⟩, if j.count = 0 then .release else .none)), (.jinit, (⟨0, 0, false, false⟩, .none))]
        : List (CounterOp × JoinCounter × CounterResult)),
      (counterOp s pa e.1).2 = e.2.2 ∧ readCounter (counterOp s pa e.1).1 pa = e.2.1 ∧
      (∀ a, a < pa ∨ pa + 8 ≤ a → Store.get blankByte (counterOp s pa e.1).1.mem a = Store.get blankByte s.mem a)) ∧
  (∀ (s : State) (pa : Nat) (n : Int) (slot : Nat × Nat), counterSlot pa = some slot →
    let j := readCounter s pa
    let x := (j.count : Int) + n
    let o := counterOp s pa (.jadd n)
    (x < 0 ∨ 2 ^ 32 ≤ x → o.2 = .under ∧ readCounter o.1 pa = j) ∧
    (0 ≤ x → x < 2 ^ 32 → (readCounter o.1 pa).count = x.toNat ∧ (0 ≤ n → o.2 = .none) ∧ (n < 0 → x = 0 → j.s = true → o.2 = .resume))) ∧
  (∀ (s : State) (pa : Nat) (n : Int) (dead : Bool) (slot : Nat × Nat), counterSlot pa = some slot →
    ∀ e ∈ [(Event.jinc pa, CounterOp.jinc), (Event.jdec pa, .jdec), (Event.jdead pa, .jdead), (Event.jaddn pa n, .jadd n),
        (Event.jsus pa, .jsus), (Event.jcall pa, .jcall), (Event.jcas pa, .jcas), (Event.jmark pa, .jmark),
        (Event.remoteCounterOp pa dead, if dead then .jdead else .jdec)],
      counterHeld s pa e.2 = false →
      let o := counterOp s pa e.2
      (e.1 = .remoteCounterOp pa dead → o.2 ≠ .under) → exec e.1.instr s = .next (settleCounter o.1 pa o.2) ∧ (o.2 ≠ .resume → o.2 ≠ .release → settleCounter o.1 pa o.2 = o.1)) ∧
  (∀ (s : State) (pa : Nat) (dead : Bool) (slot : Nat × Nat), counterSlot pa = some slot → (readCounter s pa).count = 0 →
    ∃ t, exec (.remoteCounterOp pa dead) s = .next t ∧ (t.pkg (pkgOf pa)).donunder = ((s.pkg (pkgOf pa)).donunder + 1) % 2 ^ 32 ∧
      readCounter t pa = readCounter s pa)

/-- RLAUNCH, RWAIT, RQUERY, GRANK, GSIZE and DONATE complete with the results their rules give; that RWAIT acquires at the widest scope
is the model's choice (log entry 103), and that a donation's request goes to hall 0 of its target, one to the own package being accepted at
once, is too (log entry 93) (R262, R263, R264, R254, R311, R428, R429). -/
def Obligations.region_instructions : Prop :=
  (∀ (s s1 s2 : State) (p : Place) (a : GBin) (pa : Nat),
    let pkg := ctxPkg s.cur
    let rcb := (s.g a.y).toNat
    let counter := (s.g (a.z.getD a.x)).toNat
    let sc := joinScopeOf s2 s.cur
    let t := s2.released false (some sc)
    s.reads a.x = true → s.reads a.y = true → s.readsZ a.z = true →
    locateRcb s true rcb = .ok (s1, p) ∨ (rcb % 256 = 0 ∧ s.inTcm rcb 256 ∧ s1 = s ∧ p = s.tcmPlace rcb) →
    (counter = 0 ∧ s2 = s1 ∧ pa = 0 ∨ counter ≠ 0 ∧ locateCounter translate s1 true (!s.me.pl) counter = .ok (s2, pa)) →
    s2.canRelease false (some sc) →
    (64 ≤ (t.pkg pkg).waitlist.length → ∃ u, exec (.rlaunch a) s = .next u ∧ RegisterStep t u a.x (BitVec.ofInt 64 (-3)) 0) ∧
    ((t.pkg pkg).waitlist.length < 64 →
      let w := writeRcb (writeRcb (writeRcb t pkg p 0 t.me.rcbp.toNat) pkg p 19 counter) pkg p 20 0
      (∀ x code, admitRegion w pkg rcb pa p = (x, .failed code) →
        ∃ u, exec (.rlaunch a) s = .next u ∧ RegisterStep x u a.x (BitVec.ofInt 64 (-(code : Int))) 0) ∧
      (∀ x r, admitRegion w pkg rcb pa p = (x, .admitted r) →
        ∀ v o, (pa = 0 ∧ v = x) ∨ (pa ≠ 0 ∧ counts x x.cur pa (.jadd 1) v o) →
        let y := examineWaitlist v pkg
        ∃ u, exec (.rlaunch a) s = .next u ∧
          RegisterStep y u a.x (if (y.region pkg rcb).map (·.st) = some 2 then 0 else 1) 0))) ∧
  (∀ (s s1 s2 : State) (p : Place) (a : GOne), s.reads a.x = true →
    let rcb := (s.g a.x).toNat
    (locateRcb s false rcb = .ok (s1, p) ∧ settle s1 = .ok s2) ∨
      (rcb % 256 = 0 ∧ s.inTcm rcb 256 ∧ s.me.storeQ = [] ∧ s2 = s ∧ p = s.tcmPlace rcb) →
    let r := readState s2 p
    let known := (r.1.pkg (ctxPkg r.1.cur)).regions.any (fun q => q.place.pa == p.pa)
    (r.2 % 16 = 0 ∨ r.2 % 16 = 4 ∨ r.2 % 16 = 5 ∨ known = false →
      ∃ u, exec (.rwait a) s = .next u ∧ RegisterStep (acquireCaches r.1 r.1.cur .sy) u a.x (BitVec.ofNat 64 r.2) 0) ∧
    (¬(r.2 % 16 = 0 ∨ r.2 % 16 = 4 ∨ r.2 % 16 = 5 ∨ known = false) →
      exec (.rwait a) s = .next (block r.1 r.1.cur .wmsg (.region p.pa a.x)))) ∧
  (∀ (s s1 s2 : State) (p : Place) (a : GUn), s.reads a.x = true → s.reads a.y = true →
    let rcb := (s.g a.y).toNat
    (locateRcb s false rcb = .ok (s1, p) ∧ settle s1 = .ok s2) ∨
      (rcb % 256 = 0 ∧ s.inTcm rcb 256 ∧ s.me.storeQ = [] ∧ s2 = s ∧ p = s.tcmPlace rcb) →
    ∃ u, exec (.rquery a) s = .next u ∧ RegisterStep (readState s2 p).1 u a.x (BitVec.ofNat 64 (readState s2 p).2) 0) ∧
  (∀ (s : State) (a : GOne), s.reads a.x = true →
    (∃ u, exec (.grank a) s = .next u ∧ RegisterStep s u a.x s.me.rank 0) ∧
    (∃ u, exec (.gsize a) s = .next u ∧ RegisterStep s u a.x s.me.gsz 0)) ∧
  (∀ (s s1 t2 own : State) (a : GBinO) (size pa : Nat) (bs : List Byte) (o : CounterResult),
    let x := (s.g a.x).toNat
    let y := (s.g a.y).toNat % 2 ^ 13
    let user := !s.me.pl
    let sc : Option Scope := if a.ord.isNone then some .sy else releaseOf a.ord
    let t := s1.released (engineOf a.ord) sc
    let c := t.cur
    s.reads a.x = true → s.reads a.y = true → s.readsZ a.z = true → x % 64 = 0 → x ≠ s.me.framep.toNat →
    donateSize s a.z x = .ok size →
    checkSpan translate ⟨0, false, false, user⟩ s x size = .ok s1 ∨ (s.inTcm x size ∧ s1 = s) →
    s1.canRelease false sc →
    (∃ t0 t1, settle t = .ok t0 ∧ locateCounter translate t0 true (!t.me.pl) t.me.ownjc.toNat = .ok (t1, pa) ∧
        readSpan translate c ⟨0, false, false, !t.me.pl⟩ t1 x size = .ok (t2, bs, none)) ∨
      (t.inTcm x size ∧ t.intact x size ∧ t.ownCounter t.me.ownjc.toNat ∧ pa = t.counterPlace t.me.ownjc.toNat ∧ t2 = t ∧
        bs = homeBytes t 0 (t.tcmPlace x).pa size) →
    counts t2 c pa .jinc own o →
    (y = ctxPkg c →
      let r := acceptDonation own y ⟨pa, t.me.ttag.toNat, ctxPkg c, bs⟩
      ∀ back o', (r.2 = 0 ∧ back = r.1) ∨ (r.2 ≠ 0 ∧ counts r.1 c pa .jdec back o') →
      exec (.donate a) s = .next ((block back c .wmem (.reply (.value a.x) (leBytes 8 (BitVec.ofInt 64 r.2).toNat) 0)).cause (.loadReply c))) ∧
    (y ≠ ctxPkg c →
      let key := streamKey (ctxHall c) (4 * y) 3
      let n := ((own.stream key).next + (own.stream key).waiting.length) % 2 ^ 32
      exec (.donate a) s = .next (sendMessage (block own c .wmem (.donate a.x pa key n)) (ctxHall c) (4 * y) 3 t.me.ttag.toNat
        (.donate c) (donatePayload ⟨pa, t.me.ttag.toNat, ctxPkg c, bs⟩))))

/-- GBAR, GBARA and GBARW arrive at the gang barrier and wait for its phase, whose change wakes its waiters; without a region they take
ILLOP 12. A waiter of another arcade goes on with its message. That the barrier stands in the arcade of rank 0 is the model's choice (log
entry 59) (R259, R260, R303, R304, R316). -/
def Obligations.gang_barriers : Prop :=
  (∀ (s : State) (pkg rcb : Nat) (r : Region), s.region pkg rcb = some r → r.rcb = rcb →
    ((arrive s pkg rcb).region pkg rcb = some (if r.expected ≤ 1 then { r with phase := !r.phase, expected := r.gsz }
      else { r with expected := r.expected - 1 })) ∧
    (arrive s pkg rcb).sched = (if r.expected ≤ 1 then .event (.gangBarrierWake pkg rcb) :: s.sched else s.sched) ∧
    arrive s pkg rcb = { s with pkgs := (arrive s pkg rcb).pkgs, sched := (arrive s pkg rcb).sched }) ∧
  (∀ (s1 : State) (r : Region) (x : GReg) (ord : Option OrdQ),
    s1.me.rcbp ≠ 0 → s1.regionOf s1.cur = some r → s1.reads x = true →
    let pkg := ctxPkg s1.cur
    let reach := gangScope r ord
    let order (d : MemOrder) : MemOrder := (ord.map (·.order)).getD d
    let eng := (ord.map (·.eng)).getD false
    let sc (d : MemOrder) : Option Scope := if order d = .rel ∨ order d = .ar then some reach else none
    let acq (d : MemOrder) : Option (Scope × Bool) := if order d = .acq ∨ order d = .ar then some (reach, eng) else none
    let arrived (d : MemOrder) (w : State) : Prop := ∃ t, s1.sends (sc d) ord (gangArcade pkg r) t ∧
      (reachGang t r = .ok w ∨ (gangArcade (ctxPkg t.cur) r = ctxArcade t.cur ∧ w = t))
    (∀ w, arrived .rel w → ∃ u, exec (.gbara ⟨x, ord⟩) s1 = .next u ∧
      RegisterStep (arrive w (ctxPkg w.cur) r.rcb) u x (if r.phase then 1 else 0) 0) ∧
    (r.rcb = s1.me.rcbp.toNat →
      (r.phase ≠ (s1.g x).getLsbD 0 →
        ∃ u, exec (.gbarw ⟨x, ord⟩) s1 = .next u ∧ NextStep (acquireWait s1 s1.cur (acq .acq)) u) ∧
      (r.phase = (s1.g x).getLsbD 0 →
        exec (.gbarw ⟨x, ord⟩) s1 = .next (block s1 s1.cur .wmsg (.gang r.phase (acq .acq))))) ∧
    (∀ w0, arrived .ar w0 →
      let w := arrive w0 pkg r.rcb
      ((w.region pkg r.rcb).map (·.phase) = some (!r.phase) →
        ∃ u, exec (.gbar ⟨ord⟩) s1 = .next u ∧ NextStep (acquireWait w w.cur (acq .ar)) u) ∧
      ((w.region pkg r.rcb).map (·.phase) = some r.phase →
        exec (.gbar ⟨ord⟩) s1 = .next (block w w.cur .wmsg (.gang r.phase (acq .ar)))))) ∧
  (∀ (s : State) (pkg rcb : Nat),
    (s.region pkg rcb = none → exec (.gangBarrierWake pkg rcb) s = .next s) ∧
    (∀ (r : Region) (c : Nat) (phase : Bool) (acq : Option (Scope × Bool)),
      let v := s.ctx c
      s.region pkg rcb = some r → c ∈ s.ctxs.map (·.1) → v.wait = .gang phase acq → ctxPkg c = pkg → v.rcbp.toNat = rcb →
      v.dying = none → isHalted s c = false → (∀ k, (s.stall k).tracec = 0) →
      ∃ t, exec (.gangBarrierWake pkg rcb) s = .next t ∧ t.mem = s.mem ∧
        (phase ≠ r.phase → gangArcade pkg r = ctxArcade c → (t.ctx c).wait = .none ∧ (t.ctx c).st = .run ∧ (t.ctx c).pc = v.nextPc) ∧
        (phase ≠ r.phase → gangArcade pkg r ≠ ctxArcade c → (t.ctx c).wait = .woken none 0 acq ∧ (t.ctx c).pc = v.pc) ∧
        (phase = r.phase → (t.ctx c).wait = .gang phase acq))) ∧
  (∀ (s : State) (x : GReg) (ord : Option OrdQ), s.me.rcbp = 0 → s.me.tvec ≠ 0 → s.me.intrap = false →
    ∀ i ∈ [Instr.gbar ⟨ord⟩, .gbara ⟨x, ord⟩, .gbarw ⟨x, ord⟩],
      ∃ t, exec i s = .next t ∧ TrapStep s t 0x01 (12 + 256 * (s.me.len / 2 - 1)) 0)

/-- The thirteen atomics compute the values of Table 14-2, an AMADD the moment sum of R320 with its flags, and answer the old value; one
whose type it does not accept takes ILLCOMBO. That an atomic sets its TBM bit whether it writes or not is read by inference (log entry 51,
DEDUCED) (R116, R183, R317, R318, R319, R320, R321, Table 14-2). -/
def Obligations.atomics : Prop :=
  (∀ e ∈ ([(Instr.aadd, .add), (Instr.aand, .and), (Instr.aor, .or), (Instr.axor, .xor), (Instr.amin, .min), (Instr.amax, .max),
        (Instr.aswp, .swp), (Instr.acas, .cas), (Instr.acas2, .cas2), (Instr.abinc, .binc), (Instr.abdec, .bdec), (Instr.afadd, .fadd),
        (Instr.amadd, .madd)] : List ((Atom → Instr) × AtomOp)),
    ∀ (a : Atom) (s s1 : State) (l : Located) (n : Nat) (signed : Bool),
      let va := effAddr s a.y (some a.z) a.imm n
      let rel := releaseOf a.ord
      let t := s1.released (engineOf a.ord) rel
      let c := t.cur
      let w := acquireOf ((drain t c).upd (fun v => { v with tbm := v.tbm ||| tbmBit c l.place })) a.ord
      let m := 2 ^ (8 * n)
      let x := if e.2 = .cas2 then (t.g a.x).toNat + 2 ^ 64 * (t.g (GReg.succ 1 a.x)).toNat else (t.g a.x).toNat % m
      let y := if e.2 = .cas2 then (t.g (GReg.succ 2 a.x)).toNat + 2 ^ 64 * (t.g (GReg.succ 3 a.x)).toNat
        else if e.2 = .cas then (t.g (GReg.succ 1 a.x)).toNat % m else 0
      let r := atomLocal w c l.place ((a.ord.map (·.scope)).getD .ac) n (atomNew e.2 n signed x y)
      s.me.okG e.2.regs a.x = true → s.reads a.y = true → s.reads a.z = true → atomType e.2 a.fmt = some (n, signed) → va % n = 0 →
      (translateFar (atomFar a) s va ⟨3, true, !e.2.pcie, !s.me.pl⟩ = .ok (s1, l) ∧ isPoisoned s1 s1.cur l.place n = false ∧
          isRemote t.cur l.place = false) ∨
        (s.inTcm va n ∧ s.intact va n ∧ s1 = s ∧ l = ⟨s.tcmPlace va, 0⟩ ∧ t.cur = s.cur) →
      s1.canRelease true rel → storeHeldBy (drain t c) c = none →
      ∃ u, exec (e.1 a) s = .next u ∧
        (r.2.2.2 = true → e.2 ≠ .cas2 → r.2.1.length = n → RegisterStep r.1 u a.x
          (if signed then (BitVec.ofNat (8 * n) (leNat r.2.1)).signExtend 64 else BitVec.ofNat 64 (leNat r.2.1)) r.2.2.1) ∧
        (r.2.2.2 = true → e.2 = .cas2 → PairStep r.1 u a.x (GReg.succ 1 a.x)
          (BitVec.ofNat 64 (leNat (r.2.1.take 8))) (BitVec.ofNat 64 (leNat (r.2.1.drop 8))) r.2.2.1) ∧
        (r.2.2.2 = false → u = (block r.1 r.1.cur .wmem
          (.reply (if e.2 = .cas2 then .pairValue a.x else .scalar a.x n signed) r.2.1 r.2.2.1)).cause (.loadReply r.1.cur))) ∧
  (∀ e ∈ ([(Instr.aadd, .add), (Instr.afadd, .fadd), (Instr.amadd, .madd)] : List ((Atom → Instr) × AtomOp)), ∀ (a : Atom) (s : State),
    s.reads a.x = true → s.reads a.y = true → s.reads a.z = true → atomType e.2 a.fmt = none → s.me.tvec ≠ 0 → s.me.intrap = false →
    ∃ u, exec (e.1 a) s = .next u ∧ TrapStep s u 0x02 1 0) ∧
  (∀ (n x y old : Nat) (signed : Bool), n = 4 ∨ n = 8 → x < 2 ^ (8 * n) → old < 2 ^ (8 * n) →
    let m := 2 ^ (8 * n)
    let int (v : Nat) : Int := if signed then (BitVec.ofNat (8 * n) v).toInt else v
    ∀ e ∈ ([(.add, some ((old + x) % m)), (.and, some (Nat.land old x)), (.or, some (Nat.lor old x)), (.xor, some (Nat.xor old x)),
          (.min, some (if int x < int old then x else old)), (.max, some (if int old < int x then x else old)), (.swp, some x),
          (.cas, if old = x then some y else none), (.cas2, if old = x then some y else none),
          (.binc, if int old < int x then some ((old + 1) % m) else none),
          (.bdec, if int x < int old then some ((old + m - 1) % m) else none),
          (.fadd, some (fadd32 .rne (BitVec.ofNat 64 old) (BitVec.ofNat 64 x)).val.toNat)] : List (AtomOp × Option Nat)),
      (atomNew e.1 n signed x y old).new = e.2) ∧
  (∀ (x y old : Nat) (signed : Bool),
    let p := decodeMoment old
    let q := decodeMoment x
    let r := atomNew .madd 8 signed x y old
    let checked (v : FVal) : Flagged FVal :=
      if v.isNan || (v.isNeg && !v.isZero) then ⟨.fin false 0 0, flagNV⟩ else if v.isZero then ⟨.fin false 0 0, 0⟩ else ⟨v, 0⟩
    let a := checked p.var
    let b := checked q.var
    let mean := fp32.finish .rne (FVal.add .rne p.mean q.mean)
    let var := fp32.finish .rne (FVal.add .rne a.val b.val)
    let w := checked var.val
    (p.mean.isNan = true ∨ q.mean.isNan = true → r = ⟨some 0x7FC00000, 0⟩) ∧
    (p.mean.isNan = false → q.mean.isNan = false →
      r = ⟨some (fp32.encode mean.val + 2 ^ 32 * fp32.encode w.val), a.flags ||| b.flags ||| mean.flags ||| var.flags ||| w.flags⟩)) ∧
  (∀ (s : State) (c n : Nat) (p : Place) (sc : Scope) (f : Nat → AtomResult), p.cached = false → isHost p.pa = false → isDevice p.pa = false →
    (∀ h off, storageOf p.pa ≠ .hallRegs h off) →
    let old := homeBytes s p.key p.pa n
    let r := atomLocal s c p sc n f
    r.2.1 = old ∧ r.2.2.1 = (f (leNat old)).flags ∧
      r.1 = match (f (leNat old)).new with | some v => writeHome s p.key p.pa (leBytes n v) | none => s)

/-- FENCE and FENCEE release and acquire, FLUSH, INVAL and PREF act on one line, TBMC clears TBM. That a `.sy` release which waits leaves the
instruction to issue again is the model's choice (log entry 30); so is that PREF makes its walk in the same step and drops a line that a
Carter has taken (log entry 52) (R324, R325, R326, R327, R294, R312, R316, R421, R441). -/
def Obligations.fences_and_cache_maintenance : Prop :=
  (∀ (s1 : State) (ord : Option OrdQ),
    let scope : Scope := (ord.map (·.scope)).getD .ac
    let order : MemOrder := (ord.map (·.order)).getD .none
    let d := drain s1 s1.cur
    let rel := if order = .acq then none else some scope
    ∀ e ∈ [(Instr.fence ⟨ord⟩, false), (Instr.fencee ⟨ord⟩, true)],
      let t := s1.released e.2 rel
      let w := if order = .rel then t else acquireCaches t t.cur scope
      (s1.canRelease true rel → ∃ u, exec e.1 s1 = .next u ∧ NextStep w u) ∧
      (order ≠ .acq → storeHeldBy d s1.cur = none → scope = .sy →
        (d.me.posted ≠ 0 → exec e.1 s1 = .next (s1.stay.causeOnce (.storePerform s1.cur))) ∧
        (d.me.posted = 0 → d.me.tbm.getLsbD 50 = true → d.me.hostAddr.isSome = true →
          exec e.1 s1 = .next ((block s1 s1.cur .wmem .hostRead).causeOnce (.loadReply s1.cur))) ∧
        (d.me.posted = 0 → d.me.tbm.getLsbD 50 = false ∨ d.me.hostAddr = none → d.me.lost ≠ 0 →
          exec e.1 s1 = .next ((d.upd (fun v => { v with lost := 0 })).trap s1.cur (flossRelease d.me))))) ∧
  (∀ (s s1 : State) (l : Located) (y : GReg) (imm : Word) (ord : Option OrdQ),
    let va := effAddr s y none imm 1
    let p := l.place
    let c := s1.cur
    let scope : Scope := (ord.map (·.scope)).getD .pk
    let far := scope = .ha ∨ scope = .pk ∨ scope = .sy
    let d := drain s1 c
    s.reads y = true →
    translate s va ⟨0, false, false, !s.me.pl⟩ = .ok (s1, l) ∨ (s.inTcm va 1 ∧ s1 = s ∧ l = ⟨s.tcmPlace va, 0⟩) →
    (p.mtype ≠ 0 → (∃ u, exec (.flush ⟨y, imm, ord⟩) s = .next u ∧ NextStep s1 u) ∧
      (∃ u, exec (.inval ⟨y, imm, ord⟩) s = .next u ∧ NextStep s1 u)) ∧
    (p.mtype = 0 → storeHeldBy d c = none →
      (isRemote c p = true →
        (scope = .sy ∧ d.me.posted ≠ 0 → exec (.flush ⟨y, imm, ord⟩) s = .next d.stay) ∧
        (¬(scope = .sy ∧ d.me.posted ≠ 0) → ∃ u, exec (.flush ⟨y, imm, ord⟩) s = .next u ∧ NextStep d u)) ∧
      (isRemote c p = false →
        (far ∧ p.cached = true → ∃ u, exec (.flush ⟨y, imm, ord⟩) s = .next u ∧ NextStep (flushLine d c p scope) u) ∧
        (¬(far ∧ p.cached = true) → ∃ u, exec (.flush ⟨y, imm, ord⟩) s = .next u ∧ NextStep d u)) ∧
      (far ∧ p.cached = true → ∃ u, exec (.inval ⟨y, imm, ord⟩) s = .next u ∧ NextStep (invalLine d c p scope) u)) ∧
    (p.mtype = 0 → ¬(far ∧ p.cached = true) → ∃ u, exec (.inval ⟨y, imm, ord⟩) s = .next u ∧ NextStep s1 u)) ∧
  (∀ (s : State) (y : GReg) (imm : Word) (ord : Option OrdQ), s.reads y = true →
    let acc : Acc := ⟨0, false, false, !s.me.pl⟩
    (∀ x, translateNow s s.cur (effAddr s y none imm 1) acc = .error x →
      ∃ u, exec (.pref ⟨y, imm, ord⟩) s = .next u ∧ NextStep s u) ∧
    (∀ s1 l, translateNow s s.cur (effAddr s y none imm 1) acc = .ok (s1, l) →
      ∃ u, exec (.pref ⟨y, imm, ord⟩) s = .next u ∧
        NextStep (if l.place.cached && (carterWait s1 s1.cur acc false l.place).isNone then
          (loadPlace s1 s1.cur l.place 1 (policyOf ord)).1 else s1) u)) ∧
  (∀ s : State, ∃ u, exec .tbmc s = .next u ∧ ContextStep s u { s.me with tbm := 0, pc := s.me.nextPc, walked := [], missed := none, saved := none })

/-- BINIT, BARR, BWAIT, BEXP and BTEST work on a barrier object as R342 to R345 say; BARRIER_WAKE wakes its waiters, one of another arcade
with a message (R342, R343, R344, R345, R351, R303, R304, Table 16-10). -/
def Obligations.barrier_objects : Prop :=
  (∀ (o : BarrierObject) (b a : Nat), o.arrive b a =
    (if o.bytes ≤ b ∧ o.arrs ≤ a then ⟨o.ibytes, o.iarrs, !o.phase, o.ibytes, o.iarrs⟩
      else ⟨o.bytes - b, o.arrs - a, o.phase, o.ibytes, o.iarrs⟩,
     decide (o.bytes < b ∨ o.arrs < a), decide (o.bytes ≤ b ∧ o.arrs ≤ a))) ∧
  (∀ (s : State) (pa ak off r1 r2 : Nat) (o : BarrierObject), storageOf pa = .scratch ak off → pa % 16 = 0 →
    o.bytes < 2 ^ 32 → o.arrs < 2 ^ 16 → o.ibytes < 2 ^ 32 → o.iarrs < 2 ^ 16 → r1 < 2 ^ 15 → r2 < 2 ^ 16 →
    readObjectAt (putObject s pa o r1 r2) pa = (o, r1, r2) ∧
    ∀ key x, (x < pa ∨ pa + 16 ≤ x) → homeByte (putObject s pa o r1 r2) key x = homeByte s key x) ∧
  (∀ (s s0 s1 : State) (a : GMem) (pa va : Nat),
    let b := (s.g a.x).toNat % 2 ^ 32
    let n := (s.g a.x).toNat / 2 ^ 32 % 2 ^ 16
    let located (writes : Bool) : Prop := locateObject s a writes = .ok (s0, pa, va) ∨
      (s.reads a.x = true ∧ s.reads a.y = true ∧ s.readsZ a.z = true ∧ va = effAddr s a.y a.z a.imm 16 ∧ s.ownObject va ∧ s0 = s ∧
        pa = s.counterPlace va)
    let reached (w : State) : Prop := atBank w pa = .ok s1 ∨ (objectArcade pa = ctxArcade w.cur ∧ s1 = w)
    let there (w : State) : Prop := ∃ t, coverFor w (objectArcade pa) a.ord = .ok t ∧ reached t
    let r := readObjectAt s1 pa
    (located true → there s0 →
      (∃ u, exec (.binit a) s = .next u ∧ NextStep (putObject s1 pa ⟨b, n, false, b, n⟩ 0 0) u) ∧
      (r.1.bytes + b < 2 ^ 32 ∧ r.1.arrs + n < 2 ^ 16 → ∃ u, exec (.bexp a) s = .next u ∧
        RegisterStep (putObject s1 pa { r.1 with bytes := r.1.bytes + b, arrs := r.1.arrs + n } r.2.1 r.2.2) u a.x
          (if r.1.phase then 1 else 0) 0) ∧
      (¬(r.1.bytes + b < 2 ^ 32 ∧ r.1.arrs + n < 2 ^ 16) →
        ∃ u, exec (.bexp a) s = .next u ∧ RegisterStep s1 u a.x (BitVec.allOnes 64) 0)) ∧
    (let sc : Option Scope := match a.ord with
       | none => some (objectScope s0 pa)
       | some q => if q.order = .rel then some q.scope else none
     ∀ t, located true → s0.sends sc a.ord (objectArcade pa) t → reached t →
      let w := arriveAt s1 pa b n
      ∃ u, exec (.barr a) s = .next u ∧ RegisterStep w.1 u a.x
        (BitVec.ofNat 64 ((if w.2.1 then 1 else 0) + (if w.2.2.1 then 2 else 0) + (if w.2.2.2 then 4 else 0))) 0) ∧
    (located false → there s0 →
      let now := (readObjectAt s1 pa).1.phase
      let acq := bwaitAcquire s1 pa a.ord
      (∃ u, exec (.btest a) s = .next u ∧ RegisterStep (acquireOf s1 a.ord) u a.x (BitVec.ofNat 64 (leNat (homeBytes s1 0 pa 8))) 0) ∧
      (now ≠ (s.g a.x).getLsbD 0 →
        ∃ u, exec (.bwait a) s = .next u ∧ RegisterStep (acquireWait s1 s1.cur acq) u a.x (if now then 1 else 0) 0) ∧
      (now = (s.g a.x).getLsbD 0 →
        exec (.bwait a) s = .next (block s1 s1.cur .wmsg (.object pa va ((s.g a.x).getLsbD 0) a.x acq))))) ∧
  (∀ (s : State) (pa va c : Nat) (phase : Bool) (x : GReg) (acq : Option (Scope × Bool)),
    let v := s.ctx c
    c ∈ s.ctxs.map (·.1) → v.wait = .object pa va phase x acq → v.dying = none → isHalted s c = false → (∀ k, (s.stall k).tracec = 0) →
    let now := (readObjectAt s pa).1.phase
    ∃ t, exec (.barrierWake pa) s = .next t ∧ t.mem = s.mem ∧
      (now ≠ phase → objectArcade pa = ctxArcade c → (t.ctx c).wait = .none ∧ (t.ctx c).st = .run ∧ (t.ctx c).pc = v.nextPc ∧
        (t.ctx c).lat = if now then 1 else 0) ∧
      (now ≠ phase → objectArcade pa ≠ ctxArcade c → (t.ctx c).wait = .woken (some x) (if now then 1 else 0) acq ∧ (t.ctx c).pc = v.pc) ∧
      (now = phase → (t.ctx c).wait = .object pa va phase x acq))

/-- CTSET, COPY, CWM, CWAIT, TFPIN and TFREL complete as their rules say; the Carter's events move, complete and hand on. That a COPY or CWM
of a frozen Carter waits in WMEM to issue again is the model's choice (log entry 53); that TFPIN checks its tile as an operand A or B, one
that passes, is too (log entry 104) (R212, R333, R334, R335, R336, R337, R338, R340, R341, R347, R350, R392). -/
def Obligations.carter : Prop :=
  (∀ (s s1 s2 : State) (a : GMem) (l : Located) (bs : List Byte) (now : Bool),
    let va := effAddr s a.y a.z a.imm 8
    let slot := (s.g a.x).toNat
    s.reads a.x = true → s.reads a.y = true → s.readsZ a.z = true → va % 64 = 0 → carterFrozen s1 (ctxArcade s.cur) = false →
    s1.cur = s.cur →
    (translate s va ⟨0, false, false, !s.me.pl⟩ = .ok (s1, l) ∧ isPoisoned s1 s1.cur l.place 64 = false ∧
        isRemote s1.cur l.place = false ∧ readPlace s1 s1.cur l.place 64 .page = .ok (s2, bs, now)) ∨
      (s.inTcm va 64 ∧ s.intact va 64 ∧ newestOverlap s.me (s.tcmPlace va).pa 64 = none ∧ s1 = s ∧ s2 = s ∧ now = true ∧
        bs = homeBytes s 0 (s.tcmPlace va).pa 64) →
    (now = true → slot < 1024 → templateBad (leNat bs) = false → ∃ u, exec (.ctset a) s = .next u ∧
      RegisterStep (putBytes s2 (scratchBase (ctxArcade s2.cur) + 2 ^ 16 + 64 * slot) (bs.take 64)) u a.x 0 0) ∧
    (now = true → 1024 ≤ slot ∨ templateBad (leNat bs) = true →
      ∃ u, exec (.ctset a) s = .next u ∧ RegisterStep s2 u a.x (BitVec.allOnes 64) 0) ∧
    (now = false →
      exec (.ctset a) s = .next ((block s2 s2.cur .wmem (.reply (.template a.x slot) bs 0)).cause (.loadReply s2.cur)))) ∧
  (∀ (s s1 : State) (a : GMem) (ak ch va : Nat), locateAperture s a = .ok (s1, ak, ch, va) →
    let rel := releaseOf a.ord
    let t := s1.released (engineOf a.ord) rel
    let k := (s1.arcade ak).channel ch
    let id := (s.g a.x).toNat % 2 ^ 32
    let acq : Option (Scope × Bool) := match a.ord with
      | none => some (.ac, true)
      | some o => if o.order = .acq then some (o.scope, o.eng) else none
    let w := if (s.g a.x).getLsbD 0 then s1.updArcade ak (fun v => v.updChannel ch (fun q => { q with derr := false, last := 0 })) else s1
    let status := (if k.derr then 2 ^ 48 else 0) + k.queue.length * 2 ^ 40 + k.last * 2 ^ 32 + k.watermark
    let waits (i : Instr) (q : Wait) (e : Event) : Prop := exec i s = .next ((block s s.cur .wmem q).causeOnce e)
    let answers (u : State) (w : Word) : Prop := exec (.copy a) s =
      .next ((block u u.cur .wmem (.reply (.value a.x) (leBytes 8 w.toNat) 0)).cause (.loadReply u.cur))
    (carterFrozen s1 ak = true → waits (.copy a) (.slot ak ch) (.carterBeat ak) ∧ waits (.cwm a) (.slot ak ch) (.carterBeat ak)) ∧
    (carterFrozen s1 ak = false →
      (s1.canRelease false rel →
        (∀ n, offerCopy t ak ch (t.g a.x).toNat = .refused n → answers t (BitVec.ofInt 64 n)) ∧
        (∀ q e, offerCopy t ak ch (t.g a.x).toNat = .held q e → waits (.copy a) q e) ∧
        (∀ x n, offerCopy t ak ch (t.g a.x).toNat = .accepted x n → answers x (BitVec.ofNat 64 n))) ∧
      (∃ u, exec (.cwm a) s = .next u ∧ RegisterStep (acquireOf w a.ord) u a.x (BitVec.ofNat 64 status) 0)) ∧
    ((k.watermark + 2 ^ 32 - id) % 2 ^ 32 < 2 ^ 31 →
      ∃ u, exec (.cwait a) s = .next u ∧ RegisterStep (acquireWait s1 s1.cur acq) u a.x (BitVec.ofNat 64 status) 0) ∧
    (2 ^ 31 ≤ (k.watermark + 2 ^ 32 - id) % 2 ^ 32 →
      exec (.cwait a) s = .next (block s1 s1.cur .wmsg (.channel (16 * ak + ch) va id a.x acq)))) ∧
  (∀ (s : State) (a : IOne), a.x.val < 8 →
    let w := s.me.tile a.x.val
    let t := tileOf w
    let ak := ctxArcade s.cur
    let mine (p : Pin) : Bool := p.desc == w.toNat % 2 ^ 98 && p.rcb == s.me.rcbp.toNat
    let pinned (r : State) (ps : List Pin) (u : State) : Prop := u = { r with ctxs := u.ctxs, arcades := u.arcades } ∧
      (∀ c, c ≠ r.cur → u.ctx c = r.ctx c) ∧ u.me = { r.me with pc := r.me.nextPc, walked := [], missed := none, saved := none } ∧
      (∀ b, b ≠ ak → u.arcade b = r.arcade b) ∧ u.arcade ak = { r.arcade ak with pins := ps }
    (∀ s1 ts, checkPin s t = .ok (s1, ts) → s1.me = s.me →
      let r := (pinLines s1 (ctxHall s.cur) (t.addrs.map (placeThrough s.cur ts))).1
      let lines := (pinLines s1 (ctxHall s.cur) (t.addrs.map (placeThrough s.cur ts))).2
      let ps := (r.arcade ak).pins
      ∃ u, exec (.tfpin a) s = .next u ∧ pinned r
        (if ps.any mine then ps.map (fun p => if mine p then { p with count := p.count + 1, lines := (p.lines ++ lines).dedup } else p)
        else if 32 ≤ ps.length then ps
        else ps ++ [⟨w.toNat % 2 ^ 98, s.me.rcbp.toNat, 1, lines⟩]) u) ∧
    (s.me.tvec ≠ 0 → s.me.intrap = false →
      let legalA : Prop := t.fmt ∈ [Fmt.e4m3, .e5m2, .bf16, .fp16, .fp32, .i8, .n8, .m64]
      let legalB : Prop := legalA ∨ t.fmt = .ds8
      let fits : Prop := (legalA ∧ t.rows ≤ 64) ∨ (legalB ∧ t.cols ≤ 64)
      (¬legalB → ∃ u, exec (.tfpin a) s = .next u ∧ TrapStep s u 0x02 1 0) ∧
      (legalB → ¬fits → ∃ u, exec (.tfpin a) s = .next u ∧ TrapStep s u 0x02 3 0) ∧
      (fits → t.space ≠ 3 → ∃ u, exec (.tfpin a) s = .next u ∧ TrapStep s u 0x02 4 0)) ∧
    (∃ u, exec (.tfrel a) s = .next u ∧ pinned s
      (((s.arcade ak).pins.map (fun p => if mine p then { p with count := p.count - 1 } else p)).filter (fun p => p.count != 0)) u)) ∧
  (∀ (s : State) (ak ch : Nat) (j : CarterJob) (r : List CarterJob), ((s.arcade ak).channel ch).queue = j :: r →
    (carterFrozen s ak = true → ∃ t, exec (.carterBeat ak) s = .next t ∧ t = { s with arcades := t.arcades, due := t.due } ∧
      (∀ b, b ≠ ak → t.arcade b = s.arcade b) ∧ t.arcade ak = { s.arcade ak with cycle := (t.arcade ak).cycle }) ∧
    (∀ served, carterFrozen s ak = false → nextBeat (s.arcade ak) = some (ch, served) → ch ≠ 15 →
      let m := moveBeat (s.updArcade ak (fun a => { a with cycle := served })) ak j
      ∃ t, exec (.carterBeat ak) s = .next t ∧ t.mem = m.1.mem ∧ t.ctxs = m.1.ctxs ∧
        ((t.arcade ak).channel ch).queue = m.2 :: r) ∧
    (j.beats = [] → ch < 16 → j.bar = none → j.tpl.fv = false → carterFrozen s ak = false ∨ j.tpl.total ≠ 0 →
      (∀ e ∈ s.ctxs, (∀ q va id x acq, e.2.wait ≠ .channel q va id x acq) ∧ ∀ b i, e.2.wait ≠ .slot b i) →
      ∃ t, exec (.transferComplete ak ch) s = .next t ∧ t.mem = s.mem ∧ t.ctxs = s.ctxs ∧
        (t.arcade ak).channel ch = { (s.arcade ak).channel ch with
          watermark := j.id, derr := ((s.arcade ak).channel ch).derr || j.derr, queue := r })) ∧
  (∀ (a : Arcade) (ch : Nat) (served : List Nat), nextBeat a = some (ch, served) →
    ((served = a.cycle ++ [ch] ∧ ch ∉ a.cycle ∧ a.cycle.length < 4) ∨ served = [ch]) ∧ (ch = 15 → a.moves ≠ []) ∧
    (ch ≠ 15 → ch < 15 ∧ (a.moves ≠ [] → 15 ∈ a.cycle ∧ 15 ∈ served) ∧ ∃ j r, (a.channel ch).queue = j :: r ∧ j.beats ≠ [])) ∧
  (∀ (s : State) (ak src dst n : Nat) (m : TileMove) (r : List TileMove) (rest : List (Nat × Nat × Nat)) (served : List Nat),
    (s.arcade ak).moves = m :: r → m.beats = (src, dst, n) :: rest → carterFrozen s ak = false →
    nextBeat (s.arcade ak) = some (15, served) → arcadeHall (objectArcade src) = arcadeHall ak →
    let last := if rest = [] then some m.thief else none
    ∃ t, exec (.carterBeat ak) s = .next t ∧ t.mem = s.mem ∧ t.ctxs = s.ctxs ∧ .networkMessageDelivery ak ∈ t.due ∧
      (t.arcade ak).moves = (if rest = [] then r else { m with beats := rest } :: r) ∧
      (t.arcade ak).inbox = (s.arcade ak).inbox ++
        [⟨some (ctxStall m.thief), 0, arcadeStall (objectArcade src) 0, 9, homeBytes s 0 src n, .tile dst last⟩]) ∧
  (∀ (s : State) (ak dst : Nat) (last : Option Nat) (m : Message), m.act = .tile dst last →
    (applyEffect s ak m).mem = (putBytes s dst m.payload).mem ∧ (applyEffect s ak m).ctxs = s.ctxs ∧
      ∀ thief, last = some thief → .tileMoveComplete thief ∈ (applyEffect s ak m).due) ∧
  (∀ (s : State) (ak : Nat),
    (carterFrozen s ak = true → exec (.followOnHandoff ak) s = .next (s.causeOnce (.followOnHandoff ak))) ∧
    (carterFrozen s ak = false →
      ((s.arcade ak).handed = [] → (s.arcade ak).passed = [] → exec (.followOnHandoff ak) s = .next s) ∧
      (∀ f, (s.arcade ak).handed = [f] → (s.arcade ak).passed = [] →
        let s1 := s.updArcade ak (fun v => { v with handed := [] })
        (followCommand s1 ak f = none →
          ∃ t, exec (.followOnHandoff ak) s = .next t ∧ t.mem = s.mem ∧ t.ctxs = s.ctxs ∧ t.stalls = s.stalls ∧
            (t.arcade ak).handed = [] ∧ ((t.arcade ak).channel f.ch).last = 1) ∧
        (∀ t k x, followCommand s1 ak f = some (t, k, x) → (t.arcade ak).passed = [] → (queueOf (t.stall k) x.high).length < 4 →
          let w := t.updArcade ak (fun v => { v with passed := [(k, x)] })
          storeHeldBy (drain w x.ctx) x.ctx = none →
          exec (.followOnHandoff ak) s = .next (enterQueue ((drain w x.ctx).updArcade ak (fun v => { v with passed := v.passed.erase (k, x) }))
            k { x with seq := (drain w x.ctx).tick })))))

/-- REPART, CTXSAVE, CTXLOAD, PURGE and TLBINV in supervisor mode do what their rules say; walks, recalls, evictions and
messages follow (R214, R215, R281, R288, R301, R303, R367, R385, R386, R387, R400, R440). -/
def Obligations.partition_save_and_translation : Prop :=
  (∀ (s : State) (x y : GReg), s.me.pl = true → s.reads x = true → s.reads y = true →
    let k := ctxStall s.cur
    let v := (s.g x).toNat
    let n := if v = 0 then 64 else if v = 1 then 32 else 16
    (v ≤ 2 → s.cur % 64 = 0 → quiescent s k = true → ∃ u, exec (.repart ⟨x⟩) s = .next u ∧ (u.stall k).ctxn = n ∧ (∀ key b, homeByte u key b = homeByte s key b) ∧
      (∀ c, ctxStall c ≠ k → u.ctx c = s.ctx c) ∧ (∀ j, j ≠ k → u.stall j = s.stall j) ∧ u.me.pc = s.me.nextPc ∧
      (∀ j, j / 2048 ≠ k → Store.get 0 u.gfile j = Store.get 0 s.gfile j) ∧ (∀ j, j / 1024 ≠ k → Store.get 0 u.vfile j = Store.get 0 s.vfile j) ∧
      (∀ i, i < n → (u.ctx (64 * k + i)).gsize = 2048 / n ∧ (u.ctx (64 * k + i)).gbase = i * (2048 / n) ∧
        (u.ctx (64 * k + i)).vsize = 1024 / n ∧ (u.ctx (64 * k + i)).vbase = i * (1024 / n)) ∧
      (∀ j, j < 2048 → Store.get 0 u.gfile (2048 * k + j) = 0) ∧ (∀ j, j < 1024 → Store.get 0 u.vfile (1024 * k + j) = 0)) ∧
    (2 < v ∨ s.cur % 64 ≠ 0 ∨ quiescent s k = false → s.me.tvec ≠ 0 → s.me.intrap = false →
      ∃ u, exec (.repart ⟨x⟩) s = .next u ∧ TrapStep s u 0x01 (11 + 256 * (s.me.len / 2 - 1)) 0) ∧
    (let dead (u : State) (c : Nat) : Prop := ∃ d, (u.ctx c).dying = some d ∧ d.purged = true ∧ d.detail = s.g y ∧
        u.sched = .event (.taskDeath c) :: s.sched;
      (64 ≤ v ∨ s.myStall.ctxn ≤ v → ∃ u, exec (.purge ⟨x, y⟩) s = .next u ∧ RegisterStep s u x (BitVec.allOnes 64) 0) ∧
      (v < 64 → v < s.myStall.ctxn →
        (64 * k + v = s.cur → s.me.dying = none → ∃ u, exec (.purge ⟨x, y⟩) s = .next u ∧ dead u s.cur) ∧
        (64 * k + v ≠ s.cur → hasTask (s.ctx (64 * k + v)) = false → ∃ u, exec (.purge ⟨x, y⟩) s = .next u ∧ RegisterStep s u x 1 0) ∧
        (64 * k + v ≠ s.cur → hasTask (s.ctx (64 * k + v)) = true → (s.ctx (64 * k + v)).dying = none →
          ∃ u w, RegisterStep s w x 0 0 ∧ exec (.purge ⟨x, y⟩) s = .next u ∧ dead u (64 * k + v) ∧ u.me = w.me))) ∧
    (let f := tlbMatch ((s.g y).toNat / 2 ^ 7 % 4) ((s.g y).toNat % 2 ^ 7) v;
      let ks := reachStalls s.cur ((s.g y).toNat / 2 ^ 9 % 4);
      ∀ s1, settle s = .ok s1 ∨ (s.me.storeQ = [] ∧ s1 = s) → (∀ q ∈ ks, usersOf s1 f q = [] ∧ pendingUses s1 f q = false) →
        ∃ u, exec (.tlbinv ⟨x, y⟩) s = .next u ∧ NextStep (ks.foldl (dropTlb f) s1) u ∧ (∀ q ∈ ks, ∀ t ∈ (u.stall q).tlb, f t = false))) ∧
  (∀ (s s1 s2 : State) (x y : GReg), s.me.pl = true → s.reads x = true → s.reads y = true →
    let frame := if x = .g 0 then s.me.sscratch.toNat else (s.g x).toNat
    let l := LiveSet.whole s.me
    let pair := if (s.g y).getLsbD 0 then s.held s.cur else none
    frame % 64 = 0 →
    (checkSpan translate ⟨5, true, false, false⟩ s frame (if pair.isSome then l.pairAt + 57344 else l.areaEnd) = .ok s1 →
      settle s1 = .ok s2 → (pair.isSome = true → waitBanks s2 (heldBanks s2 s.cur) = .ok ()) →
      ∀ s3 s4 s5 s6 n, saveRegs translate s.cur false s2 frame l = .ok s3 →
      (match pair with | some p => savePair translate s.cur false s3 (frame + l.pairAt) p = .ok s4 | none => s4 = s3) →
      readWord translate s.cur false s4 (frame + 0x38) 8 = .ok (s5, n) →
      writeWord translate s.cur false s5 (frame + 0x38) 8 (n / 2 ^ 32 % 2 ^ 11 * 2 ^ 32 + n / 2 ^ 8 % 2 ^ 8 * 2 ^ 8 + n / 16 % 8 * 16 + (if pair.isSome then 8 else 0) + 6 + n % 2) = .ok s6 →
      ∃ u, exec (.ctxsave ⟨x, y⟩) s = .next u ∧ NextStep s6 u) ∧
    (s.me.storeQ = [] → s.inTcm frame l.areaEnd → s.me.gsize ≤ 128 → s.me.vsize ≤ 64 →
      let at0 := (s.tcmPlace frame).pa
      (pair = none → s.inTcm frame 128 → ∃ u, exec (.ctxsave ⟨x, y⟩) s = .next u ∧ u = { s with ctxs := u.ctxs, mem := u.mem, poison := u.poison } ∧
        (∀ c, c ≠ s.cur → u.ctx c = s.ctx c) ∧ u.me = { s.me with pc := s.me.nextPc, walked := [], missed := none, saved := none } ∧
        (∀ e ∈ l.layout, homeBytes u 0 (at0 + e.2) e.1.size = itemBytes s s.cur e.1) ∧
        (∀ key b, b < at0 + 0x38 ∨ at0 + l.areaEnd ≤ b → homeByte u key b = homeByte s key b)) ∧
      (let n := leNat (homeBytes s 0 (at0 + 0x38) 8)
       n.testBit 1 = true → n.testBit 2 = true → n.testBit 3 = false → s.inTcm frame 128 →
        ∃ u, exec (.ctxload ⟨x⟩) s = .next u ∧ u = { s with ctxs := u.ctxs, gfile := u.gfile, vfile := u.vfile } ∧
          (∀ c, c ≠ s.cur → u.ctx c = s.ctx c) ∧ u.me.pc = s.me.nextPc ∧ u.me.flags = s.me.flags ∧
          ∀ e ∈ l.layout, itemBytes u s.cur e.1 = homeBytes s 0 (at0 + e.2) e.1.size)) ∧
    (settle s = .ok s1 → ∀ h, readHeader translate s.cur false s1 frame = .ok (s2, h) →
      (bitOf h.fflags 1 = false → ∃ u, exec (.ctxload ⟨x⟩) s = .next u ∧ NextStep s2 u) ∧
      (bitOf h.fflags 1 = true → bitOf h.fflags 2 = true → ∀ s4 s5, let w := LiveSet.whole s2.me
        (bitOf h.fflags 3 = true → waitBanks s2 (heldBanks s2 s.cur) = .ok ()) →
        checkSpan translate ⟨5, false, false, false⟩ s2 frame (if bitOf h.fflags 3 then w.pairAt + 57344 else w.areaEnd) = .ok s4 →
        restoreRegs translate s.cur false true s4 frame w = .ok s5 →
        (bitOf h.fflags 3 = false → ∃ u, exec (.ctxload ⟨x⟩) s = .next u ∧ NextStep s5 u) ∧
        (bitOf h.fflags 3 = true → ∀ t, loadHeldPair s5 (frame + w.pairAt) = .ok t → exec (.ctxload ⟨x⟩) s = .next t)))) ∧
  (∀ (s : State) (hall : Nat), let h := s.hall hall
    (h.walks = [] → exec (.pageWalk hall) s = .next s) ∧
    (∀ r s2 t, h.walks = [r] → (s.ctx r.ctx).wait = .walk → (s.ctx r.ctx).dying = none → (s.ctx r.ctx).missed = some (r.va, r.kind, r.user) →
      let s1 := s.updHall hall (fun x => { x with walks := [] })
      walkLeaf s1 r.ctx (s.ctx r.ctx).ptbr (s.ctx r.ctx).keyt r.va ⟨r.kind, false, false, r.user⟩ = .ok (s2, t) →
      (s2.stall (ctxStall r.ctx)).tracec = 0 →
      ∃ u, exec (.pageWalk hall) s = .next u ∧ (u.ctx r.ctx).wait = .none ∧ (u.ctx r.ctx).missed = none ∧
        (u.ctx r.ctx).walked = (s2.ctx r.ctx).walked ++ [t]) ∧
    (∀ r t, h.walks = [r] → (s.ctx r.ctx).wait = .walk → (s.ctx r.ctx).dying = none → (s.ctx r.ctx).missed = some (r.va, r.kind, r.user) →
      let s1 := s.updHall hall (fun x => { x with walks := [] })
      walkLeaf s1 r.ctx (s.ctx r.ctx).ptbr (s.ctx r.ctx).keyt r.va ⟨r.kind, false, false, r.user⟩ = .error t →
      exec (.pageWalk hall) s = .next ((wake s1 r.ctx).trap r.ctx (if r.kind = 2 then fetchTrap t r.va else t)))) ∧
  (∀ (s : State) (hall key line : Nat), key < 2048 → line < 2 ^ 50 → carterOwner s hall key line = none →
    ∃ u, exec (.homeRecall hall key line) s = .next u ∧ u.ctxs = s.ctxs ∧ u.gfile = s.gfile ∧
      ∀ k l, stallHall k = hall → u.l1.lookup (l1Key k key line) = some l → l.owned = false) ∧
  (∀ (s : State) (unit key line : Nat),
    (∃ u, exec (.lineEviction .l1 unit key line) s = .next u ∧ u.ctxs = s.ctxs ∧ u.l1.lookup (l1Key unit key line) = none) ∧
    (isPinned s unit key line = true → exec (.lineEviction .l2 unit key line) s = .next s) ∧
    (isPinned s unit key line = false →
      ∃ u, exec (.lineEviction .l2 unit key line) s = .next u ∧ u.ctxs = s.ctxs ∧ u.l2.lookup (l2Key unit key line) = none)) ∧
  (∀ (s : State) (pkg line : Nat), ∃ u, exec (.hostSnoop pkg line) s = .next u ∧ u.ctxs = s.ctxs ∧
    (isDram (line * 128) = false → ∀ e ∈ u.l2, ¬(e.1 % 2 ^ 49 = line ∧ e.1 / 2 ^ 49 / 2048 / 4 = pkg))) ∧
  (∀ (s : State) (ak : Nat),
    ((∀ m ∈ (s.arcade ak).inbox, heldMessage s m = true) → exec (.networkMessageDelivery ak) s = .next s) ∧
    (∀ m r, (s.arcade ak).inbox = m :: r → heldMessage s m = false →
      let t := s.updArcade ak (fun a => foldMessage { a with inbox := r } m)
      exec (.networkMessageDelivery ak) s = .next (applyEffect t ak m) ∧ (t.arcade ak).count = (s.arcade ak).count + 1 ∧
      (m.act = .none → applyEffect t ak m = t) ∧ (∀ e, m.act = .event e → applyEffect t ak m = { t with sched := .event e :: t.sched }))) ∧
  (∀ (s : State) (pkg tag a : Nat), a < 64 → ∃ u, exec (.discard pkg tag) s = .next u ∧ u.mem = s.mem ∧
    ∀ m ∈ (u.arcade (64 * pkg + a)).inbox, m.tag ≠ tag)

/-- Hunting rounds, probes, takes, their answers, tile moves, Barrow takes and returned continuations go as R236, R241 to R244 and R430
say (R225, R236, R241, R242, R243, R244, R246, R430). That a victim stall passes over a head it would decline, and answers DECLINE only when
no head may be given, is the model's choice (log entry 56), as is that a hunt displaced from its stall's four ends (log entry 56). -/
def Obligations.hunts_and_returned_continuations : Prop :=
  (∀ (s : State) (c : Nat), let k := ctxStall c
    (canHunt s c = false → exec (.huntRound c) s = .next s) ∧
    (canHunt s c = true → (s.stall k).halted = true → exec (.huntRound c) s = .next (s.cause (.huntRound c))) ∧
    (canHunt s c = true → (s.stall k).halted = false → c ∉ hunters s k →
      (∀ h, (s.ctx c).hunt = some h → h.asked = false ∧ h.got = none ∧ h.kept = none ∧ h.donated = none) →
      exec (.huntRound c) s = .next ((setHunt s c none).causeOnce (.huntRound c))) ∧
    (∀ w, canHunt s c = true → (s.stall k).halted = false → c ∈ hunters s k →
      (∀ h, (s.ctx c).hunt = some h → h.asked = false ∧ h.got = none ∧ h.kept = none ∧ h.donated = none) →
      w ∈ (s.stall k).wake → w.ready = true → w.rcbp = (s.ctx c).rcbp.toNat →
      exec (.huntRound c) s = .next (s.next (.resumeEvicted c))) ∧
    (∀ r, canHunt s c = true → (s.stall k).halted = false → s.regionOf c = some r → c ∈ hunters s k →
      (∀ w ∈ (s.stall k).wake, w.ready = true → w.rcbp ≠ (s.ctx c).rcbp.toNat) →
      (∀ h, (s.ctx c).hunt = some h → h.asked = false ∧ h.got = none ∧ h.kept = none ∧ h.donated = none) →
      let x := (s.stall k).lfsr
      let x' := BitVec.ofNat 16 (x.toNat / 2 + (if (x.getLsbD 0 ^^ x.getLsbD 2 ^^ x.getLsbD 3 ^^ x.getLsbD 5) then 2 ^ 15 else 0))
      let new : Hunt := ⟨r.rcb, 0, 0, x'.toNat % 8, [], false, none, none, false, 0, none⟩
      let h := (((s.ctx c).hunt).filter (fun h => h.rcb == r.rcb)).getD new
      let s1 := setHunt (s.updStall k (fun v => { v with lfsr := x' })) c
        (some { h with victims := roundVictims c r x'.toNat h.latched h.round })
      ∃ t, exec (.huntRound c) s = .next t ∧ t = postMessage (setHunt s1 c (some { h with
          victims := roundVictims c r x'.toNat h.latched h.round, asked := true, quota := thiefQuota s1 c h.rcb }))
        (ctxArcade c) (stallArcade k) (some k) 0 k .take (.take k c))) ∧
  (∀ (s : State) (c : Nat) (h : Hunt), (s.ctx c).hunt = some h →
    ((s.ctx c).rcbp.toNat ≠ h.rcb ∨ c ∉ hunters s (ctxStall c) → probeNext s c = (setHunt s c none).causeOnce (.huntRound c)) ∧
    ((s.ctx c).rcbp.toNat = h.rcb → c ∈ hunters s (ctxStall c) →
      (h.victims = [] → probeNext s c =
        (setHunt s c (some { h with round := h.round + 1, empty := h.empty + 1, asked := false })).cause (.huntRound c)) ∧
      (∀ level k rest, h.victims = (level, k) :: rest → 1 < level → level < 5 → probeNext s c =
        postMessage (setHunt s c (some { h with asked := true, quota := thiefQuota s c h.rcb }))
          (ctxArcade c) (stallArcade k) (some k) 0 (ctxStall c) .take (.take k c)) ∧
      (∀ r t e rest, h.victims = (5, 0) :: rest → s.regionOf c = some r → takeOverflow s c r = some (t, e) →
        affinityAllows e.aff (joinArcade (ctxStall c) (entryHome t c e)) = true →
        e.nt = 0 → probeNext s c = (setHunt t c (some { h with
          asked := true, got := some (e, 5, joinScopeOf t c, entryHome t c e) })).cause (.stealReply c)) ∧
      (∀ u rest, h.victims = (6, u) :: rest → probeNext s c = (setHunt s c (some { h with asked := true })).cause (.barrowTake c)))) ∧
  (∀ (s : State) (k thief : Nat),
    ((s.ctx thief).hunt = none → exec (.take k thief) s = .next s) ∧
    (∀ h level u rest, (s.ctx thief).hunt = some h → h.asked = true → h.got = none → h.victims = (level, u) :: rest →
      (if level = 1 then ctxStall thief else u) ≠ k → exec (.take k thief) s = .next s) ∧
    (∀ h level u rest, (s.ctx thief).hunt = some h → h.asked = true → h.got = none → h.victims = (level, u) :: rest →
      (if level = 1 then ctxStall thief else u) = k →
      ((s.stall k).halted = false → (s.ctx thief).rcbp.toNat ≠ h.rcb ∨ thief ∉ hunters s (ctxStall thief) →
        exec (.take k thief) s = .next (answerTake s k thief .empty)) ∧
      ((s.stall k).halted = true → exec (.take k thief) s = .next (s.cause (.take k thief))) ∧
      ((s.stall k).halted = false → (s.ctx thief).rcbp.toNat = h.rcb → thief ∈ hunters s (ctxStall thief) →
      (∀ v e es, (examined s k thief level u).find? (mayTake s h thief) = some v → (s.ctx v).deque = e :: es →
        storeHeldBy (drain s v) v = none →
        let sc := joinStalls (ctxStall v) (ctxStall thief)
        let s0 := s.updCtx v (fun w => { w with deque := es })
        (∀ s1, (if e.spilled then .ok s0 else jincEntry (.take k thief) s0 v e) = (.ok s1 : Except Stop State) →
          let s2 := if level = 1 then s1 else s1.updStall k (fun w => { w with victim := (v % 64 + 1) % w.ctxn })
          exec (.take k thief) s = .next (dropVisits (answerTake (updHunt (releaseNow s2 v sc) thief
            (fun x => { x with got := some (e, level, sc, ctxArcade v) })) k thief .stealReply) (.event (.take k thief)))) ∧
        (∀ ak kind, jincEntry (.take k thief) s0 v e = .error (.visit ak kind) →
          exec (.take k thief) s = .next (sendVisit (.event (.take k thief)) s v ak kind))) ∧
      ((examined s k thief level u).find? (mayTake s h thief) = none →
        let some' := (examined s k thief level u).any (fun v => (s.ctx v).rcbp.toNat == h.rcb && !(s.ctx v).deque.isEmpty)
        exec (.take k thief) s = .next (answerTake s k thief (if some' then .decline else .empty)))))) ∧
  (∀ (s : State) (c : Nat),
    ((s.ctx c).hunt = none → exec (.stealReply c) s = .next s ∧ exec (.tileMoveComplete c) s = .next s ∧
      exec (.thiefReoffer c) s = .next s ∧ exec (.barrowTake c) s = .next s) ∧
    (∀ h e level sc src, (s.ctx c).hunt = some h → h.got = some (e, level, sc, src) → stillHunting s c h = true →
      (h.asked = true → h.moving = false → e.nt = 0 ∨ src = ctxArcade c →
        exec (.stealReply c) s = .next (resumeTask (setHunt (acquireCaches s c sc) c none) c e.frame (some e.nt))) ∧
      (∀ t, h.asked = true → h.moving = false → e.nt ≠ 0 → src ≠ ctxArcade c → allocTiles (acquireCaches s c sc) c e = some t →
        exec (.stealReply c) s = .next (startMove (updHunt t c (fun x => { x with moving := true })) c src e)) ∧
      (h.moving = true → carterFrozen s (ctxArcade c) = true → exec (.tileMoveComplete c) s = .next (s.cause (.tileMoveComplete c))) ∧
      (h.moving = true → carterFrozen s (ctxArcade c) = false → stillHunting (finishMove s c src e) c h = true →
        exec (.tileMoveComplete c) s = .next (resumeTask (setHunt (finishMove s c src e) c none) c e.frame (some e.nt)))) ∧
    (∀ h, (s.ctx c).hunt = some h → h.asked = true → h.moving = false → h.got = none → stillHunting s c h = true →
      exec (.stealReply c) s = .next (probeNext (setHunt s c (some { h with victims := h.victims.drop 1, asked := false })) c)) ∧
    (∀ h e t, (s.ctx c).hunt = some h → h.kept = some e →
      (giveBack s c h e = (t, false) → exec (.thiefReoffer c) s = .next t) ∧
      (giveBack s c h e = (t, true) → stillHunting t c h = false → exec (.thiefReoffer c) s = .next (setHunt t c none)) ∧
      (giveBack s c h e = (t, true) → stillHunting t c h = true →
        exec (.thiefReoffer c) s = .next (probeNext (setHunt t c (some { h with kept := none })) c))) ∧
    (∀ h rest r, (s.ctx c).hunt = some h → h.donated = none → h.asked = true → h.victims = (6, 0) :: rest → s.regionOf c = some r →
      stillHunting s c h = true →
      let y := r.barrow.toNat % 2 ^ 13
      let on (t : State) : State := probeNext (setHunt t c (some { h with victims := rest, asked := false })) c
      ((s.pkg y).brwen = false ∨ (s.pkg y).brwhead = (s.pkg y).brwtail → exec (.barrowTake c) s = .next (on s)) ∧
      (∀ s1 q, (s.pkg y).brwen = true → (s.pkg y).brwhead ≠ (s.pkg y).brwtail → barrowEntry s y = (s1, q) →
        (∀ s2 f, allocFrame (translateFor c) s1 c false false (ctxPkg c) r (ctxArcade c) q.bytes.length = .ok (some (s2, f)) →
          exec (.barrowTake c) s = .next ((setHunt (s2.updPkg y (fun k => { k with brwhead := k.brwhead + 1 })) c
            (some { h with donated := some (q, f) })).cause (.barrowTake c))) ∧
        (allocFrame (translateFor c) s1 c false false (ctxPkg c) r (ctxArcade c) q.bytes.length = .ok none →
          exec (.barrowTake c) s = .next (on s1)))) ∧
    (∀ h q f r, (s.ctx c).hunt = some h → h.donated = some (q, f) → s.region (ctxPkg c) h.rcb = some r →
      (∀ t, stillHunting s c h = true → startDonated s c r q f = .ok t → exec (.barrowTake c) s = .next t) ∧
      (∀ t, stillHunting s c h = false → queueDonated s c h r q f = .ok t → exec (.barrowTake c) s = .next t))) ∧
  (∀ (s : State) (ak : Nat),
    ((s.arcade ak).returns = [] → exec (.counterReoffer ak) s = .next s) ∧
    (∀ e rcb rest, (s.arcade ak).returns = (e, rcb) :: rest →
      let s1 := s.updArcade ak (fun a => { a with returns := rest })
      (s.region (ak / 64) rcb = none → exec (.counterReoffer ak) s = .next s1) ∧
      (s.region (ak / 64) rcb ≠ none →
        (∀ t, returnEntry s1 (ak / 64) rcb e = some t → exec (.counterReoffer ak) s = .next t) ∧
        (returnEntry s1 (ak / 64) rcb e = none → exec (.counterReoffer ak) s = .next (s.cause (.counterReoffer ak)))))) ∧
  (∀ (s : State) (c : Nat),
    (∀ f, (s.ctx c).holding = some f → exec (.resumeContinuation c) s =
      .next (resumeTask (acquireCaches (s.updCtx c (fun w => { w with holding := none })) c (joinScopeOf s c)) c f none)) ∧
    ((s.ctx c).holding = none → (∀ a b, (s.ctx c).wait ≠ .pair a b) → exec (.resumeContinuation c) s = .next s) ∧
    (∀ va pc, (s.ctx c).holding = none → (s.ctx c).wait = .pair va pc →
      ((s.ctx c).dying ≠ none ∨ freePairOf (s.stall (ctxStall c)) = none → exec (.resumeContinuation c) s = .next s) ∧
      (∀ t, (s.ctx c).dying = none → freePairOf (s.stall (ctxStall c)) ≠ none → restorePair s c va pc = .ok t →
        exec (.resumeContinuation c) s = .next (wake (t.updCtx c (fun w => { w with pc := BitVec.ofNat 57 pc })) c)))) ∧
  (∀ (s : State) (v : Nat) (t : State) (e : Entry) (w : Event) (pa : Nat), e.spilled = false → ownCounterOf s v e.frame = .ok (t, pa) →
    jincEntry w s v e = (eventOp w t v pa .jinc).map (·.1))

/-- TASK_DEATH, pre-emption requests, their deadline, eviction and the resumption of evicted tasks go as R366 to R379 say (R366,
R368, R369, R372, R374, R375, R378, R391, R441). That a second request is kept behind the pending ones is the model's choice (log entry
71), as is that a task in a wait other than a blocking instruction's is saved whole (log entry 73). -/
def Obligations.deaths_and_preemption : Prop :=
  (∀ (s : State) (c : Nat),
    ((s.ctx c).dying = none → exec (.taskDeath c) s = .next s) ∧
    (∀ d, (s.ctx c).dying = some d → let t := takeDown s c
      (t.ctx c).storeQ = [] ∧ (t.ctx c).wait = .none ∧ t.mem = s.mem ∧
        (t.ctx c).dying.map (fun x => (x.stores, x.tbm, x.stage)) =
          some ((waitingStores s (ctxPkg c) (s.ctx c).ttag.toNat ++ (s.ctx c).storeQ).take 32, (s.ctx c).tbm, 1)) ∧
    (∀ d, (s.ctx c).dying = some d → d.stage < 2 →
      let t := if d.stage = 0 then takeDown s c else s
      let w := purgeTask t c
      (banksBusy t (ctxStall c) (heldBanks t c) = true →
        exec (.taskDeath c) s = .next (((unitEvents (ctxStall c)).foldl State.causeOnce t).causeOnce (.taskDeath c))) ∧
      (∀ d', banksBusy t (ctxStall c) (heldBanks t c) = false → (w.ctx c).dying = some d' →
        let gone (u : State) : State := goIdle (taskOver (reportLosses (u.updCtx c (fun v => { v with dying := none })) c) c) c
        let f := if (w.ctx c).frec.getLsbD 0 then fileRecord w c d' else w
        let g := if (f.ctx c).root then rootOver f c true else f
        let fdom := ((g.regionOf c).map (·.fdom)).getD false
        (d'.quiet = true → exec (.taskDeath c) s = .next (gone w)) ∧
        (d'.quiet = false → d'.atTend = true → exec (.taskDeath c) s = .next (gone f)) ∧
        (d'.quiet = false → d'.atTend = false →
          (fdom = true → exec (.taskDeath c) s = .next (gone (purgeRegion g (ctxPkg c) (g.ctx c).rcbp.toNat))) ∧
          (fdom = false → (g.ctx c).root = true → exec (.taskDeath c) s = .next (gone g)) ∧
          (fdom = false → (g.ctx c).root = false →
            exec (.taskDeath c) s = .next (closeDeath (updDeath g c (fun x => { x with stage := 2 })) c))))) ∧
    (∀ d, (s.ctx c).dying = some d → 2 ≤ d.stage → d.quiet = true →
      exec (.taskDeath c) s = .next (buried (dropVisits s (.event (.taskDeath c))) c)) ∧
    (∀ d, (s.ctx c).dying = some d → d.stage = 3 → d.quiet = false → let v := s.ctx c
      (∀ e t, parentAtTail v = some e → casualtyAtTail s c = .ok t → exec (.taskDeath c) s = .next (dropVisits
        (resumeTask ((endDeath t c).updCtx c (fun w => { w with deque := w.deque.dropLast })) c e.frame (some e.nt))
        (.event (.taskDeath c)))) ∧
      (∀ pa, parentAtTail v = none → remoteCounter v.parjc = some pa → let t := releaseNow s c .sy
        (((drain s c).ctx c).owesHost = true → exec (.taskDeath c) s = .next
          (dropVisits ((askHost (drain s c) c).causeOnce (.taskDeath c)) (.event (.taskDeath c)))) ∧
        (((drain s c).ctx c).owesHost = false → (t.ctx c).posted ≠ 0 → exec (.taskDeath c) s = .next (dropVisits (t.causeOnce (.taskDeath c)) (.event (.taskDeath c)))) ∧
        (((drain s c).ctx c).owesHost = false → (t.ctx c).posted = 0 →
          exec (.taskDeath c) s = .next (dropVisits (buried (sendCounterOp t c pa true) c) (.event (.taskDeath c))))) ∧
      (∀ s1 pa s2, parentAtTail v = none → remoteCounter v.parjc = none →
        locateCounter (translateFor c) s true false v.parjc.toNat = .ok (s1, pa) →
        atCounter (.event (.taskDeath c)) (releaseNow s1 c (counterScope c pa)) c pa = .ok s2 →
        (counterHeld s2 pa .jdead = true → exec (.taskDeath c) s =
          .next ((s.causeOnce (.counterReoffer (counterArcade pa))).causeOnce (.taskDeath c))) ∧
        (∀ s3 r, counterHeld s2 pa .jdead = false → counterOp s2 pa .jdead = (s3, r) →
          exec (.taskDeath c) s = .next (dropVisits (match r with
            | .resume => takeResume (endDeath s3 c) c pa v.pframe.toNat
            | .release => buried (releaseByCounter s3 pa) c
            | .under => buried (purgeRegion s3 (ctxPkg c) v.rcbp.toNat) c
            | _ => buried s3 c) (.event (.taskDeath c))))))) ∧
  (∀ (s : State) (c source : Nat) (deadline : Bool), let v := s.ctx c
    (v.st = .idle → v.rcbp = 0 → exec (.preemptionRequest c source deadline) s = .next s) ∧
    (v.st = .idle → v.rcbp ≠ 0 → isHalted s c = false → exec (.preemptionRequest c source deadline) s = .next (freeContext s c)) ∧
    (v.st ≠ .idle ∨ (v.rcbp ≠ 0 ∧ isHalted s c = true) →
      let q := v.request.toList ++ v.also ++ [⟨source, deadline, false, false, 0⟩]
      let s1 := s.updCtx c (fun w => { w with request := q.head?, also := q.drop 1 })
      let s2 := if deadline ∧ .preemptDeadline c ∉ s.due then { s1 with due := s.due ++ [.preemptDeadline c] } else s1
      exec (.preemptionRequest c source deadline) s = .next (if v.st = .wmem ∨ v.st = .wmsg then s2.causeOnce (.evict c) else s2))) ∧
  (∀ (s : State) (c : Nat), let v := s.ctx c
    let rs := v.request.toList ++ v.also
    ((∀ r ∈ rs, r.deadline = true → r.passed = true) → exec (.preemptDeadline c) s = .next s) ∧
    (∀ r ∈ rs, r.deadline = true → r.passed = false →
      (isHalted s c = true → exec (.preemptDeadline c) s = .next (s.causeOnce (.preemptDeadline c))) ∧
      (isHalted s c = false →
        let q := rs.map (fun r => { r with passed := r.passed || (r.deadline && deadlineReached s c r) })
        let t := s.updCtx c (fun w => { w with request := q.head?, also := q.drop 1 })
        exec (.preemptDeadline c) s =
          .next (if q.all (fun r => !r.deadline || r.passed) then t else t.causeOnce (.preemptDeadline c))))) ∧
  (∀ (s : State) (c : Nat), let v := s.ctx c
    (v.dying ≠ none → exec (.evict c) s = .next s) ∧
    (v.dying = none → v.request = none → v.wait = .yield → exec (.evict c) s = .next (wake (s.updCtx c Ctx.advance) c)) ∧
    (v.dying = none → v.request = none → v.wait ≠ .yield → exec (.evict c) s = .next s) ∧
    (v.dying = none → v.request ≠ none → wakeKind v.wait = none →
      exec (.evict c) s = .next (if v.st = .idle ∧ v.rcbp ≠ 0 ∧ isHalted s c = false then freeContext s c else s)) ∧
    (∀ k, v.dying = none → v.request ≠ none → wakeKind v.wait = some k →
      (isHalted s c = true ∨ (v.st ≠ .wmem ∧ v.st ≠ .wmsg) → exec (.evict c) s = .next s) ∧
      (∀ s1 e, isHalted s c = false → v.st = .wmem ∨ v.st = .wmsg →
        (if v.liveb = 0 ∨ (againAt v).isSome = true then (s, none)
          else ((findLive (translateFor c) s c v.pc.toNat).toOption).getD (s, none)) = (s1, e) →
        let frame := v.framep.toNat
        let need := evictNeed (e.getD (LiveSet.whole v)) (savesPair s1 c)
        let room := frameSize s1 c frame - 0x80
        let d := drain s1 c
        let u := releaseNow s1 c .sy
        (room < need → exec (.evict c) s = .next
          (if v.wait = .yield then (wake s1 c).trap c ⟨.quota, need % 2 ^ 32 + room * 2 ^ 32, frame⟩ else s1)) ∧
        (need ≤ room → 256 ≤ (s1.stall (ctxStall c)).wake.length → exec (.evict c) s = .next s1) ∧
        (need ≤ room → (s1.stall (ctxStall c)).wake.length < 256 →
          (banksBusy s1 (ctxStall c) (heldBanks s1 c) = true → exec (.evict c) s = .next (evictAgain s1 c (unitEvents (ctxStall c)))) ∧
          (∀ ak, banksBusy s1 (ctxStall c) (heldBanks s1 c) = false → storeHeldBy d c = some ak →
            exec (.evict c) s = .next (evictAgain s1 c [.carterBeat ak])) ∧
          (banksBusy s1 (ctxStall c) (heldBanks s1 c) = false → storeHeldBy d c = none →
            ((d.ctx c).owesHost = true → exec (.evict c) s = .next (evictAgain (askHost d c) c [])) ∧
            ((d.ctx c).owesHost = false →
              ((u.ctx c).posted ≠ 0 → exec (.evict c) s = .next (evictAgain u c [])) ∧
              (∀ t, (u.ctx c).posted = 0 → saveAndFree u c k e = .ok t → exec (.evict c) s = .next t))))))) ∧
  (∀ (s : State) (c : Nat), let v := s.ctx c
    let k := ctxStall c
    (v.st ≠ .idle ∨ v.rcbp = 0 → exec (.resumeEvicted c) s = .next s) ∧
    (v.st = .idle → v.rcbp ≠ 0 → ((s.stall k).wake.find? (fun w => w.ready && w.rcbp == v.rcbp.toNat)) = none →
      exec (.resumeEvicted c) s = .next s) ∧
    (∀ w, v.st = .idle → v.rcbp ≠ 0 → (s.stall k).wake.find? (fun w => w.ready && w.rcbp == v.rcbp.toNat) = some w →
      let t := resumeEntry (s.updStall k (fun x => { x with wake := x.wake.erase w })) c w
      exec (.resumeEvicted c) s =
        .next ((stallContexts t k).foldl (fun u b => if (u.ctx b).request.isSome then u.causeOnce (.evict b) else u) t))) ∧
  (∀ (s : State) (c : Nat) (w : WakeEntry) (s1 s3 s4 s5 : State) (h : FrameHeader) (off : Nat),
    let pc := bitsOf h.rpc 56 1 * 2 + w.len
    let f := FrameFlags.of h.fflags
    readHeader (translateFor c) c false s w.frame = .ok (s1, h) →
    trailerAt (s1.updCtx c (fun v => v.bear h.rpc h.tag h.ptag w.frame h.pframe h.ownjc h.parjc h.fmtw h.sclp f.cflags f.nt f.root)) c
      h.rpc f = .ok (s3, off) →
    restoreTrailer s3 c (w.frame + off) = .ok s4 → restoreArea s4 c w.frame h.rpc f pc false = .ok s5 → w.loss = none →
    let t := (acquireWait (completeWait s5 c w) c w.acq).updCtx c (fun v => { v with pc := BitVec.ofNat 57 pc, lat := 0 })
    resumeEntry s c w = (if (t.ctx c).wait = .none then enter t c .run else t) ∧
      ((resumeEntry s c w).ctx c).pc = BitVec.ofNat 57 pc ∧ ((resumeEntry s c w).ctx c).lat = 0)

/-- The wait list, binding, loading, release and the end of a region go as R253 to R258 and R269 say (R253, R255, R256, R257, R258,
R262, R269, R443). Draining and releasing the contexts that left a region before its end, the scope of that release and its wait, and that
nothing is bound before boot are the model's choices (log entries 62, 97 and 95). -/
def Obligations.regions_begin_and_end : Prop :=
  (∀ (s : State) (pkg : Nat),
    ((s.pkg pkg).booted = false ∨ (s.pkg pkg).waitlist = [] → exec (.waitlistExamine pkg) s = .next s) ∧
    ((s.pkg pkg).booted = true → exec (.waitlistExamine pkg) s = .next ((waitingOrder s pkg).foldl (examineOne pkg) (s, [])).1) ∧
    (∀ rcb r, (s.pkg pkg).booted = true → (s.pkg pkg).waitlist = [rcb] → s.region pkg rcb = some r → r.held = false →
      let free := (s.pkg pkg).regions.countP (fun q => q.st == 2 || q.st == 3) < 256 ∧ canBind s pkg r = true
      (free → exec (.waitlistExamine pkg) s = .next (bindRegion s pkg r)) ∧
      (¬free → exec (.waitlistExamine pkg) s = .next (askContexts s pkg r))) ∧
    (∀ r blocked, (r.held = true → examineOne pkg (s, blocked) r = (s, blocked)) ∧
      (r.held = false → (∃ a ∈ r.rect, a ∈ blocked) → examineOne pkg (s, blocked) r = (s, blocked ++ r.rect)))) ∧
  (∀ (s : State) (c : Nat) (r : Region), let v := (bindContext s c r).ctx c
    let n := (s.stall (ctxStall c)).ctxn
    v.rcbp = w64 r.rcb ∧ v.ptbr = r.ptbr ∧ v.liveb = r.liveb ∧ v.keyt = r.keyt ∧ v.gsize = r.gwinb ∧ v.gbase = c % 64 * (2048 / n) ∧
      v.vsize = r.vwinb ∧ v.vbase = c % 64 * (1024 / n) ∧ v.fmtw = r.fmtw ∧ v.sclp = 0 ∧ v.pl = true ∧ v.ppl = false ∧ v.intrap = false ∧
      v.ttag = 0 ∧ v.rank = w64 (r.rankOf (ctxStall c)) ∧ v.gsz = w64 r.gsz) ∧
  (∀ (s : State) (pkg rcb : Nat), s.region pkg rcb = none → ∀ i ∈ [Instr.imageLoaded pkg rcb, .rootRelease pkg rcb, .regionEnd pkg rcb],
    exec i s = .next s) ∧
  (∀ (s : State) (pkg rcb : Nat) (r : Region), s.region pkg rcb = some r →
    (r.st ≠ 2 → r.st ≠ 3 → exec (.imageLoaded pkg rcb) s = .next s) ∧
    (∀ s1 x, r.st = 2 ∨ r.st = 3 → readNdo (regionTranslator r pkg) (pkgCtx pkg) s r.image = .ok (s1, x) →
      (nextLoad r x = none → exec (.imageLoaded pkg rcb) s = .next s) ∧
      (∀ q, nextLoad r x = some q →
        let r' : Region := { r with loaded := r.loaded ++ [q] }
        let t := (loadText s1 pkg r x q).updRegion pkg rcb (fun v => { v with loaded := r.loaded ++ [q] })
        let u := if r'.loadedEnough = true ∧ r.loadedEnough = false then t.cause (.rootRelease pkg rcb) else t
        exec (.imageLoaded pkg rcb) s =
          .next (if r.loaded.length + 1 < r.rect.length then u.cause (.imageLoaded pkg rcb) else u))) ∧
    (r.st ≠ 2 ∨ r.loadedEnough = false → exec (.rootRelease pkg rcb) s = .next s) ∧
    (r.st = 2 → r.loadedEnough = true → ∀ s1 x, readNdo (regionTranslator r pkg) (pkgCtx pkg) s r.image = .ok (s1, x) →
      (rootFrames s1 pkg r (List.range r.roots) = none → exec (.rootRelease pkg rcb) s = .next (s.cause (.rootRelease pkg rcb))) ∧
      (∀ s2 fs, rootFrames s1 pkg r (List.range r.roots) = some (s2, fs) →
        let s3 := ((List.range r.roots).zip fs).foldl (fun t e =>
          match firstBound r pkg e.1 with | some c => startRoot t pkg r x e.1 c e.2 | none => t) s2
        let s4 := updRegionState s3 pkg rcb (fun q => { q with st := 3, left := r.roots, live := q.live + r.roots })
        exec (.rootRelease pkg rcb) s =
          .next ((r.bound.map (·.1)).foldl (fun t c => if (t.ctx c).st = .idle then t.cause (.huntRound c) else t) s4))) ∧
    (let close (u : State) (q : Region) (code : Nat) : State :=
        let t1 := if q.donejc = 0 then u else bankOp u q.donejc (if code ≠ 0 then .jdead else .jadd (-1))
        let t2 := wakeWaiters (signalRegion t1 pkg q) pkg q.place.pa (({ q with st := if code = 0 then 4 else 5 } : Region).stateWord code)
          (endScope u pkg q)
        ((forgetRegion t2 pkg rcb).cause (.waitlistExamine pkg)).cause (.distributorSelect pkg)
      let ended (u : State) (q : Region) (code : Nat) : State :=
        if q.donejc ≠ 0 ∧ counterHeld u q.donejc (if code ≠ 0 then .jdead else .jadd (-1)) = true
        then (u.causeOnce (.counterReoffer (counterArcade q.donejc))).cause (.regionEnd pkg rcb) else close u q code
      let finished := r.live = 0 ∧ (r.abort = true ∨ (r.st = 3 ∧ r.left = 0))
      (∀ code, r.ending = some code → exec (.regionEnd pkg rcb) s = .next (ended s r code)) ∧
      (r.ending = none → ¬finished → exec (.regionEnd pkg rcb) s = .next s) ∧
      (r.ending = none → finished →
        let cs := r.bound.map (·.1) ++ r.former
        let u := cs.foldl drain s
        (releasable u pkg r = false → exec (.regionEnd pkg rcb) s = .next
          (((cs.filter (fun c => endScope u pkg r == .sy && (u.ctx c).hostAddr.isSome)).foldl askHost u).cause (.regionEnd pkg rcb))) ∧
        (releasable u pkg r = true →
          let code := if r.abort then 4 else if r.casr ≠ 0 then 5 else 0
          let t1 := (r.bound.map (·.1)).foldl (fun t c => dismissContext t rcb c) u
          let t2 := putRegionState t1 pkg { r with st := if code = 0 then 4 else 5 } code
          let t3 := cs.eraseDups.foldl (fun t c => endRelease t c (endScope u pkg r)) t2
          let t4 := t3.updRegion pkg rcb (fun q => { q with ending := some code, bound := [], former := [] })
          ∀ q, t4.region pkg rcb = some q → exec (.regionEnd pkg rcb) s = .next (ended t4 q code))) ∧
      (∀ u q code, (close u q code).region pkg rcb = none ∧ rcb ∉ ((close u q code).pkg pkg).waitlist))) ∧
  (∀ (s : State) (pkg : Nat) (r : Region), releasable s pkg r = true ↔
    ∀ c ∈ r.bound.map (·.1) ++ r.former, (s.ctx c).storeQ = [] ∧
      (endScope s pkg r = .sy → (s.ctx c).posted = 0 ∧ (s.ctx c).hostAddr = none)) ∧
  (∀ (s : State) (pkg rank c : Nat) (r : Region) (x : Ndo) (f : Frame),
    let v := (startRoot s pkg r x rank c f).ctx c
    v.framep = w64 f.addr ∧ v.pframe = 0 ∧ v.parjc = 0 ∧ v.root = true ∧ v.lat = 0 ∧ v.tbm = 0 ∧
      v.pc = BitVec.ofNat 57 (bitsOf (x.entryPc (x.roleOf rank)) 56 1 * 2))

/-- Doorbells, restarts, the distributor and the eight packet events of a Crier queue do what R264 to R268 say (R264, R265,
R266, R267, R268, R439). ERR 1 for an INDIRECT count or a LINK segment length out of range is the model's choice (log entry 72), as is
that a signal to a device's range is made and delivered there (log entry 9). -/
def Obligations.crier_queues : Prop :=
  (∀ (tr : Translator) (c : Nat) (s s1 : State) (adr val op : Nat) (l : Located),
    (adr % 8 ≠ 0 → makeSignal tr c s adr val op = none) ∧
    (∀ e, adr % 8 = 0 → tr s adr (devAcc true false) = .error e → makeSignal tr c s adr val op = none) ∧
    (∀ a b o, adr % 8 = 0 → tr s adr (devAcc true false) = .ok (s1, l) → storageOf l.place.pa = .aperture a b o →
      makeSignal tr c s adr val op = some s1) ∧
    (∀ o, adr % 8 = 0 → tr s adr (devAcc true false) = .ok (s1, l) → storageOf l.place.pa = .crier o →
      makeSignal tr c s adr val op = some s1)) ∧
  (∀ (s : State) (p q : Nat), turned s p q = .idle → ∀ i ∈ [Instr.nopPacket p q, .launch p q, .signal p q, .wait p q, .indirect p q,
    .link p q, .barrier p q, .badpkt p q], exec i s = .next s) ∧
  (∀ (s : State) (p q e : Nat), turned s p q = .halt e → ∀ i ∈ [Instr.nopPacket p q, .launch p q, .signal p q, .wait p q,
    .indirect p q, .link p q, .barrier p q, .badpkt p q], exec i s = .next (haltQueue s p q e)) ∧
  (∀ (s : State) (p q e : Nat), let ctl := queueWord s p q 5
    let t := setQueueWord s p q 5 (bitsOf ctl 2 0 + 2 * 2 ^ 8 + e * 2 ^ 16)
    haltQueue s p q e = (t.updQueue p q (fun v => { v with nest := [] })).updPkg p (fun k => { k with interrupts := k.interrupts ++ [q] })) ∧
  (∀ (s : State) (p q kind : Nat) (after : Bool) (w : List Nat), turned s p q = .packet kind after w →
    let v := queueView s p q
    let word (i : Nat) : Nat := w.getD i 0
    let depth := (s.queue p q).nest.length
    let done := finishPacket s p q
    ((s.queue p q).launches ≠ [] → after = true ∨ kind = 6 →
      (∀ e ∈ [(0, Instr.nopPacket p q), (2, .signal p q), (3, .wait p q), (4, .indirect p q), (5, .link p q), (6, .barrier p q)],
        kind = e.1 → exec e.2 s = .next (s.causeOnce (packetEvent p q kind))) ∧
      (kind = 1 → exec (.launch p q) s = .next (s.causeOnce (.distributorSelect p))) ∧
      (7 ≤ kind → exec (.badpkt p q) s = .next (s.causeOnce (.badpkt p q)))) ∧
    ((s.queue p q).launches = [] ∨ (after = false ∧ kind ≠ 6) →
    (kind = 0 → exec (.nopPacket p q) s = .next done) ∧
    (kind = 1 → exec (.launch p q) s =
      .next (if 64 ≤ (s.pkg p).waitlist.length then s.causeOnce (.distributorSelect p) else offerLaunch s p q v w)) ∧
    (kind = 2 → exec (.signal p q) s =
      .next (match makeSignal (queueTranslator v p) (pkgCtx p) s (word 1) (word 2) (word 3 % 2) with
        | some t => finishPacket t p q
        | none => haltQueue s p q 3)) ∧
    (kind = 3 → word 3 % 4 = 3 → exec (.wait p q) s = .next (haltQueue s p q 1)) ∧
    (kind = 3 → word 3 % 4 ≠ 3 →
      (word 1 % 8 ≠ 0 → exec (.wait p q) s = .next (haltQueue s p q 3)) ∧
      (∀ e, word 1 % 8 = 0 → readObject (queueTranslator v p) (pkgCtx p) s (word 1) 8 = .error e →
        exec (.wait p q) s = .next (haltQueue s p q 3)) ∧
      (∀ t x, word 1 % 8 = 0 → readObject (queueTranslator v p) (pkgCtx p) s (word 1) 8 = .ok (t, x) →
        let holds := if word 3 % 4 = 0 then word 2 ≤ x else if word 3 % 4 = 1 then x = word 2 else x ≠ word 2
        (holds → exec (.wait p q) s = .next (finishPacket t p q)) ∧ (¬holds → exec (.wait p q) s = .next (s.causeOnce (.wait p q))))) ∧
    (kind = 4 → exec (.indirect p q) s = .next (
      if 4 ≤ depth then haltQueue s p q 2
      else if word 1 % 64 ≠ 0 then haltQueue s p q 3
      else if word 2 = 0 ∨ 2 ^ 16 < word 2 then haltQueue s p q 1
      else proceed (s.updQueue p q (fun k => { k with nest := (word 1, word 2) :: k.nest })) p q)) ∧
    (kind = 5 → depth ≠ 0 ∨ word 2 = 0 ∨ 2 ^ 20 < word 2 → exec (.link p q) s = .next (haltQueue s p q 1)) ∧
    (kind = 5 → depth = 0 → word 2 ≠ 0 → word 2 ≤ 2 ^ 20 →
      (word 1 % 64 ≠ 0 → exec (.link p q) s = .next (haltQueue s p q 3)) ∧
      (word 1 % 64 = 0 → (v.ftail + 2 ^ 64 - v.fhead) % 2 ^ 64 = v.fcap → exec (.link p q) s = .next (s.causeOnce (.link p q))) ∧
      (word 1 % 64 = 0 → (v.ftail + 2 ^ 64 - v.fhead) % 2 ^ 64 ≠ v.fcap → exec (.link p q) s = .next (
        match makeSignal (queueTranslator v p) (pkgCtx p) s (v.free + 8 * (v.ftail % v.fcap)) v.seg 0 with
        | some t => finishPacket (setQueueWord (setQueueWord (setQueueWord (setQueueWord t p q 0 (word 1)) p q 1 (word 2))
            p q 2 (v.rpos + 1)) p q 8 (v.ftail + 1)) p q
        | none => haltQueue s p q 3))) ∧
    (kind = 6 → exec (.barrier p q) s = .next done) ∧
    (7 ≤ kind → exec (.badpkt p q) s = .next (haltQueue s p q 1)))) ∧
  (∀ (s : State) (p q : Nat), let rest := popNest (s.queue p q).nest
    let t := s.updQueue p q (fun v => { v with nest := rest })
    finishPacket s p q = proceed (if rest = [] then setQueueWord t p q 3 (queueWord t p q 3 + 1) else t) p q) ∧
  (∀ (s : State) (p q w : Nat),
    (256 ≤ q → exec (.doorbell p q w) s = .next s ∧ exec (.queueRestart p q) s = .next s) ∧
    (q < 256 →
      let t := (setQueueWord s p q 4 w).updQueue p q id
      let ctl := queueWord s p q 5
      let r := (setQueueWord s p q 5 (bitsOf ctl 2 0 + 2 ^ 8 + bitsOf ctl 23 16 * 2 ^ 16)).updQueue p q (fun v => { v with nest := [] })
      exec (.doorbell p q w) s = .next (proceed t p q) ∧ exec (.queueRestart p q) s = .next (proceed r p q) ∧
      (turned t p q = .idle → exec (.doorbell p q w) s = .next t))) ∧
  (∀ (s : State) (p q : Nat),
    (turned s p q = .idle → proceed s p q = s) ∧ (∀ e, turned s p q = .halt e → proceed s p q = haltQueue s p q e) ∧
    (∀ k a w, turned s p q = .packet k a w → proceed s p q = s.causeOnce (packetEvent p q k))) ∧
  (∀ (s : State) (p : Nat),
    (s.pkg p).queues = [] → exec (.distributorSelect p) s = .next s) ∧
  (∀ (s : State) (p q : Nat), (s.pkg p).waitlist.length < 64 → q ∈ (s.pkg p).queues.map (·.1) → launchTurn s p q = some true →
    (∀ q' ∈ (s.pkg p).queues.map (·.1), q' ≠ q → launchTurn s p q' = some true →
      (queueView s p q').prio < (queueView s p q).prio ∨ ((queueView s p q').prio = (queueView s p q).prio ∧
        ((s.pkg p).lastQueue < q ∧ (q < q' ∨ q' ≤ (s.pkg p).lastQueue) ∨ (q < q' ∧ q' ≤ (s.pkg p).lastQueue)))) →
    ((s.pkg p).queues.map (·.1)).Pairwise (· < ·) →
    exec (.distributorSelect p) s =
      .next (((s.updPkg p (fun k => { k with lastQueue := q })).causeOnce (.distributorSelect p)).next (.launch p q)))

/-- Halt groups, the Inspector, device registers, reset, boot, Veram's commands and the host's accesses do what their rules say
(R33, R289, R389, R391, R394, R395, R396, R408, R436, R439, R443, R444, R446, Table 22-4). The model's choices: memory is kept at package
reset (log entry 25), an illegal PWRCAP limit and KEYLOAD id are ignored (28), the boot error and the order of the images (95), the key id
and the offsets of BAR2 (96), the layout of the mailbox (105), the byte order of a measurement (8). -/
def Obligations.platform_events : Prop :=
  (∀ (s : State) (k c : Nat),
    (∃ t, exec (.crossTrigger k true) s = .next t ∧ (t.stall k).halted = true ∧ t = { s with stalls := t.stalls, ctxs := t.ctxs } ∧
      (∀ j, j ≠ k → t.stall j = s.stall j) ∧ (ctxStall c ≠ k → t.ctx c = s.ctx c) ∧
      (ctxStall c = k → (s.ctx c).st = .run → (s.ctx c).wait ≠ .visit → (s.ctx c).saved = none →
        t.ctx c = { s.ctx c with halted := true, st := .halt, back := .run })) ∧
    (∃ t, exec (.crossTrigger k false) s = .next t ∧ (t.stall k).halted = false ∧ t.gfile = s.gfile ∧ Event.matrixStart k ∈ t.due ∧
      (ctxStall c = k → (s.ctx c).st = .halt → (s.ctx c).back = .run → (s.ctx c).wait = .none → t.ctx c = { s.ctx c with halted := false, st := .run }))) ∧
  (∀ (s : State) (ak i : Nat), i < 8 → haltEn (s.stall (arcadeStall ak i)) = false →
    exec (.inspectorHalt ak (2 ^ i)) s = .next { s with sched := .event (.crossTrigger (arcadeStall ak i) true) :: s.sched } ∧
    exec (.inspectorResume ak (2 ^ i)) s = .next { s.updArcade ak (fun a => { a with bvalid := false }) with
      sched := .event (.crossTrigger (arcadeStall ak i) false) :: s.sched }) ∧
  (∀ (s : State) (ak i : Nat), i < 8 → let k := arcadeStall ak i
    haltEn (s.stall k) = true → ∀ stop : Bool, exec (if stop then .inspectorHalt ak (2 ^ i) else .inspectorResume ak (2 ^ i)) s =
      .next { (if stop then s else s.updArcade ak (fun a => { a with bvalid := false })) with
        sched := (s.stalls.filter (fun e => stallPkg e.1 == stallPkg k && haltEn e.2 && haltGroup e.2 == haltGroup (s.stall k))).map
          (fun e => Turn.event (.crossTrigger e.1 stop)) ++ s.sched }) ∧
  (∀ (s : State) (ak : Nat) (x : Word),
    let sel := (s.arcade ak).isel
    let at_ (sel : BitVec 24) : Nat := 64 * arcadeStall ak (sel.toNat / 2 ^ 6 % 8) + sel.toNat % 2 ^ 6
    let c := at_ sel
    let b := (s.arcade ak).steps.headD c
    let i := sel.toNat / 2 ^ 12
    let s1 := s.updArcade ak (fun a => { a with steps := a.steps.drop 1 })
    (exec (.inspectorStep ak) s = .next (if (s.ctx b).st = .halt then { s1 with sched := .step b :: s.sched } else s1)) ∧
    exec (.idataRead ak) s = .next (s.updArcade ak (fun a => { a with idata := inspectRead s ak })) ∧
    ((s.ctx c).st ≠ .halt → inspectRead s ak = BitVec.allOnes 64) ∧
    ((s.ctx c).st = .halt → let v := s.ctx c
      let n := sel.toNat / 2 ^ 9 % 8
      (n = 0 → inspectRead s ak = if i < v.gsize then s.readG c (.g (Fin.ofNat 128 i)) else BitVec.allOnes 64) ∧
      (n = 1 → inspectRead s ak = if i < 8 then s.readG c (.o (Fin.ofNat 8 i)) else if i = 8 then v.lat else BitVec.allOnes 64) ∧
      (n = 2 → inspectRead s ak = match csrTable.find? (fun r => r.addr == i) with
        | some r => readCsr s c r
        | none => BitVec.allOnes 64) ∧
      (n = 3 → inspectRead s ak = if i / 16 < v.vsize then BitVec.truncate 64 (s.readV c (i / 16) >>> (64 * (i % 16)))
        else BitVec.allOnes 64) ∧
      (n = 4 → inspectRead s ak = if i / 2 < 8 then BitVec.truncate 64 (v.pred (i / 2) >>> (64 * (i % 2))) else BitVec.allOnes 64) ∧
      (n = 5 → inspectRead s ak = if i / 2 < 8 then BitVec.truncate 64 (v.tile (i / 2) >>> (64 * (i % 2))) else BitVec.allOnes 64) ∧
      (6 ≤ n → inspectRead s ak = BitVec.allOnes 64)) ∧
    (∃ t, exec (.idataWrite ak x) s = .next t ∧ (t.arcade ak).idata = x ∧
      ((s.ctx c).st ≠ .halt → t = s.updArcade ak (fun a => { a with idata := x })) ∧
      ((s.ctx c).st = .halt → sel.toNat / 2 ^ 9 % 8 = 0 → i < (s.ctx c).gsize → i < 128 →
        t = (s.putG c (.g (Fin.ofNat 128 i)) x).updArcade ak (fun a => { a with idata := x }) ∧
        (0 < i → t.readG c (.g (Fin.ofNat 128 i)) = x))) ∧
    exec (.idignReset ak) s = .next (s.updArcade ak (fun a => { a with dig := 0xCBF29CE484222325, count := 0 }))) ∧
  (∀ (s : State) (hk k : Nat) (x : Word), let v := (s.hall hk).carveOf k
    (8 ≤ k → exec (.hscarveWrite hk k x) s = .next s) ∧
    (k < 8 → x.getLsbD 0 = true →
      (mayCarve s hk k (x.toNat / 256) = false → exec (.hscarveWrite hk k x) s = .next (setCarve s hk k { v with err := true })) ∧
      (mayCarve s hk k (x.toNat / 256) = true → exec (.hscarveWrite hk k x) s =
        .next ((emptyWay (setCarve s hk k ⟨x.toNat / 256, false, false, true⟩) hk (8 + k)).cause (.hscarveDone hk k)))) ∧
    (k < 8 → x.getLsbD 0 = false → exec (.hscarveWrite hk k x) s =
      .next (clearWay (setCarve s hk k ⟨x.toNat / 256, false, false, false⟩) hk k)) ∧
    (v.pending = false → exec (.hscarveDone hk k) s = .next s) ∧
    (v.pending = true → ∃ t, exec (.hscarveDone hk k) s = .next t ∧ (t.hall hk).carveOf k = { v with en := true, pending := false } ∧
      t = { s with halls := t.halls, mem := t.mem, poison := t.poison } ∧
      ∀ a, Store.get blankByte t.mem a =
        if 2 ^ 43 * (hk / 4) + 2 ^ 40 + hk % 4 * 2 ^ 32 + k * 2 ^ 23 ≤ a ∧ a < 2 ^ 43 * (hk / 4) + 2 ^ 40 + hk % 4 * 2 ^ 32 + (k + 1) * 2 ^ 23
          then blankByte else Store.get blankByte s.mem a) ∧
    (4 ≤ k → exec (.crateWrite hk k x) s = .next s) ∧
    (k < 4 → let f (hi lo : Nat) : Nat := x.toNat / 2 ^ lo % 2 ^ (hi + 1 - lo)
      let w : Crate := ⟨f 63 48, f 47 44, f 43 32, f 31 28, f 27 25, f 24 23, f 15 12, f 11 9, f 8 7⟩
      exec (.crateWrite hk k x) s = .next (
        if f 63 48 = 0 ∨ f 47 44 = 0 ∨ 4 < f 27 25 ∨ f 24 23 = 3 ∨ 4 < f 11 9 ∨ f 8 7 = 3 ∨ f 22 16 ≠ 0 ∨ f 6 0 ≠ 0 then s
        else s.updHall hk (fun h => { h with crate := Store.put h.crate k w })))) ∧
  (∀ (s : State) (p q o : Nat) (x : Word),
    (8192 ≤ p → exec (.registerWrite p o x) s = .next s) ∧
    (p < 8192 →
      exec (.registerWrite p (2 ^ 43) x) s = .next (s.updPkg p (fun k => { k with crqt := x })) ∧
      (q < 256 → exec (.registerWrite p (2 ^ 43 + 0x100000 + 8 * q) x) s = .next (s.cause (.doorbell p q x.toNat))) ∧
      (∀ e, mailboxCommand (s.pkg p) p x.toNat = some e → exec (.registerWrite p (2 ^ 43 + 0x2000000) x) s = .next (s.cause e)) ∧
      (∀ h off, o < 2 ^ 43 → storageOf (p * 2 ^ 43 + o) = .hallRegs h off → exec (.registerWrite p o x) s =
        .next (if off % 8 = 0 then writeHallReg s h off x.toNat else s)))) ∧
  (∀ (s : State) (p c : Nat), ∃ t, exec (.packageReset p) s = .next t ∧ t.mem = s.mem ∧
    t.ctx c = (if c / 32768 = p then Ctx.reset (c % 64) else s.ctx c) ∧
    (∀ k, t.stall k = if k / 512 = p then Stall.reset (k % 512) else s.stall k) ∧ (∀ a, t.arcade a = if a / 64 = p then Arcade.reset else s.arcade a) ∧
    (∀ h, t.hall h = if h / 4 = p then Hall.reset else s.hall h) ∧ (∀ y, y ≠ p → t.pkg y = s.pkg y) ∧
    (t.pkg p).regions = [] ∧ (t.pkg p).waitlist = [] ∧ (t.pkg p).queues = [] ∧ (t.pkg p).frames = [] ∧ (t.pkg p).slices = []) ∧
  (∀ (s : State) (p : Nat), let k : Package := { s.pkg p with m0 := 0, m1 := 0, m2 := 0, m3 := 0, svns := [] }
    (∀ images, exec (.powerOnBoot p images) s = .next (s.updPkg p (fun v =>
      bootChain { v with m0 := 0, m1 := 0, m2 := 0, m3 := 0, svns := [] } 0 images))) ∧
    (∀ a b c d : BootImage, a.step = 1 → b.step = 2 → c.step = 3 → d.step = 4 → (∀ i ∈ [a, b, c, d], i.signed = true) →
      (∀ i ∈ [a, b, c, d], k.minSvn i.step ≤ i.svn) →
      bootChain k 0 [a, b, c, d] = { k with
        m1 := sha3Extend 0 a.digest, m2 := sha3Extend (sha3Extend (sha3Extend 0 b.digest) c.digest) d.digest,
        svns := [(1, a.svn), (2, b.svn), (3, c.svn), (4, d.svn)], booted := true, bootError := 0 }) ∧
    (∀ (v : Package) (last : Nat), bootChain v last [] =
      if 5 ≤ last then { v with booted := true, bootError := 0 } else { v with booted := false, bootError := max last 1 + 1 }) ∧
    (∀ m d : BitVec 512, sha3Extend m d = BitVec.ofNat 512 (leNat (sha3 (leBytes 64 m.toNat ++ leBytes 64 d.toNat)))) ∧
    (∀ (v : Package) (last : Nat) (i : BootImage) (r : List BootImage),
      (i.signed = false ∨ i.svn < v.minSvn i.step ∨ bootNextStep last i.step = false →
        bootChain v last (i :: r) = { v with booted := false, bootError := i.step + 1 }) ∧
      (i.signed = true → v.minSvn i.step ≤ i.svn → bootNextStep last i.step = true →
        bootChain v last (i :: r) = bootChain { v.measure i.step i.digest with svns := v.svns ++ [(i.step, i.svn)] } (i.step + 1) r))) ∧
  (∀ (s : State) (p n id w : Nat) (d : Int), let k := s.pkg p
    let up (f : Package → Package) : Host.Outcome State Fault Refusal := .next (s.updPkg p f)
    (let f : List Nat := [n, k.m0.toNat, k.m1.toNat, k.m2.toNat, k.m3.toNat] ++ k.svns.map (·.2) ++ [p] ++ Config.identityChain p
     exec (.attest p n) s = up (fun v => { v with mailbox := f ++ [Config.attestSignature f] })) ∧
    (exec (.keyload p id w) s =
      if 1 ≤ id ∧ id ≤ 2047 then up (fun v => { v with keys := Store.put v.keys id (Config.unwrapKey w) }) else .next s) ∧
    exec (.keyevict p id) s = up (fun v => { v with keys := Store.del v.keys id }) ∧
    (exec (.pwrcap p w) s = if 1000 ≤ w ∧ w ≤ 2200 then up (fun v => { v with pwrcap := w }) else .next s) ∧
    exec (.events p) s = up (fun v => { v with events := v.log, log := [] }) ∧
    exec (.timeSync p d) s = up (fun v => { v with timeOffset := v.timeOffset + d })) ∧
  (∀ (s : State) (p o : Nat) (op : HdmOp), let pa := p * 2 ^ 43 + o
    (hdmSize op = none → exec (.hdmAccess p o op) s = .next s) ∧
    (∀ n, hdmSize op = some n →
      (2 ^ 39 < o + n ∨ 8192 ≤ p → exec (.hdmAccess p o op) s = .next s) ∧
      (o + n ≤ 2 ^ 39 → p < 8192 → rangeHeldBy s 0 pa n ≠ none → exec (.hdmAccess p o op) s = .next (s.cause (.hdmAccess p o op))) ∧
      (o + n ≤ 2 ^ 39 → p < 8192 → rangeHeldBy s 0 pa n = none →
        let u := (agentRead s 0 pa n).1
        let old := (agentRead s 0 pa n).2
        let back (t : State) : Host.Outcome State Fault Refusal := .next (t.updPkg p (fun k => { k with hdm := old }))
        (op = .read n → exec (.hdmAccess p o op) s = back u) ∧
        (∀ bs, op = .write bs → exec (.hdmAccess p o op) s = .next (agentWrite u 0 pa bs)) ∧
        (∀ x, op = .fetchAdd n x → exec (.hdmAccess p o op) s = back (agentWrite u 0 pa (leBytes n (leNat old + x)))) ∧
        (∀ x, op = .swap n x → exec (.hdmAccess p o op) s = back (agentWrite u 0 pa (leBytes n x))) ∧
        (∀ y x, op = .cas n y x → exec (.hdmAccess p o op) s =
          back (if leNat old = y % 2 ^ (8 * n) then agentWrite u 0 pa (leBytes n x) else u)))))

/-- Fragments hop, arrive and decode; messages are performed, acknowledged, sent again or given up; links fail and retrain
(R409, R412, R413, R414, R415, R416, R418, R420, R421, R423, R425, R429, Table 21-5). The model's choices: the counter values that a packet
lost in the middle uses up (log entry 23), a last lane lost without RETRAINS and the exhausted port (87), SLOTDROP of hall 0 (92), the
window of 256 numbers and messages (115), control messages repeated without end (89). -/
def Obligations.fabric_events : Prop :=
  (∀ (s : State) (i : Nat), s.packets[i]? = none → exec (.fragmentHop i) s = .next s ∧ exec (.fragmentArrival i) s = .next s) ∧
  (∀ (s : State) (i : Nat) (p : Packet), s.packets[i]? = some p →
    let w : State := { s with packets := s.packets.eraseIdx i }
    let bad := p.res0 ≠ 0 ∨ p.fsz = 3 ∨ p.k + p.m ≤ p.frag ∨ stripeCount p.length p.k p.f ≤ p.stripe
    let there := if p.inside then nextHall p = none else nextDirection s p = none
    (there → exec (.fragmentHop i) s = .next { s with sched := .event (.fragmentArrival i) :: s.sched } ∧
      (¬bad → exec (.fragmentArrival i) s = .next (handleFragment w p)) ∧
      (bad → exec (.fragmentArrival i) s = .next (afterLoss (match p.port with
        | some q => w.updPort p.pkg q (fun r => { r with authf := min (r.authf + 1) 0xFFFF })
        | none => w) p))) ∧
    (¬there → exec (.fragmentArrival i) s = .next s) ∧
    (∀ h, p.inside = true → nextHall p = some h → exec (.fragmentHop i) s =
      .next { s with packets := s.packets.set i { p with hall := h }, due := s.due ++ [.fragmentHop 0] }) ∧
    (∀ dir det, p.inside = false → nextDirection s p = some (dir, det) →
      (reachable s p = false ∨ hopPort s p dir = none → exec (.fragmentHop i) s = .next (afterLoss
        (updCounters w (4 * p.pkg) (fun k => { k with slotdrop := k.slotdrop + 1 })) p)) ∧
      (∀ q, reachable s p = true → hopPort s p dir = some q →
        let dst := neighbour s p.pkg dir
        let rq := farPort q
        let again (u : State) : State := { u with packets := u.packets.eraseIdx i ++ [p], due := u.due ++ [.fragmentHop 0] }
        (nextCounter (s.port p.pkg q) p.flits = none → exec (.fragmentHop i) s = .next (again
          ((s.updPort p.pkg q (fun t => { t with state := 2, keyexh := true })).updPkg p.pkg (fun k => { k with log := k.log ++ [.keyExh q] })))) ∧
        (∀ t, nextCounter (s.port p.pkg q) p.flits = some t →
          (freeBuffers s dst rq (streamClass p.stream) < buffersNeeded p dir → exec (.fragmentHop i) s = .next (again s)) ∧
          (buffersNeeded p dir ≤ freeBuffers s dst rq (streamClass p.stream) →
            let u := s.updPort p.pkg q (fun _ => { t with txCount := t.txCount + p.flits })
            let id := Config.linkId p.pkg q
            (acceptPacket (u.port dst rq) p id t.kep t.txCount (sealPacket p id t.key t.kep t.txCount) = none →
              exec (.fragmentHop i) s = .next (afterLoss (removePacket (countAuthf u dst rq) i) p)) ∧
            (∀ r bs, acceptPacket (u.port dst rq) p id t.kep t.txCount (sealPacket p id t.key t.kep t.txCount) = some (r, bs) →
              let p' : Packet := { p with pkg := dst, port := some rq, hop := p.hop + 1, detoured := p.detoured || det, data := bs }
              exec (.fragmentHop i) s = .next ({ u.updPort dst rq (fun _ => r) with
                packets := s.packets.set i p', due := s.due ++ [.fragmentHop 0] }))))))) ∧
  (∀ (s : State) (p : Packet), let hk := streamDst p.stream
    let st := s.stream p.stream
    let slots := (s.hall hk).slots
    let mine := slots.find? (fun x => x.stream == p.stream && x.seq == p.seq && x.stripe == p.stripe)
    let decoded := (st.arriving.find? (fun a => a.msg.seq == p.seq)).any (fun a => a.stripes.any (fun x => x.1 == p.stripe))
    (settledSeq st p.seq = true → handleFragment s p = noteRepeat (updCounters s hk (fun c => { c with dup := c.dup + 1 })) p) ∧
    (settledSeq st p.seq = false → decoded = true → handleFragment s p = updCounters s hk (fun c => { c with late := c.late + 1 })) ∧
    (settledSeq st p.seq = false → decoded = false →
      (∀ x, mine = some x → (x.frags.any (fun e => e.1 == p.frag)) = true →
        handleFragment s p = updCounters s hk (fun c => { c with dup := c.dup + 1 })) ∧
      (∀ x, mine = some x → (x.frags.any (fun e => e.1 == p.frag)) = false → handleFragment s p = addFragment s hk x p) ∧
      (mine = none → 1024 ≤ slots.length ∨ beyondWindow s p.stream p.seq = true →
        handleFragment s p = afterLoss (updCounters s hk (fun c => { c with slotdrop := c.slotdrop + 1 })) p) ∧
      (mine = none → slots.length < 1024 → beyondWindow s p.stream p.seq = false →
        handleFragment s p = addFragment s hk ⟨p.stream, p.seq, p.stripe, p.k, p.m, p.f, []⟩ p)) ∧
    (∀ x : Slot, let fs := x.frags ++ [(p.frag, p.data)]
      let t := updSlots s hk (fun l => l.filter (· != x))
      (fs.length < x.k → addFragment s hk x p = updSlots t hk (fun l => l ++ [{ x with frags := fs }])) ∧
      (x.k ≤ fs.length → addFragment s hk x p = addStripe (updCounters t hk (fun c => { c with
          decoded := c.decoded + 1, recon := if fs.any (fun e => decide (x.k ≤ e.1)) then c.recon + 1 else c.recon })) p
        (rebuildStripe x.k fs)))) ∧
  (∀ (s : State) (h n : Nat),
    ((s.hall h).slots[n]? = none → exec (.slotTimeout h n) s = .next s) ∧
    (∀ x, (s.hall h).slots[n]? = some x →
      let t := updCounters (updSlots s h (fun l => l.eraseIdx n)) h (fun c => { c with stale := c.stale + 1 })
      exec (.slotTimeout h n) s =
        .next (if (s.stream x.stream).sent.any (fun y => y.msg.seq == x.seq) then t.causeOnce (.retxTimeout x.stream x.seq) else t))) ∧
  (∀ (s : State) (k n base bits : Nat), let st := s.stream k
    (messageReady st = none → exec (.messagePerform k) s = .next s) ∧
    (∀ a, messageReady st = some a →
      let m : FabricMessage := { a.msg with bytes := ((List.range a.total).flatMap (fun i => (a.stripes.lookup i).getD [])).take a.length }
      (messageHeld s m = none → exec (.messagePerform k) s = .next (performMessage
        (settleSeq (s.updStream k (fun v => { v with seen := v.seen ++ [(a.msg.seq, a.send)] })) k a.msg.seq) k m)) ∧
      (messageHeld s m ≠ none → exec (.messagePerform k) s = .next (s.cause (.messagePerform k)))) ∧
    (∃ t, exec (.sackReceive k base bits) s = .next t ∧ (st.waiting = [] →
      t.stream k = { st with sent := st.sent.filter (fun x => !(x.msg.seq / 64 * 64 == base && bitOf bits (x.msg.seq % 64))) })) ∧
    (∃ t, exec (.ack k n) s = .next t ∧ (st.waiting = [] →
      t.stream k = { st with sent := st.sent.filter (fun x => !(x.msg.seq == n)) })) ∧
    (st.unsent = [] → exec (.sack k) s = .next (s.updStream k id)) ∧
    (∀ b, st.unsent ≠ [] → (∀ m ∈ st.unsent, m / 64 * 64 = b) →
      let bits := (List.range 64).foldl (fun a i => if settledSeq st (b + i) then a + 2 ^ i else a) 0
      exec (.sack k) s = .next (sendMessage (s.updStream k (fun v => { v with unsent := [] })) (streamDst k) (streamSrc k) 2 0
        (.sack k b bits) (leBytes 8 b ++ leBytes 8 bits))) ∧
    ((∀ x ∈ st.sent, x.msg.seq ≠ n) → exec (.retxTimeout k n) s = .next s) ∧
    (∀ x, st.sent.find? (fun y => y.msg.seq == n) = some x →
      let src := streamSrc k
      let endless := hallPkg src == hallPkg (streamDst k) || x.msg.body.isControl
      let x' : Sent := { x with sends := x.sends + 1 }
      let t := updCounters (s.updStream k (fun v => { v with sent := v.sent.map (fun y => if y == x then x' else y) })) src
        (fun c => { c with retx := c.retx + 1 })
      (endless = false → ((s.hall src).crateOf (streamClass k)).retry < x.sends → exec (.retxTimeout k n) s = .next (giveUp s k x)) ∧
      (endless = true ∨ x.sends ≤ ((s.hall src).crateOf (streamClass k)).retry → exec (.retxTimeout k n) s = .next (transmit
        (if endless && x.sends == 16 then t.updPkg (hallPkg src) (fun p => { p with log := p.log ++ [.machineCheck src] }) else t)
        k x'))) ∧
    (settledSeq st n = true → exec (.skip k n) s = .next s) ∧
    (settledSeq st n = false → exec (.skip k n) s = .next (settleSeq s k n))) ∧
  (∀ (s : State) (p q n key : Nat), let v := s.port p q
    let at_ := nextOnPort s p q
    (v.state = 3 → exec (.laneFailure p q n) s = .next s ∧ exec (.keyInstall p q key) s = .next s) ∧
    (v.state ≠ 3 → v.keyexh = true → exec (.laneFailure p q n) s = .next (s.updPort p q (fun t => { t with lanes := n }))) ∧
    (v.state ≠ 3 → v.keyexh = false →
      let fail (u : State) : State :=
        if n = 0 then u.updPort p q (fun t => { t with lanes := 0, state := 2, width := 3 })
        else (u.updPort p q (fun t => { t with lanes := n, state := 1, retrains := min (t.retrains + 1) 0xFFFF })).cause (.retrainDone p q)
      (at_ = none → exec (.laneFailure p q n) s = .next (fail s)) ∧
      (∀ i x t, at_ = some i → s.packets[i]? = some x → nextCounter v x.flits = some t → exec (.laneFailure p q n) s =
        .next (fail (afterLoss (removePacket (s.updPort p q (fun _ => { t with txCount := t.txCount + x.flits })) i) x)))) ∧
    (v.state ≠ 3 →
      let u := (s.updPort p q (fun t => { t with pending := some key })).updPort (neighbour s p (q / 4)) (farPort q)
        (fun t => { t with rxPending := some key })
      exec (.keyInstall p q key) s = .next (if v.keyexh then
        (u.updPort p q (fun t => { t with keyexh := false, state := 1, retrains := min (t.retrains + 1) 0xFFFF })).cause (.retrainDone p q)
        else u)) ∧
    (v.state ≠ 1 → exec (.retrainDone p q) s = .next s) ∧
    (v.state = 1 → exec (.retrainDone p q) s = .next (s.updPort p q (fun t => { t with
      state := if t.lanes = 0 then 2 else 0,
      width := if 4 ≤ t.lanes then 0 else if 2 ≤ t.lanes then 1 else if t.lanes = 1 then 2 else 3 })))) ∧
  (∀ (t : Port) (n : Nat),
    (∀ key, t.pending = some key → nextCounter t n = some { t with key := key, pending := none, kep := !t.kep, txCount := 0 }) ∧
    (t.pending = none → nextCounter t n = if 2 ^ 64 - 2 < t.txCount + n - 1 then none else some t)) ∧
  (∀ (s : State) (y : Nat) (r : DonationRequest), let p := s.pkg y
    (p.brwen = false → exec (.donreq y r) s = .next s) ∧
    (p.brwen = true → p.brwtail - p.brwhead = p.brwcap →
      exec (.donreq y r) s = .next (s.updPkg y (fun k => { k with fulls := (k.fulls + 1) % 2 ^ 32 }))) ∧
    (p.brwen = true → p.brwtail - p.brwhead ≠ p.brwcap → exec (.donreq y r) s = .next
      ((agentWrite s 0 (p.brwbase + 4160 * (p.brwtail % p.brwcap)) (barrowHeader r ++ r.bytes)).updPkg y
        (fun k => { k with brwtail := k.brwtail + 1 })))) ∧
  (∀ (s : State) (c : Nat),
    (∀ h, (s.ctx c).hunt = some h → h.donated = none ∧ (h.asked = false ∨ ∀ u rest, h.victims ≠ (6, u) :: rest)) →
    exec (.barrowTake c) s = .next s)

/-- The slice protocol goes as R435 to R438 say: prepare, answers, abort, start time, grace, reports, start, abandonment (R435,
R436, R437, R438, R443, Table 22-2). The model's choices: an invalid descriptor is ignored, the RCB is read under the outgoing region's
PTBR, a START that cannot bind yet waits, only idle contexts are bound again (log entry 94); the payload of a slice message and the halls it
runs between (log entry 10). -/
def Obligations.slice_events : Prop :=
  (∀ (s : State) (src dst : Nat) (e : Event),
    (src = dst → sendSlice s src dst e = s.cause e) ∧
    (src ≠ dst → sendSlice s src dst e = sendMessage s (4 * src) (4 * dst) 2 0 (.control e) (wireBytes (Config.messagePayload s.tick 12)))) ∧
  (∀ (s : State) (p n q : Nat) (b : Bool), s.slice p n = none →
    ∀ i ∈ [Instr.sliceAnswer p n q b, .sliceAbort p n, .sliceTstart p n, .sliceGraceExpiry p n, .sliceReport p n q b, .sliceStart p n,
      .sliceAbandon p n, .sliceNoAnswer p n q], exec i s = .next s) ∧
  (∀ (s : State) (p : Nat) (d : SliceDescriptor),
    let good := 10000 ≤ d.grace ∧ d.grace ≤ 1000000000 ∧ 1 ≤ d.entries.length ∧ d.entries.length ≤ 8192
    (¬good ∨ s.slice p d.slid ≠ none → exec (.slice p d) s = .next s) ∧
    (good → s.slice p d.slid = none → exec (.slice p d) s = .next ((d.entries.map (·.pkg)).dedup.foldl
      (fun t q => sendSlice t p q (.slicePrepare q d.slid))
      (s.updPkg p (fun k => { k with slices := k.slices ++ [⟨d, p, 1, [], [], [], [], [], []⟩] }))))) ∧
  (∀ (s : State) (p n : Nat),
    (coordinated s n = none → exec (.slicePrepare p n) s = .next s) ∧
    (∀ x, coordinated s n = some x →
      (entryOf x.desc p = none → exec (.slicePrepare p n) s = .next s) ∧
      (∀ e, entryOf x.desc p = some e →
        let s0 := if s.region p e.incoming = none then admitIncoming s p e else s
        let waits := ((s0.region p e.incoming).map (fun r => r.st == 1)).getD false
        let s1 := if waits then s0.updRegion p e.incoming (fun r => { r with held := true }) else s0
        let s2 := if p = x.coordinator ∨ s1.slice p n ≠ none then s1
          else s1.updPkg p (fun k => { k with slices := k.slices ++ [⟨x.desc, x.coordinator, 2, [], [], [], [], [], []⟩] })
        exec (.slicePrepare p n) s =
          .next (sendSlice s2 p x.coordinator (.sliceAnswer x.coordinator n p (waits && (s.region p e.outgoing).isSome)))))) ∧
  (∀ (s : State) (p n q : Nat) (x : Slice) (ready evicted : Bool), s.slice p n = some x →
    let pkgs := (x.desc.entries.map (·.pkg)).dedup
    (x.coordinator ≠ p ∨ q ∉ pkgs → exec (.sliceAnswer p n q ready) s = .next s ∧ exec (.sliceReport p n q evicted) s = .next s) ∧
    (x.phase ≠ 1 ∨ q ∈ x.ready ∨ q ∈ x.refused → exec (.sliceAnswer p n q ready) s = .next s) ∧
    (x.phase ≠ 3 ∨ q ∈ x.evicted ∨ q ∈ x.late → exec (.sliceReport p n q evicted) s = .next s) ∧
    (x.coordinator = p → x.phase = 1 → q ∈ pkgs → q ∉ x.ready → q ∉ x.refused →
      let y : Slice := { x with ready := if ready then x.ready ++ [q] else x.ready, refused := if ready then x.refused else x.refused ++ [q] }
      let t := s.updSlice p n (fun _ => y)
      (x.ready.length + x.refused.length + 1 < pkgs.length → exec (.sliceAnswer p n q ready) s = .next t) ∧
      (pkgs.length ≤ x.ready.length + x.refused.length + 1 → ready = true → x.refused = [] → s.timeOf p + 100000 < x.desc.tstart →
        exec (.sliceAnswer p n q ready) s = .next (pkgs.foldl (fun u k => sendSlice u p k (.sliceTstart k n))
          (t.updSlice p n (fun z => { z with phase := 3 })))) ∧
      (pkgs.length ≤ x.ready.length + x.refused.length + 1 → ready = false ∨ x.refused ≠ [] ∨ x.desc.tstart ≤ s.timeOf p + 100000 →
        exec (.sliceAnswer p n q ready) s = .next (pkgs.foldl (fun u k => sendSlice u p k (.sliceAbort k n)) (decided t p y)))) ∧
    (x.coordinator = p → x.phase = 3 → q ∈ pkgs → q ∉ x.evicted → q ∉ x.late →
      let y : Slice := { x with evicted := if evicted then x.evicted ++ [q] else x.evicted, late := if evicted then x.late else x.late ++ [q] }
      let t := s.updSlice p n (fun _ => y)
      (x.evicted.length + x.late.length + 1 < pkgs.length → exec (.sliceReport p n q evicted) s = .next t) ∧
      (pkgs.length ≤ x.evicted.length + x.late.length + 1 → evicted = true → x.late = [] →
        exec (.sliceReport p n q evicted) s = .next (pkgs.foldl (fun u k => sendSlice u p k (.sliceStart k n)) (decided t p y))) ∧
      (pkgs.length ≤ x.evicted.length + x.late.length + 1 → evicted = false ∨ x.late ≠ [] →
        exec (.sliceReport p n q evicted) s = .next (pkgs.foldl (fun u k => sendSlice u p k (.sliceAbandon k n))
          (decided (t.updPkg p (fun k => { k with log := k.log ++ [.sliceAbandon n y.late] })) p y)))) ∧
    (decided s p x = if p ∈ pkgs then s.updSlice p n (fun y => { y with phase := 5 }) else s.dropSlice p n) ∧
    (s.timeOf p < x.desc.tstart + x.desc.grace → exec (.sliceGraceExpiry p n) s = .next (s.cause (.sliceGraceExpiry p n))) ∧
    (x.desc.tstart + x.desc.grace ≤ s.timeOf p → exec (.sliceGraceExpiry p n) s =
      .next (if x.waiting = [] then s else sendSlice s p x.coordinator (.sliceReport x.coordinator n p false))) ∧
    (exec (.sliceNoAnswer p n q) s = .next (
      if x.coordinator = p ∧ q ∈ pkgs ∧ ((x.phase = 1 ∧ q ∉ x.ready ∧ q ∉ x.refused) ∨ (x.phase = 3 ∧ q ∉ x.evicted ∧ q ∉ x.late))
      then s.updPkg p (fun k => { k with log := k.log ++ [.machineCheck q] }) else s)) ∧
    (exec (.sliceAbandon p n) s =
      .next ((x.rebind.foldl (fun t e => rebindContext t p e) (x.waiting.foldl (withdraw n) s)).dropSlice p n)) ∧
    (entryOf x.desc p = none → ∀ i ∈ [Instr.sliceAbort p n, .sliceTstart p n, .sliceStart p n], exec i s = .next s) ∧
    (∀ e, entryOf x.desc p = some e →
      let u := (s.updRegion p e.incoming (fun r => { r with held := false })).dropSlice p n
      (exec (.sliceAbort p n) s = .next (u.cause (.waitlistExamine p))) ∧
      (s.timeOf p < x.desc.tstart → exec (.sliceTstart p n) s = .next (s.cause (.sliceTstart p n))) ∧
      (x.desc.tstart ≤ s.timeOf p →
        let cs := ((s.region p e.outgoing).map (fun r => r.bound.map (·.1))).getD []
        let s1 := s.updSlice p n (fun y => { y with waiting := cs, rebind := [] })
        exec (.sliceTstart p n) s = .next (if cs = [] then sendSlice s1 p x.coordinator (.sliceReport x.coordinator n p true)
          else (cs.foldl (fun t c => requestContext t c 1 true n) s1).cause (.sliceGraceExpiry p n))) ∧
      (s.region p e.incoming = none → exec (.sliceStart p n) s = .next u) ∧
      (∀ r, u.region p e.incoming = some r → exec (.sliceStart p n) s =
        .next (if (s.pkg p).booted = true ∧ r.st = 1 ∧ canBind u p r = true then bindRegion u p r else u.cause (.waitlistExamine p))))) ∧
  (∀ (s : State) (n c : Nat), let v := s.ctx c
    let mine (q : Request) : Bool := q.source == 1 && q.slid == n
    let kept := (v.request.toList ++ v.also).filter (fun q => !mine q)
    withdraw n s c = if (v.request.toList ++ v.also).any mine then
      (s.updCtx c (fun w => { w with request := kept.head?, also := kept.drop 1 })).causeOnce (.evict c) else s) ∧
  (∀ (s : State) (p c : Nat) (w : Word) (r : Region), s.region p w.toNat = some r → let v := s.ctx c
    (v.st ≠ .idle ∨ v.rcbp = w → rebindContext s p (c, w) = s) ∧
    (v.st = .idle → v.rcbp ≠ w → rebindContext s p (c, w) =
      (bindContext (s.updRegion p w.toNat (fun q => { q with bound := q.bound ++ [(c, v.rcbp)], former := q.former.filter (· != c) })) c r).cause
        (.huntRound c)))

/-- A step of a ready context runs the instruction its words decode to; a step of an event runs the event (R36, R67, R79, R209,
R210, R303, R374, R396). The model's choices: how due events and issues alternate (log entry 4), the fault noSuchUnit beyond the largest
machine (98), the Inspector's step that ends when its instruction has issued (37). -/
def Obligations.step_runs_decoded : Prop :=
  (∀ (s : State) (c : Nat) (r : List Turn), s.sched = .issue c :: r →
    let u : State := { s with tick := s.tick + 1, sched := r }
    let v : State := { u with cur := c }
    (ctxLimit ≤ c → step s = .fault .noSuchUnit) ∧
    (c < ctxLimit → canIssue u c = false → step s = .next u) ∧
    (c < ctxLimit → canIssue u c = true → (u.ctx c).preemptDue = true → isMidway u c = false → step s = .next (takePreempt v c)) ∧
    (c < ctxLimit → canIssue u c = true → (u.ctx c).preemptDue = false ∨ isMidway u c = true →
      let closed (o : Host.Outcome State Fault Refusal) : Host.Outcome State Fault Refusal :=
        if (u.ctx c).stepping || isMidway u c then endTurn (isMidway u c) c o else o
      (∀ e, fetch v = .error e → step s = closed (finish v (.error e))) ∧
      (∀ s1 e, fetch v = .ok (s1, .error e) → step s = closed (.next (s1.trap s1.cur (decodeTrap e)))) ∧
      (∀ s1 w, fetch v = .ok (s1, .ok w) →
        (∀ i, decodeRaw w = .ok i → step s = closed (exec i (beginIssue s1 w))) ∧
        (∀ e, decodeRaw w = .error e → step s = closed (.next (s1.trap s1.cur (decodeTrap e))))))) ∧
  (∀ (s : State) (c : Nat) (r : List Turn) (i : Instr), s.sched = .issue c :: r → c < ctxLimit →
    let u : State := { s with tick := s.tick + 1, sched := r, cur := c }
    let pc := u.me.pc.toNat
    let n := 2 * (encode i).length
    canIssue s c = true → u.me.preemptDue = false → u.me.stepping = false → isMidway s c = false → u.myStall.texts = [] → i.wf = true →
    i.parts.isSome = true → u.inTcm pc n → u.intact pc n →
    homeBytes s 0 (u.tcmPlace pc).pa n = (encode i).flatMap (fun w => leBytes 2 w.toNat) →
    ∃ w, w.ps ++ [w.base] = encode i ∧ step s = exec i (beginIssue u w)) ∧
  (∀ (s : State) (w : Raw), let t := beginIssue s w
    t = { s with ctxs := t.ctxs, stalls := t.stalls } ∧ t.me = { s.me with len := 2 * (w.ps.length + 1), waited := false } ∧
    (∀ c, c ≠ s.cur → t.ctx c = s.ctx c) ∧ (∀ k, k ≠ ctxStall s.cur → t.stall k = s.stall k) ∧
    t.myStall = (if onVPort w then { s.myStall with vPtr := s.cur % 64, ptrV := true, ptrOld := s.myStall.vPtr }
      else { s.myStall with sPtr := s.cur % 64, ptrV := false, ptrOld := s.myStall.sPtr })) ∧
  (∀ (s t : State) (c : Nat), hasIssued t c = true → (t.ctx c).stepping = true →
    endTurn (isMidway s c) c (.next t) =
      .next (haltContext (dropVisits (t.updCtx c (fun v => { v with stepping := false })) (.issue c)) c)) ∧
  (∀ (s : State) (c : Nat) (r : List Turn), s.sched = .step c :: r →
    let u : State := { s with tick := s.tick + 1, sched := r }
    step s = if (s.ctx c).st = .halt then issueOn c ((resumeContext u c).updCtx c (fun v => { v with stepping := true })) else .next u) ∧
  (∀ (s : State) (e : Event) (r : List Turn), s.sched = .event e :: r →
    step s = exec e.instr { s with tick := s.tick + 1, sched := r }) ∧
  (∀ (s : State), s.sched = [] → let u : State := { s with tick := s.tick + 1 }
    (s.due = [] → nextReady u = none → step s = .next u) ∧
    (∀ e r, s.due = e :: r → nextReady u = none ∨ s.tick % 2 = 1 → step s = exec e.instr { u with due := r }) ∧
    (∀ c l w, nextReady u = some (c, l, w) → s.due = [] ∨ s.tick % 2 = 0 → step s = issueOn c { w with sched := l.map .issue }))

/-- One word or word sequence of each page, written from the encoding tables, decodes to its instruction (R67, R68, R71, R72,
R73, R74, R75, R79). -/
def Obligations.decode_words : Prop :=
  ∀ e ∈ ([
      ([0x0090], .add ⟨.o 1, .o 2, none⟩), ([0xFAC0, 0x0090], .add ⟨.o 1, .o 2, some (.g 3)⟩), ([0x802D], .sysc ⟨5⟩),
      ([0xF964, 0x187F], .movi ⟨.g 100, -1⟩), ([0xF802, 0x202C], .addi ⟨.o 0, 300⟩), ([0xFB02, 0x0090], .vadd ⟨1, 2, none, none, none⟩),
      ([0xFB03, 0xFA20, 0x0008], .mma ⟨0, 1, 2⟩), ([0xFB04, 0x0095], .mneg ⟨1, 2, none⟩),
      ([0xFB06, 0xFA30, 0x0090], .aadd ⟨.o 1, .o 2, .o 3, 0, none, none⟩), ([0xFB08, 0x0000], .eret)] :
      List (List Word16 × Instr)),
    decode e.1 = .instr e.2 e.1.length

/-- Decoding the encoding of a well-formed instruction gives the instruction back, all its words and no more (R67, R68, R69,
R71, R72, R73, R74, R75, R76, R77, R78, R79). -/
def Obligations.decode_encode : Prop :=
  ∀ (i : Instr) (rest : List Word16), i.wf = true → i.parts.isSome = true →
    decode (encode i ++ rest) = .instr i (encode i).length

/-- Every step keeps the canonical form of memory: addresses strictly rising, no byte listed that reads as unlisted (R28, R290).
-/
def Obligations.step_keeps_memory_form : Prop :=
  ∀ (s t : State), s.memoryWf → step s = .next t → t.memoryWf
end

