-- ==== Sys2Proof/Laws/PerInstr.lean ====
section
/-! SUPPORT. The facts that hold of every instruction as syntax, one lemma per constructor. -/

namespace Sys2Proof.Laws.OpcodePlace

/-- An instruction that has an encoding stands on one of the pages 0 to 8, under a major that no prefix word has (R67, R68, R75). -/
def Statement (i : Instr) : Prop := ∀ e, i.parts = some e → e.page ≤ 8 ∧ e.maj < 31

theorem placed {i : Instr} {e : Parts} (h : i.parts = some e) (hp : e.page ≤ 8) (hm : e.maj < 31) : Statement i := by
  intro e' h'
  rw [h] at h'
  cases h'
  exact ⟨hp, hm⟩

theorem unplaced {i : Instr} (h : i.parts = none) : Statement i := by
  intro e h'
  rw [h] at h'
  cases h'

theorem add (a : GBin) : Statement (.add a) := placed rfl (Nat.le_of_ble_eq_true rfl) (Nat.le_of_ble_eq_true rfl)
theorem sub (a : GBin) : Statement (.sub a) := placed rfl (Nat.le_of_ble_eq_true rfl) (Nat.le_of_ble_eq_true rfl)
theorem and (a : GBin) : Statement (.and a) := placed rfl (Nat.le_of_ble_eq_true rfl) (Nat.le_of_ble_eq_true rfl)
theorem or (a : GBin) : Statement (.or a) := placed rfl (Nat.le_of_ble_eq_true rfl) (Nat.le_of_ble_eq_true rfl)
theorem xor (a : GBin) : Statement (.xor a) := placed rfl (Nat.le_of_ble_eq_true rfl) (Nat.le_of_ble_eq_true rfl)
theorem shl (a : GBin) : Statement (.shl a) := placed rfl (Nat.le_of_ble_eq_true rfl) (Nat.le_of_ble_eq_true rfl)
theorem shr (a : GBin) : Statement (.shr a) := placed rfl (Nat.le_of_ble_eq_true rfl) (Nat.le_of_ble_eq_true rfl)
theorem sra (a : GBin) : Statement (.sra a) := placed rfl (Nat.le_of_ble_eq_true rfl) (Nat.le_of_ble_eq_true rfl)
theorem mul (a : GBin) : Statement (.mul a) := placed rfl (Nat.le_of_ble_eq_true rfl) (Nat.le_of_ble_eq_true rfl)
theorem mulh (a : GBin) : Statement (.mulh a) := placed rfl (Nat.le_of_ble_eq_true rfl) (Nat.le_of_ble_eq_true rfl)
theorem mulhn (a : GBin) : Statement (.mulhn a) := placed rfl (Nat.le_of_ble_eq_true rfl) (Nat.le_of_ble_eq_true rfl)
theorem min (a : GBin) : Statement (.min a) := placed rfl (Nat.le_of_ble_eq_true rfl) (Nat.le_of_ble_eq_true rfl)
theorem max (a : GBin) : Statement (.max a) := placed rfl (Nat.le_of_ble_eq_true rfl) (Nat.le_of_ble_eq_true rfl)
theorem minn (a : GBin) : Statement (.minn a) := placed rfl (Nat.le_of_ble_eq_true rfl) (Nat.le_of_ble_eq_true rfl)
theorem maxn (a : GBin) : Statement (.maxn a) := placed rfl (Nat.le_of_ble_eq_true rfl) (Nat.le_of_ble_eq_true rfl)
theorem not (a : GUn) : Statement (.not a) := placed rfl (Nat.le_of_ble_eq_true rfl) (Nat.le_of_ble_eq_true rfl)
theorem mov (a : GUn) : Statement (.mov a) := placed rfl (Nat.le_of_ble_eq_true rfl) (Nat.le_of_ble_eq_true rfl)
theorem sxw (a : GUn) : Statement (.sxw a) := placed rfl (Nat.le_of_ble_eq_true rfl) (Nat.le_of_ble_eq_true rfl)
theorem zxw (a : GUn) : Statement (.zxw a) := placed rfl (Nat.le_of_ble_eq_true rfl) (Nat.le_of_ble_eq_true rfl)
theorem sxb (a : GUn) : Statement (.sxb a) := placed rfl (Nat.le_of_ble_eq_true rfl) (Nat.le_of_ble_eq_true rfl)
theorem sxh (a : GUn) : Statement (.sxh a) := placed rfl (Nat.le_of_ble_eq_true rfl) (Nat.le_of_ble_eq_true rfl)
theorem clz (a : GUn) : Statement (.clz a) := placed rfl (Nat.le_of_ble_eq_true rfl) (Nat.le_of_ble_eq_true rfl)
theorem popc (a : GUn) : Statement (.popc a) := placed rfl (Nat.le_of_ble_eq_true rfl) (Nat.le_of_ble_eq_true rfl)
theorem rev (a : GUn) : Statement (.rev a) := placed rfl (Nat.le_of_ble_eq_true rfl) (Nat.le_of_ble_eq_true rfl)
theorem movi (a : GImm) : Statement (.movi a) := placed rfl (Nat.le_of_ble_eq_true rfl) (Nat.le_of_ble_eq_true rfl)
theorem addi (a : GImm) : Statement (.addi a) := placed rfl (Nat.le_of_ble_eq_true rfl) (Nat.le_of_ble_eq_true rfl)
theorem shli (a : GShift) : Statement (.shli a) := placed rfl (Nat.le_of_ble_eq_true rfl) (Nat.le_of_ble_eq_true rfl)
theorem shri (a : GShift) : Statement (.shri a) := placed rfl (Nat.le_of_ble_eq_true rfl) (Nat.le_of_ble_eq_true rfl)
theorem srai (a : GShift) : Statement (.srai a) := placed rfl (Nat.le_of_ble_eq_true rfl) (Nat.le_of_ble_eq_true rfl)
theorem rori (a : GShift) : Statement (.rori a) := placed rfl (Nat.le_of_ble_eq_true rfl) (Nat.le_of_ble_eq_true rfl)
theorem ceq (a : GBin) : Statement (.ceq a) := placed rfl (Nat.le_of_ble_eq_true rfl) (Nat.le_of_ble_eq_true rfl)
theorem cne (a : GBin) : Statement (.cne a) := placed rfl (Nat.le_of_ble_eq_true rfl) (Nat.le_of_ble_eq_true rfl)
theorem clt (a : GBin) : Statement (.clt a) := placed rfl (Nat.le_of_ble_eq_true rfl) (Nat.le_of_ble_eq_true rfl)
theorem cge (a : GBin) : Statement (.cge a) := placed rfl (Nat.le_of_ble_eq_true rfl) (Nat.le_of_ble_eq_true rfl)
theorem cltn (a : GBin) : Statement (.cltn a) := placed rfl (Nat.le_of_ble_eq_true rfl) (Nat.le_of_ble_eq_true rfl)
theorem cgen (a : GBin) : Statement (.cgen a) := placed rfl (Nat.le_of_ble_eq_true rfl) (Nat.le_of_ble_eq_true rfl)
theorem tst (a : GBin) : Statement (.tst a) := placed rfl (Nat.le_of_ble_eq_true rfl) (Nat.le_of_ble_eq_true rfl)
theorem bnz (a : GImm) : Statement (.bnz a) := placed rfl (Nat.le_of_ble_eq_true rfl) (Nat.le_of_ble_eq_true rfl)
theorem bz (a : GImm) : Statement (.bz a) := placed rfl (Nat.le_of_ble_eq_true rfl) (Nat.le_of_ble_eq_true rfl)
theorem jr (a : GOne) : Statement (.jr a) := placed rfl (Nat.le_of_ble_eq_true rfl) (Nat.le_of_ble_eq_true rfl)
theorem callr (a : GOne) : Statement (.callr a) := placed rfl (Nat.le_of_ble_eq_true rfl) (Nat.le_of_ble_eq_true rfl)
theorem ret : Statement (.ret) := placed rfl (Nat.le_of_ble_eq_true rfl) (Nat.le_of_ble_eq_true rfl)
theorem j (a : JOff) : Statement (.j a) := placed rfl (Nat.le_of_ble_eq_true rfl) (Nat.le_of_ble_eq_true rfl)
theorem call (a : JOff) : Statement (.call a) := placed rfl (Nat.le_of_ble_eq_true rfl) (Nat.le_of_ble_eq_true rfl)
theorem ldb (a : GMem) : Statement (.ldb a) := placed rfl (Nat.le_of_ble_eq_true rfl) (Nat.le_of_ble_eq_true rfl)
theorem ldh (a : GMem) : Statement (.ldh a) := placed rfl (Nat.le_of_ble_eq_true rfl) (Nat.le_of_ble_eq_true rfl)
theorem ldw (a : GMem) : Statement (.ldw a) := placed rfl (Nat.le_of_ble_eq_true rfl) (Nat.le_of_ble_eq_true rfl)
theorem ldd (a : GMem) : Statement (.ldd a) := placed rfl (Nat.le_of_ble_eq_true rfl) (Nat.le_of_ble_eq_true rfl)
theorem ldbs (a : GMem) : Statement (.ldbs a) := placed rfl (Nat.le_of_ble_eq_true rfl) (Nat.le_of_ble_eq_true rfl)
theorem ldhs (a : GMem) : Statement (.ldhs a) := placed rfl (Nat.le_of_ble_eq_true rfl) (Nat.le_of_ble_eq_true rfl)
theorem ldws (a : GMem) : Statement (.ldws a) := placed rfl (Nat.le_of_ble_eq_true rfl) (Nat.le_of_ble_eq_true rfl)
theorem ldq (a : GMem) : Statement (.ldq a) := placed rfl (Nat.le_of_ble_eq_true rfl) (Nat.le_of_ble_eq_true rfl)
theorem stb (a : GMem) : Statement (.stb a) := placed rfl (Nat.le_of_ble_eq_true rfl) (Nat.le_of_ble_eq_true rfl)
theorem sth (a : GMem) : Statement (.sth a) := placed rfl (Nat.le_of_ble_eq_true rfl) (Nat.le_of_ble_eq_true rfl)
theorem stw (a : GMem) : Statement (.stw a) := placed rfl (Nat.le_of_ble_eq_true rfl) (Nat.le_of_ble_eq_true rfl)
theorem std (a : GMem) : Statement (.std a) := placed rfl (Nat.le_of_ble_eq_true rfl) (Nat.le_of_ble_eq_true rfl)
theorem stq (a : GMem) : Statement (.stq a) := placed rfl (Nat.le_of_ble_eq_true rfl) (Nat.le_of_ble_eq_true rfl)
theorem selnz (a : GTri) : Statement (.selnz a) := placed rfl (Nat.le_of_ble_eq_true rfl) (Nat.le_of_ble_eq_true rfl)
theorem selz (a : GTri) : Statement (.selz a) := placed rfl (Nat.le_of_ble_eq_true rfl) (Nat.le_of_ble_eq_true rfl)
theorem lea1 (a : GLea) : Statement (.lea1 a) := placed rfl (Nat.le_of_ble_eq_true rfl) (Nat.le_of_ble_eq_true rfl)
theorem lea2 (a : GLea) : Statement (.lea2 a) := placed rfl (Nat.le_of_ble_eq_true rfl) (Nat.le_of_ble_eq_true rfl)
theorem lea4 (a : GLea) : Statement (.lea4 a) := placed rfl (Nat.le_of_ble_eq_true rfl) (Nat.le_of_ble_eq_true rfl)
theorem lea8 (a : GLea) : Statement (.lea8 a) := placed rfl (Nat.le_of_ble_eq_true rfl) (Nat.le_of_ble_eq_true rfl)
theorem lea16 (a : GLea) : Statement (.lea16 a) := placed rfl (Nat.le_of_ble_eq_true rfl) (Nat.le_of_ble_eq_true rfl)
theorem nop : Statement (.nop) := placed rfl (Nat.le_of_ble_eq_true rfl) (Nat.le_of_ble_eq_true rfl)
theorem yield : Statement (.yield) := placed rfl (Nat.le_of_ble_eq_true rfl) (Nat.le_of_ble_eq_true rfl)
theorem trapf : Statement (.trapf) := placed rfl (Nat.le_of_ble_eq_true rfl) (Nat.le_of_ble_eq_true rfl)
theorem flagr (a : GOne) : Statement (.flagr a) := placed rfl (Nat.le_of_ble_eq_true rfl) (Nat.le_of_ble_eq_true rfl)
theorem flagc (a : GOne) : Statement (.flagc a) := placed rfl (Nat.le_of_ble_eq_true rfl) (Nat.le_of_ble_eq_true rfl)
theorem sysc (a : Num8) : Statement (.sysc a) := placed rfl (Nat.le_of_ble_eq_true rfl) (Nat.le_of_ble_eq_true rfl)
theorem bkpt (a : Num8) : Statement (.bkpt a) := placed rfl (Nat.le_of_ble_eq_true rfl) (Nat.le_of_ble_eq_true rfl)
theorem rdc (a : GCsr) : Statement (.rdc a) := placed rfl (Nat.le_of_ble_eq_true rfl) (Nat.le_of_ble_eq_true rfl)
theorem wrc (a : GCsr) : Statement (.wrc a) := placed rfl (Nat.le_of_ble_eq_true rfl) (Nat.le_of_ble_eq_true rfl)
theorem tmark (a : GOne) : Statement (.tmark a) := placed rfl (Nat.le_of_ble_eq_true rfl) (Nat.le_of_ble_eq_true rfl)
theorem div (a : GBin) : Statement (.div a) := placed rfl (Nat.le_of_ble_eq_true rfl) (Nat.le_of_ble_eq_true rfl)
theorem divn (a : GBin) : Statement (.divn a) := placed rfl (Nat.le_of_ble_eq_true rfl) (Nat.le_of_ble_eq_true rfl)
theorem rem (a : GBin) : Statement (.rem a) := placed rfl (Nat.le_of_ble_eq_true rfl) (Nat.le_of_ble_eq_true rfl)
theorem remn (a : GBin) : Statement (.remn a) := placed rfl (Nat.le_of_ble_eq_true rfl) (Nat.le_of_ble_eq_true rfl)
theorem bfx (a : GBin) : Statement (.bfx a) := placed rfl (Nat.le_of_ble_eq_true rfl) (Nat.le_of_ble_eq_true rfl)
theorem bfxn (a : GBin) : Statement (.bfxn a) := placed rfl (Nat.le_of_ble_eq_true rfl) (Nat.le_of_ble_eq_true rfl)
theorem bfi (a : GBin) : Statement (.bfi a) := placed rfl (Nat.le_of_ble_eq_true rfl) (Nat.le_of_ble_eq_true rfl)
theorem rol (a : GBin) : Statement (.rol a) := placed rfl (Nat.le_of_ble_eq_true rfl) (Nat.le_of_ble_eq_true rfl)
theorem ror (a : GBin) : Statement (.ror a) := placed rfl (Nat.le_of_ble_eq_true rfl) (Nat.le_of_ble_eq_true rfl)
theorem ctz (a : GUn) : Statement (.ctz a) := placed rfl (Nat.le_of_ble_eq_true rfl) (Nat.le_of_ble_eq_true rfl)
theorem fadd (a : GBin) : Statement (.fadd a) := placed rfl (Nat.le_of_ble_eq_true rfl) (Nat.le_of_ble_eq_true rfl)
theorem fsub (a : GBin) : Statement (.fsub a) := placed rfl (Nat.le_of_ble_eq_true rfl) (Nat.le_of_ble_eq_true rfl)
theorem fmul (a : GBin) : Statement (.fmul a) := placed rfl (Nat.le_of_ble_eq_true rfl) (Nat.le_of_ble_eq_true rfl)
theorem fdiv (a : GBin) : Statement (.fdiv a) := placed rfl (Nat.le_of_ble_eq_true rfl) (Nat.le_of_ble_eq_true rfl)
theorem fmin (a : GBin) : Statement (.fmin a) := placed rfl (Nat.le_of_ble_eq_true rfl) (Nat.le_of_ble_eq_true rfl)
theorem fmax (a : GBin) : Statement (.fmax a) := placed rfl (Nat.le_of_ble_eq_true rfl) (Nat.le_of_ble_eq_true rfl)
theorem fsqrt (a : GUn) : Statement (.fsqrt a) := placed rfl (Nat.le_of_ble_eq_true rfl) (Nat.le_of_ble_eq_true rfl)
theorem fabs (a : GUn) : Statement (.fabs a) := placed rfl (Nat.le_of_ble_eq_true rfl) (Nat.le_of_ble_eq_true rfl)
theorem fma (a : GTri) : Statement (.fma a) := placed rfl (Nat.le_of_ble_eq_true rfl) (Nat.le_of_ble_eq_true rfl)
theorem fms (a : GTri) : Statement (.fms a) := placed rfl (Nat.le_of_ble_eq_true rfl) (Nat.le_of_ble_eq_true rfl)
theorem fnma (a : GTri) : Statement (.fnma a) := placed rfl (Nat.le_of_ble_eq_true rfl) (Nat.le_of_ble_eq_true rfl)
theorem fneg (a : GUn) : Statement (.fneg a) := placed rfl (Nat.le_of_ble_eq_true rfl) (Nat.le_of_ble_eq_true rfl)
theorem feq (a : GBin) : Statement (.feq a) := placed rfl (Nat.le_of_ble_eq_true rfl) (Nat.le_of_ble_eq_true rfl)
theorem flt (a : GBin) : Statement (.flt a) := placed rfl (Nat.le_of_ble_eq_true rfl) (Nat.le_of_ble_eq_true rfl)
theorem fle (a : GBin) : Statement (.fle a) := placed rfl (Nat.le_of_ble_eq_true rfl) (Nat.le_of_ble_eq_true rfl)
theorem funo (a : GBin) : Statement (.funo a) := placed rfl (Nat.le_of_ble_eq_true rfl) (Nat.le_of_ble_eq_true rfl)
theorem cvtif (a : GUn) : Statement (.cvtif a) := placed rfl (Nat.le_of_ble_eq_true rfl) (Nat.le_of_ble_eq_true rfl)
theorem cvtfi (a : GUn) : Statement (.cvtfi a) := placed rfl (Nat.le_of_ble_eq_true rfl) (Nat.le_of_ble_eq_true rfl)
theorem cvtfb (a : GUn) : Statement (.cvtfb a) := placed rfl (Nat.le_of_ble_eq_true rfl) (Nat.le_of_ble_eq_true rfl)
theorem cvtbf (a : GUn) : Statement (.cvtbf a) := placed rfl (Nat.le_of_ble_eq_true rfl) (Nat.le_of_ble_eq_true rfl)
theorem cvtfh (a : GUn) : Statement (.cvtfh a) := placed rfl (Nat.le_of_ble_eq_true rfl) (Nat.le_of_ble_eq_true rfl)
theorem cvthf (a : GUn) : Statement (.cvthf a) := placed rfl (Nat.le_of_ble_eq_true rfl) (Nat.le_of_ble_eq_true rfl)
theorem vadd (a : VBin) : Statement (.vadd a) := placed rfl (Nat.le_of_ble_eq_true rfl) (Nat.le_of_ble_eq_true rfl)
theorem vsub (a : VBin) : Statement (.vsub a) := placed rfl (Nat.le_of_ble_eq_true rfl) (Nat.le_of_ble_eq_true rfl)
theorem vmul (a : VBin) : Statement (.vmul a) := placed rfl (Nat.le_of_ble_eq_true rfl) (Nat.le_of_ble_eq_true rfl)
theorem vmin (a : VBin) : Statement (.vmin a) := placed rfl (Nat.le_of_ble_eq_true rfl) (Nat.le_of_ble_eq_true rfl)
theorem vmax (a : VBin) : Statement (.vmax a) := placed rfl (Nat.le_of_ble_eq_true rfl) (Nat.le_of_ble_eq_true rfl)
theorem vand (a : VBin) : Statement (.vand a) := placed rfl (Nat.le_of_ble_eq_true rfl) (Nat.le_of_ble_eq_true rfl)
theorem vor (a : VBin) : Statement (.vor a) := placed rfl (Nat.le_of_ble_eq_true rfl) (Nat.le_of_ble_eq_true rfl)
theorem vxor (a : VBin) : Statement (.vxor a) := placed rfl (Nat.le_of_ble_eq_true rfl) (Nat.le_of_ble_eq_true rfl)
theorem vfma (a : VBin) : Statement (.vfma a) := placed rfl (Nat.le_of_ble_eq_true rfl) (Nat.le_of_ble_eq_true rfl)
theorem vfms (a : VBin) : Statement (.vfms a) := placed rfl (Nat.le_of_ble_eq_true rfl) (Nat.le_of_ble_eq_true rfl)
theorem vabs (a : VUn) : Statement (.vabs a) := placed rfl (Nat.le_of_ble_eq_true rfl) (Nat.le_of_ble_eq_true rfl)
theorem vneg (a : VUn) : Statement (.vneg a) := placed rfl (Nat.le_of_ble_eq_true rfl) (Nat.le_of_ble_eq_true rfl)
theorem vshl (a : VBin) : Statement (.vshl a) := placed rfl (Nat.le_of_ble_eq_true rfl) (Nat.le_of_ble_eq_true rfl)
theorem vshr (a : VBin) : Statement (.vshr a) := placed rfl (Nat.le_of_ble_eq_true rfl) (Nat.le_of_ble_eq_true rfl)
theorem vsra (a : VBin) : Statement (.vsra a) := placed rfl (Nat.le_of_ble_eq_true rfl) (Nat.le_of_ble_eq_true rfl)
theorem vdiv (a : VBin) : Statement (.vdiv a) := placed rfl (Nat.le_of_ble_eq_true rfl) (Nat.le_of_ble_eq_true rfl)
theorem vceq (a : VTri) : Statement (.vceq a) := placed rfl (Nat.le_of_ble_eq_true rfl) (Nat.le_of_ble_eq_true rfl)
theorem vcne (a : VTri) : Statement (.vcne a) := placed rfl (Nat.le_of_ble_eq_true rfl) (Nat.le_of_ble_eq_true rfl)
theorem vclt (a : VTri) : Statement (.vclt a) := placed rfl (Nat.le_of_ble_eq_true rfl) (Nat.le_of_ble_eq_true rfl)
theorem vcle (a : VTri) : Statement (.vcle a) := placed rfl (Nat.le_of_ble_eq_true rfl) (Nat.le_of_ble_eq_true rfl)
theorem vcgt (a : VTri) : Statement (.vcgt a) := placed rfl (Nat.le_of_ble_eq_true rfl) (Nat.le_of_ble_eq_true rfl)
theorem vcge (a : VTri) : Statement (.vcge a) := placed rfl (Nat.le_of_ble_eq_true rfl) (Nat.le_of_ble_eq_true rfl)
theorem pand (a : PBin) : Statement (.pand a) := placed rfl (Nat.le_of_ble_eq_true rfl) (Nat.le_of_ble_eq_true rfl)
theorem por (a : PBin) : Statement (.por a) := placed rfl (Nat.le_of_ble_eq_true rfl) (Nat.le_of_ble_eq_true rfl)
theorem pxor (a : PBin) : Statement (.pxor a) := placed rfl (Nat.le_of_ble_eq_true rfl) (Nat.le_of_ble_eq_true rfl)
theorem pnot (a : PUn) : Statement (.pnot a) := placed rfl (Nat.le_of_ble_eq_true rfl) (Nat.le_of_ble_eq_true rfl)
theorem pset (a : PSet) : Statement (.pset a) := placed rfl (Nat.le_of_ble_eq_true rfl) (Nat.le_of_ble_eq_true rfl)
theorem pcnt (a : PCount) : Statement (.pcnt a) := placed rfl (Nat.le_of_ble_eq_true rfl) (Nat.le_of_ble_eq_true rfl)
theorem pfirst (a : PCount) : Statement (.pfirst a) := placed rfl (Nat.le_of_ble_eq_true rfl) (Nat.le_of_ble_eq_true rfl)
theorem vld (a : VMem) : Statement (.vld a) := placed rfl (Nat.le_of_ble_eq_true rfl) (Nat.le_of_ble_eq_true rfl)
theorem vst (a : VMem) : Statement (.vst a) := placed rfl (Nat.le_of_ble_eq_true rfl) (Nat.le_of_ble_eq_true rfl)
theorem vlds (a : VMem) : Statement (.vlds a) := placed rfl (Nat.le_of_ble_eq_true rfl) (Nat.le_of_ble_eq_true rfl)
theorem vsts (a : VMem) : Statement (.vsts a) := placed rfl (Nat.le_of_ble_eq_true rfl) (Nat.le_of_ble_eq_true rfl)
theorem vgath (a : VGather) : Statement (.vgath a) := placed rfl (Nat.le_of_ble_eq_true rfl) (Nat.le_of_ble_eq_true rfl)
theorem vscat (a : VGather) : Statement (.vscat a) := placed rfl (Nat.le_of_ble_eq_true rfl) (Nat.le_of_ble_eq_true rfl)
theorem vldb (a : VMem) : Statement (.vldb a) := placed rfl (Nat.le_of_ble_eq_true rfl) (Nat.le_of_ble_eq_true rfl)
theorem vrsum (a : VRed) : Statement (.vrsum a) := placed rfl (Nat.le_of_ble_eq_true rfl) (Nat.le_of_ble_eq_true rfl)
theorem vrmax (a : VRed) : Statement (.vrmax a) := placed rfl (Nat.le_of_ble_eq_true rfl) (Nat.le_of_ble_eq_true rfl)
theorem vrmin (a : VRed) : Statement (.vrmin a) := placed rfl (Nat.le_of_ble_eq_true rfl) (Nat.le_of_ble_eq_true rfl)
theorem vext (a : VExt) : Statement (.vext a) := placed rfl (Nat.le_of_ble_eq_true rfl) (Nat.le_of_ble_eq_true rfl)
theorem vbcst (a : VBcst) : Statement (.vbcst a) := placed rfl (Nat.le_of_ble_eq_true rfl) (Nat.le_of_ble_eq_true rfl)
theorem vsel (a : VBin) : Statement (.vsel a) := placed rfl (Nat.le_of_ble_eq_true rfl) (Nat.le_of_ble_eq_true rfl)
theorem vperm (a : VBin) : Statement (.vperm a) := placed rfl (Nat.le_of_ble_eq_true rfl) (Nat.le_of_ble_eq_true rfl)
theorem vslide (a : VSlide) : Statement (.vslide a) := by
  rcases a with ⟨x, _ | _, _, _⟩ <;>
    exact placed rfl (Nat.le_of_ble_eq_true rfl) (Nat.le_of_ble_eq_true rfl)
theorem vcvt (a : VUn) : Statement (.vcvt a) := placed rfl (Nat.le_of_ble_eq_true rfl) (Nat.le_of_ble_eq_true rfl)
theorem vpack (a : VUn) : Statement (.vpack a) := placed rfl (Nat.le_of_ble_eq_true rfl) (Nat.le_of_ble_eq_true rfl)
theorem vunpk (a : VUn) : Statement (.vunpk a) := placed rfl (Nat.le_of_ble_eq_true rfl) (Nat.le_of_ble_eq_true rfl)
theorem vqds (a : VUn) : Statement (.vqds a) := placed rfl (Nat.le_of_ble_eq_true rfl) (Nat.le_of_ble_eq_true rfl)
theorem vexp (a : VUn) : Statement (.vexp a) := placed rfl (Nat.le_of_ble_eq_true rfl) (Nat.le_of_ble_eq_true rfl)
theorem vrcp (a : VUn) : Statement (.vrcp a) := placed rfl (Nat.le_of_ble_eq_true rfl) (Nat.le_of_ble_eq_true rfl)
theorem vrsq (a : VUn) : Statement (.vrsq a) := placed rfl (Nat.le_of_ble_eq_true rfl) (Nat.le_of_ble_eq_true rfl)
theorem verf (a : VUn) : Statement (.verf a) := placed rfl (Nat.le_of_ble_eq_true rfl) (Nat.le_of_ble_eq_true rfl)
theorem vsett (a : VSet) : Statement (.vsett a) := placed rfl (Nat.le_of_ble_eq_true rfl) (Nat.le_of_ble_eq_true rfl)
theorem vlen (a : VLen) : Statement (.vlen a) := placed rfl (Nat.le_of_ble_eq_true rfl) (Nat.le_of_ble_eq_true rfl)
theorem viota (a : VIota) : Statement (.viota a) := placed rfl (Nat.le_of_ble_eq_true rfl) (Nat.le_of_ble_eq_true rfl)
theorem mma (a : ITri) : Statement (.mma a) := placed rfl (Nat.le_of_ble_eq_true rfl) (Nat.le_of_ble_eq_true rfl)
theorem mmaz (a : ITri) : Statement (.mmaz a) := placed rfl (Nat.le_of_ble_eq_true rfl) (Nat.le_of_ble_eq_true rfl)
theorem mmah (a : ITri) : Statement (.mmah a) := placed rfl (Nat.le_of_ble_eq_true rfl) (Nat.le_of_ble_eq_true rfl)
theorem mmazh (a : ITri) : Statement (.mmazh a) := placed rfl (Nat.le_of_ble_eq_true rfl) (Nat.le_of_ble_eq_true rfl)
theorem aacq (a : GOne) : Statement (.aacq a) := placed rfl (Nat.le_of_ble_eq_true rfl) (Nat.le_of_ble_eq_true rfl)
theorem arel : Statement (.arel) := placed rfl (Nat.le_of_ble_eq_true rfl) (Nat.le_of_ble_eq_true rfl)
theorem azero (a : AZero) : Statement (.azero a) := placed rfl (Nat.le_of_ble_eq_true rfl) (Nat.le_of_ble_eq_true rfl)
theorem aload (a : AMem) : Statement (.aload a) := placed rfl (Nat.le_of_ble_eq_true rfl) (Nat.le_of_ble_eq_true rfl)
theorem astore (a : AMem) : Statement (.astore a) := placed rfl (Nat.le_of_ble_eq_true rfl) (Nat.le_of_ble_eq_true rfl)
theorem arowv (a : IIG) : Statement (.arowv a) := placed rfl (Nat.le_of_ble_eq_true rfl) (Nat.le_of_ble_eq_true rfl)
theorem avrow (a : IIG) : Statement (.avrow a) := placed rfl (Nat.le_of_ble_eq_true rfl) (Nat.le_of_ble_eq_true rfl)
theorem ascale (a : IG) : Statement (.ascale a) := placed rfl (Nat.le_of_ble_eq_true rfl) (Nat.le_of_ble_eq_true rfl)
theorem tset (a : IGG) : Statement (.tset a) := placed rfl (Nat.le_of_ble_eq_true rfl) (Nat.le_of_ble_eq_true rfl)
theorem tget (a : IGG) : Statement (.tget a) := placed rfl (Nat.le_of_ble_eq_true rfl) (Nat.le_of_ble_eq_true rfl)
theorem tadv (a : TAdv) : Statement (.tadv a) := placed rfl (Nat.le_of_ble_eq_true rfl) (Nat.le_of_ble_eq_true rfl)
theorem tshape (a : IGG) : Statement (.tshape a) := placed rfl (Nat.le_of_ble_eq_true rfl) (Nat.le_of_ble_eq_true rfl)
theorem mwait (a : GOne) : Statement (.mwait a) := placed rfl (Nat.le_of_ble_eq_true rfl) (Nat.le_of_ble_eq_true rfl)
theorem mstat (a : GOne) : Statement (.mstat a) := placed rfl (Nat.le_of_ble_eq_true rfl) (Nat.le_of_ble_eq_true rfl)
theorem mchol (a : MChol) : Statement (.mchol a) := placed rfl (Nat.le_of_ble_eq_true rfl) (Nat.le_of_ble_eq_true rfl)
theorem mtrsl (a : II) : Statement (.mtrsl a) := placed rfl (Nat.le_of_ble_eq_true rfl) (Nat.le_of_ble_eq_true rfl)
theorem mtrsu (a : II) : Statement (.mtrsu a) := placed rfl (Nat.le_of_ble_eq_true rfl) (Nat.le_of_ble_eq_true rfl)
theorem mrfn (a : IIG) : Statement (.mrfn a) := placed rfl (Nat.le_of_ble_eq_true rfl) (Nat.le_of_ble_eq_true rfl)
theorem madd (a : MBin) : Statement (.madd a) := placed rfl (Nat.le_of_ble_eq_true rfl) (Nat.le_of_ble_eq_true rfl)
theorem msub (a : MBin) : Statement (.msub a) := placed rfl (Nat.le_of_ble_eq_true rfl) (Nat.le_of_ble_eq_true rfl)
theorem mmul (a : MBin) : Statement (.mmul a) := placed rfl (Nat.le_of_ble_eq_true rfl) (Nat.le_of_ble_eq_true rfl)
theorem mscl (a : MTri) : Statement (.mscl a) := placed rfl (Nat.le_of_ble_eq_true rfl) (Nat.le_of_ble_eq_true rfl)
theorem maff (a : MTri) : Statement (.maff a) := placed rfl (Nat.le_of_ble_eq_true rfl) (Nat.le_of_ble_eq_true rfl)
theorem mneg (a : MUn) : Statement (.mneg a) := placed rfl (Nat.le_of_ble_eq_true rfl) (Nat.le_of_ble_eq_true rfl)
theorem mrelu (a : MUn) : Statement (.mrelu a) := placed rfl (Nat.le_of_ble_eq_true rfl) (Nat.le_of_ble_eq_true rfl)
theorem mexp (a : MUn) : Statement (.mexp a) := placed rfl (Nat.le_of_ble_eq_true rfl) (Nat.le_of_ble_eq_true rfl)
theorem msig (a : MUn) : Statement (.msig a) := placed rfl (Nat.le_of_ble_eq_true rfl) (Nat.le_of_ble_eq_true rfl)
theorem msqr (a : MUn) : Statement (.msqr a) := placed rfl (Nat.le_of_ble_eq_true rfl) (Nat.le_of_ble_eq_true rfl)
theorem mmk (a : MBin) : Statement (.mmk a) := placed rfl (Nat.le_of_ble_eq_true rfl) (Nat.le_of_ble_eq_true rfl)
theorem mmean (a : MUn) : Statement (.mmean a) := placed rfl (Nat.le_of_ble_eq_true rfl) (Nat.le_of_ble_eq_true rfl)
theorem mvar (a : MUn) : Statement (.mvar a) := placed rfl (Nat.le_of_ble_eq_true rfl) (Nat.le_of_ble_eq_true rfl)
theorem mcol (a : MCol) : Statement (.mcol a) := placed rfl (Nat.le_of_ble_eq_true rfl) (Nat.le_of_ble_eq_true rfl)
theorem msum (a : MSum) : Statement (.msum a) := placed rfl (Nat.le_of_ble_eq_true rfl) (Nat.le_of_ble_eq_true rfl)
theorem mchk (a : MChk) : Statement (.mchk a) := placed rfl (Nat.le_of_ble_eq_true rfl) (Nat.le_of_ble_eq_true rfl)
theorem mmam (a : II) : Statement (.mmam a) := placed rfl (Nat.le_of_ble_eq_true rfl) (Nat.le_of_ble_eq_true rfl)
theorem mastm (a : PMem) : Statement (.mastm a) := placed rfl (Nat.le_of_ble_eq_true rfl) (Nat.le_of_ble_eq_true rfl)
theorem maldm (a : PMem) : Statement (.maldm a) := placed rfl (Nat.le_of_ble_eq_true rfl) (Nat.le_of_ble_eq_true rfl)
theorem spawn (a : Spawn) : Statement (.spawn a) := placed rfl (Nat.le_of_ble_eq_true rfl) (Nat.le_of_ble_eq_true rfl)
theorem spawna (a : Spawn2) : Statement (.spawna a) := placed rfl (Nat.le_of_ble_eq_true rfl) (Nat.le_of_ble_eq_true rfl)
theorem spawnf (a : Spawn2) : Statement (.spawnf a) := placed rfl (Nat.le_of_ble_eq_true rfl) (Nat.le_of_ble_eq_true rfl)
theorem sync : Statement (.sync) := placed rfl (Nat.le_of_ble_eq_true rfl) (Nat.le_of_ble_eq_true rfl)
theorem syncq (a : GOne) : Statement (.syncq a) := placed rfl (Nat.le_of_ble_eq_true rfl) (Nat.le_of_ble_eq_true rfl)
theorem syncc (a : GOne) : Statement (.syncc a) := placed rfl (Nat.le_of_ble_eq_true rfl) (Nat.le_of_ble_eq_true rfl)
theorem falloc (a : GUn) : Statement (.falloc a) := placed rfl (Nat.le_of_ble_eq_true rfl) (Nat.le_of_ble_eq_true rfl)
theorem ffree (a : GOne) : Statement (.ffree a) := placed rfl (Nat.le_of_ble_eq_true rfl) (Nat.le_of_ble_eq_true rfl)
theorem jinit (a : PMem) : Statement (.jinit a) := placed rfl (Nat.le_of_ble_eq_true rfl) (Nat.le_of_ble_eq_true rfl)
theorem jadd (a : GMem) : Statement (.jadd a) := placed rfl (Nat.le_of_ble_eq_true rfl) (Nat.le_of_ble_eq_true rfl)
theorem pub (a : GUn) : Statement (.pub a) := placed rfl (Nat.le_of_ble_eq_true rfl) (Nat.le_of_ble_eq_true rfl)
theorem tname (a : IG) : Statement (.tname a) := placed rfl (Nat.le_of_ble_eq_true rfl) (Nat.le_of_ble_eq_true rfl)
theorem tdrop (a : GOne) : Statement (.tdrop a) := placed rfl (Nat.le_of_ble_eq_true rfl) (Nat.le_of_ble_eq_true rfl)
theorem tend : Statement (.tend) := placed rfl (Nat.le_of_ble_eq_true rfl) (Nat.le_of_ble_eq_true rfl)
theorem tabort (a : GOne) : Statement (.tabort a) := placed rfl (Nat.le_of_ble_eq_true rfl) (Nat.le_of_ble_eq_true rfl)
theorem rlaunch (a : GBin) : Statement (.rlaunch a) := placed rfl (Nat.le_of_ble_eq_true rfl) (Nat.le_of_ble_eq_true rfl)
theorem rwait (a : GOne) : Statement (.rwait a) := placed rfl (Nat.le_of_ble_eq_true rfl) (Nat.le_of_ble_eq_true rfl)
theorem rquery (a : GUn) : Statement (.rquery a) := placed rfl (Nat.le_of_ble_eq_true rfl) (Nat.le_of_ble_eq_true rfl)
theorem gbar (a : UOrd) : Statement (.gbar a) := placed rfl (Nat.le_of_ble_eq_true rfl) (Nat.le_of_ble_eq_true rfl)
theorem gbara (a : GOrd) : Statement (.gbara a) := placed rfl (Nat.le_of_ble_eq_true rfl) (Nat.le_of_ble_eq_true rfl)
theorem gbarw (a : GOrd) : Statement (.gbarw a) := placed rfl (Nat.le_of_ble_eq_true rfl) (Nat.le_of_ble_eq_true rfl)
theorem grank (a : GOne) : Statement (.grank a) := placed rfl (Nat.le_of_ble_eq_true rfl) (Nat.le_of_ble_eq_true rfl)
theorem gsize (a : GOne) : Statement (.gsize a) := placed rfl (Nat.le_of_ble_eq_true rfl) (Nat.le_of_ble_eq_true rfl)
theorem donate (a : GBinO) : Statement (.donate a) := placed rfl (Nat.le_of_ble_eq_true rfl) (Nat.le_of_ble_eq_true rfl)
theorem aadd (a : Atom) : Statement (.aadd a) := placed rfl (Nat.le_of_ble_eq_true rfl) (Nat.le_of_ble_eq_true rfl)
theorem aand (a : Atom) : Statement (.aand a) := placed rfl (Nat.le_of_ble_eq_true rfl) (Nat.le_of_ble_eq_true rfl)
theorem aor (a : Atom) : Statement (.aor a) := placed rfl (Nat.le_of_ble_eq_true rfl) (Nat.le_of_ble_eq_true rfl)
theorem axor (a : Atom) : Statement (.axor a) := placed rfl (Nat.le_of_ble_eq_true rfl) (Nat.le_of_ble_eq_true rfl)
theorem amin (a : Atom) : Statement (.amin a) := placed rfl (Nat.le_of_ble_eq_true rfl) (Nat.le_of_ble_eq_true rfl)
theorem amax (a : Atom) : Statement (.amax a) := placed rfl (Nat.le_of_ble_eq_true rfl) (Nat.le_of_ble_eq_true rfl)
theorem aswp (a : Atom) : Statement (.aswp a) := placed rfl (Nat.le_of_ble_eq_true rfl) (Nat.le_of_ble_eq_true rfl)
theorem acas (a : Atom) : Statement (.acas a) := placed rfl (Nat.le_of_ble_eq_true rfl) (Nat.le_of_ble_eq_true rfl)
theorem acas2 (a : Atom) : Statement (.acas2 a) := placed rfl (Nat.le_of_ble_eq_true rfl) (Nat.le_of_ble_eq_true rfl)
theorem abinc (a : Atom) : Statement (.abinc a) := placed rfl (Nat.le_of_ble_eq_true rfl) (Nat.le_of_ble_eq_true rfl)
theorem abdec (a : Atom) : Statement (.abdec a) := placed rfl (Nat.le_of_ble_eq_true rfl) (Nat.le_of_ble_eq_true rfl)
theorem afadd (a : Atom) : Statement (.afadd a) := placed rfl (Nat.le_of_ble_eq_true rfl) (Nat.le_of_ble_eq_true rfl)
theorem amadd (a : Atom) : Statement (.amadd a) := placed rfl (Nat.le_of_ble_eq_true rfl) (Nat.le_of_ble_eq_true rfl)
theorem fence (a : UOrd) : Statement (.fence a) := placed rfl (Nat.le_of_ble_eq_true rfl) (Nat.le_of_ble_eq_true rfl)
theorem fencee (a : UOrd) : Statement (.fencee a) := placed rfl (Nat.le_of_ble_eq_true rfl) (Nat.le_of_ble_eq_true rfl)
theorem flush (a : YMem) : Statement (.flush a) := placed rfl (Nat.le_of_ble_eq_true rfl) (Nat.le_of_ble_eq_true rfl)
theorem inval (a : YMem) : Statement (.inval a) := placed rfl (Nat.le_of_ble_eq_true rfl) (Nat.le_of_ble_eq_true rfl)
theorem pref (a : YMem) : Statement (.pref a) := placed rfl (Nat.le_of_ble_eq_true rfl) (Nat.le_of_ble_eq_true rfl)
theorem tbmc : Statement (.tbmc) := placed rfl (Nat.le_of_ble_eq_true rfl) (Nat.le_of_ble_eq_true rfl)
theorem binit (a : GMem) : Statement (.binit a) := placed rfl (Nat.le_of_ble_eq_true rfl) (Nat.le_of_ble_eq_true rfl)
theorem barr (a : GMem) : Statement (.barr a) := placed rfl (Nat.le_of_ble_eq_true rfl) (Nat.le_of_ble_eq_true rfl)
theorem bwait (a : GMem) : Statement (.bwait a) := placed rfl (Nat.le_of_ble_eq_true rfl) (Nat.le_of_ble_eq_true rfl)
theorem bexp (a : GMem) : Statement (.bexp a) := placed rfl (Nat.le_of_ble_eq_true rfl) (Nat.le_of_ble_eq_true rfl)
theorem btest (a : GMem) : Statement (.btest a) := placed rfl (Nat.le_of_ble_eq_true rfl) (Nat.le_of_ble_eq_true rfl)
theorem copy (a : GMem) : Statement (.copy a) := placed rfl (Nat.le_of_ble_eq_true rfl) (Nat.le_of_ble_eq_true rfl)
theorem ctset (a : GMem) : Statement (.ctset a) := placed rfl (Nat.le_of_ble_eq_true rfl) (Nat.le_of_ble_eq_true rfl)
theorem cwm (a : GMem) : Statement (.cwm a) := placed rfl (Nat.le_of_ble_eq_true rfl) (Nat.le_of_ble_eq_true rfl)
theorem cwait (a : GMem) : Statement (.cwait a) := placed rfl (Nat.le_of_ble_eq_true rfl) (Nat.le_of_ble_eq_true rfl)
theorem tfpin (a : IOne) : Statement (.tfpin a) := placed rfl (Nat.le_of_ble_eq_true rfl) (Nat.le_of_ble_eq_true rfl)
theorem tfrel (a : IOne) : Statement (.tfrel a) := placed rfl (Nat.le_of_ble_eq_true rfl) (Nat.le_of_ble_eq_true rfl)
theorem eret : Statement (.eret) := placed rfl (Nat.le_of_ble_eq_true rfl) (Nat.le_of_ble_eq_true rfl)
theorem halt : Statement (.halt) := placed rfl (Nat.le_of_ble_eq_true rfl) (Nat.le_of_ble_eq_true rfl)
theorem repart (a : GOne) : Statement (.repart a) := placed rfl (Nat.le_of_ble_eq_true rfl) (Nat.le_of_ble_eq_true rfl)
theorem ctxsave (a : GUn) : Statement (.ctxsave a) := placed rfl (Nat.le_of_ble_eq_true rfl) (Nat.le_of_ble_eq_true rfl)
theorem ctxload (a : GOne) : Statement (.ctxload a) := placed rfl (Nat.le_of_ble_eq_true rfl) (Nat.le_of_ble_eq_true rfl)
theorem purge (a : GUn) : Statement (.purge a) := placed rfl (Nat.le_of_ble_eq_true rfl) (Nat.le_of_ble_eq_true rfl)
theorem tlbinv (a : GUn) : Statement (.tlbinv a) := placed rfl (Nat.le_of_ble_eq_true rfl) (Nat.le_of_ble_eq_true rfl)
theorem gangBarrierWake (pkg rcb : Nat) : Statement (.gangBarrierWake pkg rcb) := unplaced rfl
theorem barrierWake (object : Nat) : Statement (.barrierWake object) := unplaced rfl
theorem packageReset (pkg : Nat) : Statement (.packageReset pkg) := unplaced rfl
theorem powerOnBoot (pkg : Nat) (images : List BootImage) : Statement (.powerOnBoot pkg images) := unplaced rfl
theorem loadReply (ctx : Nat) : Statement (.loadReply ctx) := unplaced rfl
theorem storePerform (ctx : Nat) : Statement (.storePerform ctx) := unplaced rfl
theorem pageWalk (hall : Nat) : Statement (.pageWalk hall) := unplaced rfl
theorem homeRecall (hall key line : Nat) : Statement (.homeRecall hall key line) := unplaced rfl
theorem lineEviction (level : CacheLevel) (unit key line : Nat) : Statement (.lineEviction level unit key line) := unplaced rfl
theorem networkMessageDelivery (arcade : Nat) : Statement (.networkMessageDelivery arcade) := unplaced rfl
theorem matrixStart (stall : Nat) : Statement (.matrixStart stall) := unplaced rfl
theorem matrixComplete (stall : Nat) : Statement (.matrixComplete stall) := unplaced rfl
theorem bankTransferComplete (stall : Nat) : Statement (.bankTransferComplete stall) := unplaced rfl
theorem pairClearDone (stall pair : Nat) : Statement (.pairClearDone stall pair) := unplaced rfl
theorem huntRound (ctx : Nat) : Statement (.huntRound ctx) := unplaced rfl
theorem take (victim thief : Nat) : Statement (.take victim thief) := unplaced rfl
theorem stealReply (thief : Nat) : Statement (.stealReply thief) := unplaced rfl
theorem tileMoveComplete (thief : Nat) : Statement (.tileMoveComplete thief) := unplaced rfl
theorem thiefReoffer (thief : Nat) : Statement (.thiefReoffer thief) := unplaced rfl
theorem counterReoffer (arcade : Nat) : Statement (.counterReoffer arcade) := unplaced rfl
theorem jinc (counter : Nat) : Statement (.jinc counter) := unplaced rfl
theorem jdec (counter : Nat) : Statement (.jdec counter) := unplaced rfl
theorem jdead (counter : Nat) : Statement (.jdead counter) := unplaced rfl
theorem jaddn (counter : Nat) (n : Int) : Statement (.jaddn counter n) := unplaced rfl
theorem jsus (counter : Nat) : Statement (.jsus counter) := unplaced rfl
theorem jcall (counter : Nat) : Statement (.jcall counter) := unplaced rfl
theorem jcas (counter : Nat) : Statement (.jcas counter) := unplaced rfl
theorem jmark (counter : Nat) : Statement (.jmark counter) := unplaced rfl
theorem resumeContinuation (ctx : Nat) : Statement (.resumeContinuation ctx) := unplaced rfl
theorem taskDeath (ctx : Nat) : Statement (.taskDeath ctx) := unplaced rfl
theorem discard (pkg tag : Nat) : Statement (.discard pkg tag) := unplaced rfl
theorem preemptionRequest (ctx source : Nat) (deadline : Bool) : Statement (.preemptionRequest ctx source deadline) := unplaced rfl
theorem preemptDeadline (ctx : Nat) : Statement (.preemptDeadline ctx) := unplaced rfl
theorem evict (ctx : Nat) : Statement (.evict ctx) := unplaced rfl
theorem resumeEvicted (ctx : Nat) : Statement (.resumeEvicted ctx) := unplaced rfl
theorem waitlistExamine (pkg : Nat) : Statement (.waitlistExamine pkg) := unplaced rfl
theorem imageLoaded (pkg rcb : Nat) : Statement (.imageLoaded pkg rcb) := unplaced rfl
theorem rootRelease (pkg rcb : Nat) : Statement (.rootRelease pkg rcb) := unplaced rfl
theorem regionEnd (pkg rcb : Nat) : Statement (.regionEnd pkg rcb) := unplaced rfl
theorem doorbell (pkg queue wpos : Nat) : Statement (.doorbell pkg queue wpos) := unplaced rfl
theorem queueRestart (pkg queue : Nat) : Statement (.queueRestart pkg queue) := unplaced rfl
theorem distributorSelect (pkg : Nat) : Statement (.distributorSelect pkg) := unplaced rfl
theorem nopPacket (pkg queue : Nat) : Statement (.nopPacket pkg queue) := unplaced rfl
theorem launch (pkg queue : Nat) : Statement (.launch pkg queue) := unplaced rfl
theorem signal (pkg queue : Nat) : Statement (.signal pkg queue) := unplaced rfl
theorem wait (pkg queue : Nat) : Statement (.wait pkg queue) := unplaced rfl
theorem indirect (pkg queue : Nat) : Statement (.indirect pkg queue) := unplaced rfl
theorem link (pkg queue : Nat) : Statement (.link pkg queue) := unplaced rfl
theorem barrier (pkg queue : Nat) : Statement (.barrier pkg queue) := unplaced rfl
theorem badpkt (pkg queue : Nat) : Statement (.badpkt pkg queue) := unplaced rfl
theorem transferComplete (arcade channel : Nat) : Statement (.transferComplete arcade channel) := unplaced rfl
theorem followOnHandoff (arcade : Nat) : Statement (.followOnHandoff arcade) := unplaced rfl
theorem crossTrigger (stall : Nat) (stop : Bool) : Statement (.crossTrigger stall stop) := unplaced rfl
theorem inspectorHalt (arcade stalls : Nat) : Statement (.inspectorHalt arcade stalls) := unplaced rfl
theorem inspectorResume (arcade stalls : Nat) : Statement (.inspectorResume arcade stalls) := unplaced rfl
theorem inspectorStep (arcade : Nat) : Statement (.inspectorStep arcade) := unplaced rfl
theorem idataRead (arcade : Nat) : Statement (.idataRead arcade) := unplaced rfl
theorem idataWrite (arcade : Nat) (value : Word) : Statement (.idataWrite arcade value) := unplaced rfl
theorem idignReset (arcade : Nat) : Statement (.idignReset arcade) := unplaced rfl
theorem hscarveWrite (hall k : Nat) (value : Word) : Statement (.hscarveWrite hall k value) := unplaced rfl
theorem crateWrite (hall cls : Nat) (value : Word) : Statement (.crateWrite hall cls value) := unplaced rfl
theorem registerWrite (pkg offset : Nat) (value : Word) : Statement (.registerWrite pkg offset value) := unplaced rfl
theorem fragmentHop (packet : Nat) : Statement (.fragmentHop packet) := unplaced rfl
theorem fragmentArrival (packet : Nat) : Statement (.fragmentArrival packet) := unplaced rfl
theorem slotTimeout (hall slot : Nat) : Statement (.slotTimeout hall slot) := unplaced rfl
theorem messagePerform (stream : Nat) : Statement (.messagePerform stream) := unplaced rfl
theorem sack (stream : Nat) : Statement (.sack stream) := unplaced rfl
theorem sackReceive (stream base bits : Nat) : Statement (.sackReceive stream base bits) := unplaced rfl
theorem ack (stream seq : Nat) : Statement (.ack stream seq) := unplaced rfl
theorem retxTimeout (stream seq : Nat) : Statement (.retxTimeout stream seq) := unplaced rfl
theorem skip (stream seq : Nat) : Statement (.skip stream seq) := unplaced rfl
theorem laneFailure (pkg port lanes : Nat) : Statement (.laneFailure pkg port lanes) := unplaced rfl
theorem retrainDone (pkg port : Nat) : Statement (.retrainDone pkg port) := unplaced rfl
theorem keyInstall (pkg port key : Nat) : Statement (.keyInstall pkg port key) := unplaced rfl
theorem donreq (pkg : Nat) (request : DonationRequest) : Statement (.donreq pkg request) := unplaced rfl
theorem barrowTake (thief : Nat) : Statement (.barrowTake thief) := unplaced rfl
theorem remoteCounterOp (counter : Nat) (dead : Bool) : Statement (.remoteCounterOp counter dead) := unplaced rfl
theorem attest (pkg nonce : Nat) : Statement (.attest pkg nonce) := unplaced rfl
theorem keyload (pkg id wrapped : Nat) : Statement (.keyload pkg id wrapped) := unplaced rfl
theorem keyevict (pkg id : Nat) : Statement (.keyevict pkg id) := unplaced rfl
theorem slice (pkg : Nat) (descriptor : SliceDescriptor) : Statement (.slice pkg descriptor) := unplaced rfl
theorem pwrcap (pkg watts : Nat) : Statement (.pwrcap pkg watts) := unplaced rfl
theorem events (pkg : Nat) : Statement (.events pkg) := unplaced rfl
theorem slicePrepare (pkg slid : Nat) : Statement (.slicePrepare pkg slid) := unplaced rfl
theorem sliceAnswer (pkg slid sender : Nat) (ready : Bool) : Statement (.sliceAnswer pkg slid sender ready) := unplaced rfl
theorem sliceAbort (pkg slid : Nat) : Statement (.sliceAbort pkg slid) := unplaced rfl
theorem sliceTstart (pkg slid : Nat) : Statement (.sliceTstart pkg slid) := unplaced rfl
theorem sliceGraceExpiry (pkg slid : Nat) : Statement (.sliceGraceExpiry pkg slid) := unplaced rfl
theorem sliceReport (pkg slid sender : Nat) (evicted : Bool) : Statement (.sliceReport pkg slid sender evicted) := unplaced rfl
theorem sliceStart (pkg slid : Nat) : Statement (.sliceStart pkg slid) := unplaced rfl
theorem sliceAbandon (pkg slid : Nat) : Statement (.sliceAbandon pkg slid) := unplaced rfl
theorem sliceNoAnswer (pkg slid sender : Nat) : Statement (.sliceNoAnswer pkg slid sender) := unplaced rfl
theorem hostSnoop (pkg line : Nat) : Statement (.hostSnoop pkg line) := unplaced rfl
theorem carterBeat (arcade : Nat) : Statement (.carterBeat arcade) := unplaced rfl
theorem hscarveDone (hall k : Nat) : Statement (.hscarveDone hall k) := unplaced rfl
theorem timeSync (pkg : Nat) (delta : Int) : Statement (.timeSync pkg delta) := unplaced rfl
theorem hdmAccess (pkg offset : Nat) (op : HdmOp) : Statement (.hdmAccess pkg offset op) := unplaced rfl

end Sys2Proof.Laws.OpcodePlace
end

