-- ==== Sys2Proof/Laws/Store.lean ====
section
/-! SUPPORT. Laws of the sparse tables: read after write, and the canonical form that memory operations keep. -/

namespace Sys2Proof

variable {α : Type}

@[simp] theorem Store.get_nil (d : α) (n : Nat) : Store.get d [] n = d := rfl

theorem Store.get_put (d : α) (m : List (Nat × α)) (n k : Nat) (v : α) :
    Store.get d (Store.put m n v) k = if k = n then v else Store.get d m k := by
  induction m with
  | nil => simp [Store.put, Store.get]
  | cons e r ih =>
    obtain ⟨j, w⟩ := e
    simp only [Store.put]
    split
    · simp [Store.get]
    · split
      · rename_i h; subst h; simp only [Store.get]; split <;> rfl
      · simp only [Store.get, ih]; split
        · rename_i h; subst h; split
          · omega
          · rfl
        · rfl

theorem Store.get_del (d : α) (m : List (Nat × α)) (n k : Nat) :
    Store.get d (Store.del m n) k = if k = n then d else Store.get d m k := by
  induction m with
  | nil => simp [Store.del, Store.get]
  | cons e r ih =>
    obtain ⟨j, w⟩ := e
    simp only [Store.del]
    split
    · rename_i h; subst h; rw [ih]; simp only [Store.get]; split <;> rfl
    · simp only [Store.get, ih]; split
      · rename_i h; subst h; split
        · omega
        · rfl
      · rfl

theorem Store.get_set [DecidableEq α] (d : α) (m : List (Nat × α)) (n k : Nat) (v : α) :
    Store.get d (Store.set d m n v) k = if k = n then v else Store.get d m k := by
  unfold Store.set
  split
  · rename_i h; rw [Store.get_del, h]
  · rw [Store.get_put]

@[simp] theorem Store.get_put_same (d : α) (m : List (Nat × α)) (n : Nat) (v : α) : Store.get d (Store.put m n v) n = v := by
  rw [Store.get_put, if_pos rfl]
theorem Store.get_put_ne (d : α) (m : List (Nat × α)) {n k : Nat} (v : α) (h : k ≠ n) :
    Store.get d (Store.put m n v) k = Store.get d m k := by rw [Store.get_put, if_neg h]

/-! The canonical form. -/

/-- The keys of a table, each above `lo`, rise. -/
theorem Store.rising_some {lo : Nat} {m : List (Nat × α)} (h : Store.rising (some lo) m = true) : Store.rising none m = true := by
  cases m with
  | nil => rfl
  | cons e r => simp only [Store.rising, Bool.and_eq_true] at h ⊢; exact h.2

theorem Store.rising_put {lo : Option Nat} {m : List (Nat × α)} {n : Nat} {v : α} (hl : ∀ x, lo = some x → x < n)
    (h : Store.rising lo m = true) : Store.rising lo (Store.put m n v) = true := by
  induction m generalizing lo with
  | nil => cases lo <;> simp_all [Store.put, Store.rising]
  | cons e r ih =>
    obtain ⟨j, w⟩ := e
    simp only [Store.put]
    have hr : Store.rising (some j) r = true := by cases lo <;> simp_all [Store.rising]
    split
    · cases lo <;> simp_all [Store.rising]
    · split
      · cases lo <;> simp_all [Store.rising]
      · have := ih (lo := some j) (by intro x hx; cases hx; omega) hr
        cases lo <;> simp_all [Store.rising]

theorem Store.rising_weaken {a b : Nat} {m : List (Nat × α)} (hab : a ≤ b) (h : Store.rising (some b) m = true) :
    Store.rising (some a) m = true := by
  cases m with
  | nil => rfl
  | cons e r => simp only [Store.rising, Bool.and_eq_true, decide_eq_true_eq] at h ⊢; exact ⟨by omega, h.2⟩

theorem Store.rising_filter (p : Nat × α → Bool) {lo : Option Nat} {m : List (Nat × α)} (h : Store.rising lo m = true) :
    Store.rising lo (m.filter p) = true := by
  induction m generalizing lo with
  | nil => cases lo <;> rfl
  | cons e r ih =>
    obtain ⟨j, w⟩ := e
    have hr : Store.rising (some j) r = true := by cases lo <;> simp_all [Store.rising]
    simp only [List.filter]
    split
    · have := ih hr; cases lo <;> simp_all [Store.rising]
    · cases lo with
      | none => exact ih (Store.rising_some hr)
      | some x => exact ih (Store.rising_weaken (by simp [Store.rising] at h; omega) hr)

theorem Store.del_eq_filter (m : List (Nat × α)) (n : Nat) : Store.del m n = m.filter (fun e => decide (e.1 ≠ n)) := by
  induction m with
  | nil => rfl
  | cons e r ih =>
    obtain ⟨j, w⟩ := e
    simp only [Store.del, List.filter]
    split
    · rename_i h; subst h; simpa using ih
    · rename_i h; have : j ≠ n := fun hh => h hh.symm
      simp [this, ih]

theorem Store.mem_put {m : List (Nat × α)} {n : Nat} {v : α} {e : Nat × α} (h : e ∈ Store.put m n v) : e = (n, v) ∨ e ∈ m := by
  induction m with
  | nil => simp_all [Store.put]
  | cons x r ih =>
    obtain ⟨j, w⟩ := x
    simp only [Store.put] at h
    split at h
    · simpa using h
    · split at h
      · simp at h ⊢; tauto
      · simp at h ⊢; tauto

theorem Store.canonical_set [DecidableEq α] {d : α} {m : List (Nat × α)} (n : Nat) (v : α) (h : Store.canonical d m = true) :
    Store.canonical d (Store.set d m n v) = true := by
  unfold Store.canonical at *
  simp only [Bool.and_eq_true, List.all_eq_true, decide_eq_true_eq] at *
  unfold Store.set
  split
  · rw [Store.del_eq_filter]
    exact ⟨Store.rising_filter _ h.1, fun e he => h.2 e (List.mem_of_mem_filter he)⟩
  · rename_i hv
    refine ⟨Store.rising_put (by simp) h.1, fun e he => ?_⟩
    rcases Store.mem_put he with rfl | he
    · exact hv
    · exact h.2 e he

theorem Store.canonical_filter [DecidableEq α] {d : α} {m : List (Nat × α)} (p : Nat × α → Bool) (h : Store.canonical d m = true) :
    Store.canonical d (m.filter p) = true := by
  unfold Store.canonical at *
  simp only [Bool.and_eq_true, List.all_eq_true] at *
  exact ⟨Store.rising_filter _ h.1, fun e he => h.2 e (List.mem_of_mem_filter he)⟩

/-! Memory: the operations that write it keep its form. -/

namespace Machine

theorem writeMem_wf {m : List Host.Cell} (a : Nat) (bs : List Byte) (h : Memory.wf m = true) : Memory.wf (writeMem m a bs) = true := by
  induction bs generalizing m a with
  | nil => exact h
  | cons b r ih => exact ih (a + 1) (Store.canonical_set a b h)

/-- What a byte reads as after bytes are written. -/
theorem get_writeMem (m : List Host.Cell) (a : Nat) (bs : List Byte) (n : Nat) :
    Store.get blankByte (writeMem m a bs) n =
      if a ≤ n ∧ n < a + bs.length then bs.getD (n - a) 0 else Store.get blankByte m n := by
  induction bs generalizing m a with
  | nil => simp [writeMem]
  | cons b r ih =>
    simp only [writeMem, ih, Store.get_set, List.length_cons]
    by_cases h1 : n = a
    · subst h1; simp
    · by_cases h2 : a + 1 ≤ n ∧ n < a + 1 + r.length
      · have h3 : a ≤ n ∧ n < a + (r.length + 1) := by omega
        rw [if_pos h2, if_pos h3]
        have : n - a = (n - (a + 1)) + 1 := by omega
        rw [this]; simp
      · have h3 : ¬(a ≤ n ∧ n < a + (r.length + 1)) := by omega
        rw [if_neg h2, if_neg h3, if_neg h1]

theorem putBytes_wf {s : State} (a : Nat) (bs : List Byte) (h : Memory.wf s.mem = true) : Memory.wf (putBytes s a bs).mem = true :=
  writeMem_wf a bs h

theorem claimUnit_wf {s : State} (key u : Nat) (h : Memory.wf s.mem = true) : Memory.wf (claimUnit s key u).mem = true := by
  unfold claimUnit
  generalize (List.range 128).map (fun i => storedByte s key (u * 128 + i)) = bs
  split
  · exact h
  · exact putBytes_wf _ bs h

theorem writeStored_wf {s : State} (key a : Nat) (bs : List Byte) (h : Memory.wf s.mem = true) :
    Memory.wf (writeStored s key a bs).mem = true := by
  unfold writeStored
  split
  · exact putBytes_wf _ _ (claimUnit_wf _ _ h)
  · exact putBytes_wf _ _ h

theorem writeHome_wf {s : State} (key a : Nat) (bs : List Byte) (h : Memory.wf s.mem = true) :
    Memory.wf (writeHome s key a bs).mem = true := by
  unfold writeHome
  split
  · exact h
  · exact writeStored_wf _ _ _ h

theorem reset_memory_wf : Memory.wf State.reset.mem = true := rfl

end Machine

end Sys2Proof
end

