-- ==== Sys2Proof/Laws/State.lean ====
section
/-! SUPPORT. Laws of the state's records: one lemma for each field and each named update, and what a record reads after an update. -/

namespace Sys2Proof.Machine

/-! `setCtx` changes only `ctxs`. -/
@[simp] theorem State.setCtx_mem (s : State) (c : Nat) (v : Ctx) : (s.setCtx c v).mem = s.mem := rfl
@[simp] theorem State.setCtx_gfile (s : State) (c : Nat) (v : Ctx) : (s.setCtx c v).gfile = s.gfile := rfl
@[simp] theorem State.setCtx_vfile (s : State) (c : Nat) (v : Ctx) : (s.setCtx c v).vfile = s.vfile := rfl
@[simp] theorem State.setCtx_stalls (s : State) (c : Nat) (v : Ctx) : (s.setCtx c v).stalls = s.stalls := rfl
@[simp] theorem State.setCtx_arcades (s : State) (c : Nat) (v : Ctx) : (s.setCtx c v).arcades = s.arcades := rfl
@[simp] theorem State.setCtx_halls (s : State) (c : Nat) (v : Ctx) : (s.setCtx c v).halls = s.halls := rfl
@[simp] theorem State.setCtx_pkgs (s : State) (c : Nat) (v : Ctx) : (s.setCtx c v).pkgs = s.pkgs := rfl
@[simp] theorem State.setCtx_l1 (s : State) (c : Nat) (v : Ctx) : (s.setCtx c v).l1 = s.l1 := rfl
@[simp] theorem State.setCtx_l2 (s : State) (c : Nat) (v : Ctx) : (s.setCtx c v).l2 = s.l2 := rfl
@[simp] theorem State.setCtx_unitKey (s : State) (c : Nat) (v : Ctx) : (s.setCtx c v).unitKey = s.unitKey := rfl
@[simp] theorem State.setCtx_poison (s : State) (c : Nat) (v : Ctx) : (s.setCtx c v).poison = s.poison := rfl
@[simp] theorem State.setCtx_streams (s : State) (c : Nat) (v : Ctx) : (s.setCtx c v).streams = s.streams := rfl
@[simp] theorem State.setCtx_packets (s : State) (c : Nat) (v : Ctx) : (s.setCtx c v).packets = s.packets := rfl
@[simp] theorem State.setCtx_visits (s : State) (c : Nat) (v : Ctx) : (s.setCtx c v).visits = s.visits := rfl
@[simp] theorem State.setCtx_sched (s : State) (c : Nat) (v : Ctx) : (s.setCtx c v).sched = s.sched := rfl
@[simp] theorem State.setCtx_due (s : State) (c : Nat) (v : Ctx) : (s.setCtx c v).due = s.due := rfl
@[simp] theorem State.setCtx_cur (s : State) (c : Nat) (v : Ctx) : (s.setCtx c v).cur = s.cur := rfl
@[simp] theorem State.setCtx_tick (s : State) (c : Nat) (v : Ctx) : (s.setCtx c v).tick = s.tick := rfl

/-! `updCtx` changes only `ctxs`. -/
@[simp] theorem State.updCtx_mem (s : State) (c : Nat) (f : Ctx → Ctx) : (s.updCtx c f).mem = s.mem := rfl
@[simp] theorem State.updCtx_gfile (s : State) (c : Nat) (f : Ctx → Ctx) : (s.updCtx c f).gfile = s.gfile := rfl
@[simp] theorem State.updCtx_vfile (s : State) (c : Nat) (f : Ctx → Ctx) : (s.updCtx c f).vfile = s.vfile := rfl
@[simp] theorem State.updCtx_stalls (s : State) (c : Nat) (f : Ctx → Ctx) : (s.updCtx c f).stalls = s.stalls := rfl
@[simp] theorem State.updCtx_arcades (s : State) (c : Nat) (f : Ctx → Ctx) : (s.updCtx c f).arcades = s.arcades := rfl
@[simp] theorem State.updCtx_halls (s : State) (c : Nat) (f : Ctx → Ctx) : (s.updCtx c f).halls = s.halls := rfl
@[simp] theorem State.updCtx_pkgs (s : State) (c : Nat) (f : Ctx → Ctx) : (s.updCtx c f).pkgs = s.pkgs := rfl
@[simp] theorem State.updCtx_l1 (s : State) (c : Nat) (f : Ctx → Ctx) : (s.updCtx c f).l1 = s.l1 := rfl
@[simp] theorem State.updCtx_l2 (s : State) (c : Nat) (f : Ctx → Ctx) : (s.updCtx c f).l2 = s.l2 := rfl
@[simp] theorem State.updCtx_unitKey (s : State) (c : Nat) (f : Ctx → Ctx) : (s.updCtx c f).unitKey = s.unitKey := rfl
@[simp] theorem State.updCtx_poison (s : State) (c : Nat) (f : Ctx → Ctx) : (s.updCtx c f).poison = s.poison := rfl
@[simp] theorem State.updCtx_streams (s : State) (c : Nat) (f : Ctx → Ctx) : (s.updCtx c f).streams = s.streams := rfl
@[simp] theorem State.updCtx_packets (s : State) (c : Nat) (f : Ctx → Ctx) : (s.updCtx c f).packets = s.packets := rfl
@[simp] theorem State.updCtx_visits (s : State) (c : Nat) (f : Ctx → Ctx) : (s.updCtx c f).visits = s.visits := rfl
@[simp] theorem State.updCtx_sched (s : State) (c : Nat) (f : Ctx → Ctx) : (s.updCtx c f).sched = s.sched := rfl
@[simp] theorem State.updCtx_due (s : State) (c : Nat) (f : Ctx → Ctx) : (s.updCtx c f).due = s.due := rfl
@[simp] theorem State.updCtx_cur (s : State) (c : Nat) (f : Ctx → Ctx) : (s.updCtx c f).cur = s.cur := rfl
@[simp] theorem State.updCtx_tick (s : State) (c : Nat) (f : Ctx → Ctx) : (s.updCtx c f).tick = s.tick := rfl

/-! `upd` changes only `ctxs`. -/
@[simp] theorem State.upd_mem (s : State) (f : Ctx → Ctx) : (s.upd f).mem = s.mem := rfl
@[simp] theorem State.upd_gfile (s : State) (f : Ctx → Ctx) : (s.upd f).gfile = s.gfile := rfl
@[simp] theorem State.upd_vfile (s : State) (f : Ctx → Ctx) : (s.upd f).vfile = s.vfile := rfl
@[simp] theorem State.upd_stalls (s : State) (f : Ctx → Ctx) : (s.upd f).stalls = s.stalls := rfl
@[simp] theorem State.upd_arcades (s : State) (f : Ctx → Ctx) : (s.upd f).arcades = s.arcades := rfl
@[simp] theorem State.upd_halls (s : State) (f : Ctx → Ctx) : (s.upd f).halls = s.halls := rfl
@[simp] theorem State.upd_pkgs (s : State) (f : Ctx → Ctx) : (s.upd f).pkgs = s.pkgs := rfl
@[simp] theorem State.upd_l1 (s : State) (f : Ctx → Ctx) : (s.upd f).l1 = s.l1 := rfl
@[simp] theorem State.upd_l2 (s : State) (f : Ctx → Ctx) : (s.upd f).l2 = s.l2 := rfl
@[simp] theorem State.upd_unitKey (s : State) (f : Ctx → Ctx) : (s.upd f).unitKey = s.unitKey := rfl
@[simp] theorem State.upd_poison (s : State) (f : Ctx → Ctx) : (s.upd f).poison = s.poison := rfl
@[simp] theorem State.upd_streams (s : State) (f : Ctx → Ctx) : (s.upd f).streams = s.streams := rfl
@[simp] theorem State.upd_packets (s : State) (f : Ctx → Ctx) : (s.upd f).packets = s.packets := rfl
@[simp] theorem State.upd_visits (s : State) (f : Ctx → Ctx) : (s.upd f).visits = s.visits := rfl
@[simp] theorem State.upd_sched (s : State) (f : Ctx → Ctx) : (s.upd f).sched = s.sched := rfl
@[simp] theorem State.upd_due (s : State) (f : Ctx → Ctx) : (s.upd f).due = s.due := rfl
@[simp] theorem State.upd_cur (s : State) (f : Ctx → Ctx) : (s.upd f).cur = s.cur := rfl
@[simp] theorem State.upd_tick (s : State) (f : Ctx → Ctx) : (s.upd f).tick = s.tick := rfl

/-! `setStall` changes only `stalls`. -/
@[simp] theorem State.setStall_mem (s : State) (k : Nat) (v : Stall) : (s.setStall k v).mem = s.mem := rfl
@[simp] theorem State.setStall_gfile (s : State) (k : Nat) (v : Stall) : (s.setStall k v).gfile = s.gfile := rfl
@[simp] theorem State.setStall_vfile (s : State) (k : Nat) (v : Stall) : (s.setStall k v).vfile = s.vfile := rfl
@[simp] theorem State.setStall_ctxs (s : State) (k : Nat) (v : Stall) : (s.setStall k v).ctxs = s.ctxs := rfl
@[simp] theorem State.setStall_arcades (s : State) (k : Nat) (v : Stall) : (s.setStall k v).arcades = s.arcades := rfl
@[simp] theorem State.setStall_halls (s : State) (k : Nat) (v : Stall) : (s.setStall k v).halls = s.halls := rfl
@[simp] theorem State.setStall_pkgs (s : State) (k : Nat) (v : Stall) : (s.setStall k v).pkgs = s.pkgs := rfl
@[simp] theorem State.setStall_l1 (s : State) (k : Nat) (v : Stall) : (s.setStall k v).l1 = s.l1 := rfl
@[simp] theorem State.setStall_l2 (s : State) (k : Nat) (v : Stall) : (s.setStall k v).l2 = s.l2 := rfl
@[simp] theorem State.setStall_unitKey (s : State) (k : Nat) (v : Stall) : (s.setStall k v).unitKey = s.unitKey := rfl
@[simp] theorem State.setStall_poison (s : State) (k : Nat) (v : Stall) : (s.setStall k v).poison = s.poison := rfl
@[simp] theorem State.setStall_streams (s : State) (k : Nat) (v : Stall) : (s.setStall k v).streams = s.streams := rfl
@[simp] theorem State.setStall_packets (s : State) (k : Nat) (v : Stall) : (s.setStall k v).packets = s.packets := rfl
@[simp] theorem State.setStall_visits (s : State) (k : Nat) (v : Stall) : (s.setStall k v).visits = s.visits := rfl
@[simp] theorem State.setStall_sched (s : State) (k : Nat) (v : Stall) : (s.setStall k v).sched = s.sched := rfl
@[simp] theorem State.setStall_due (s : State) (k : Nat) (v : Stall) : (s.setStall k v).due = s.due := rfl
@[simp] theorem State.setStall_cur (s : State) (k : Nat) (v : Stall) : (s.setStall k v).cur = s.cur := rfl
@[simp] theorem State.setStall_tick (s : State) (k : Nat) (v : Stall) : (s.setStall k v).tick = s.tick := rfl

/-! `updStall` changes only `stalls`. -/
@[simp] theorem State.updStall_mem (s : State) (k : Nat) (f : Stall → Stall) : (s.updStall k f).mem = s.mem := rfl
@[simp] theorem State.updStall_gfile (s : State) (k : Nat) (f : Stall → Stall) : (s.updStall k f).gfile = s.gfile := rfl
@[simp] theorem State.updStall_vfile (s : State) (k : Nat) (f : Stall → Stall) : (s.updStall k f).vfile = s.vfile := rfl
@[simp] theorem State.updStall_ctxs (s : State) (k : Nat) (f : Stall → Stall) : (s.updStall k f).ctxs = s.ctxs := rfl
@[simp] theorem State.updStall_arcades (s : State) (k : Nat) (f : Stall → Stall) : (s.updStall k f).arcades = s.arcades := rfl
@[simp] theorem State.updStall_halls (s : State) (k : Nat) (f : Stall → Stall) : (s.updStall k f).halls = s.halls := rfl
@[simp] theorem State.updStall_pkgs (s : State) (k : Nat) (f : Stall → Stall) : (s.updStall k f).pkgs = s.pkgs := rfl
@[simp] theorem State.updStall_l1 (s : State) (k : Nat) (f : Stall → Stall) : (s.updStall k f).l1 = s.l1 := rfl
@[simp] theorem State.updStall_l2 (s : State) (k : Nat) (f : Stall → Stall) : (s.updStall k f).l2 = s.l2 := rfl
@[simp] theorem State.updStall_unitKey (s : State) (k : Nat) (f : Stall → Stall) : (s.updStall k f).unitKey = s.unitKey := rfl
@[simp] theorem State.updStall_poison (s : State) (k : Nat) (f : Stall → Stall) : (s.updStall k f).poison = s.poison := rfl
@[simp] theorem State.updStall_streams (s : State) (k : Nat) (f : Stall → Stall) : (s.updStall k f).streams = s.streams := rfl
@[simp] theorem State.updStall_packets (s : State) (k : Nat) (f : Stall → Stall) : (s.updStall k f).packets = s.packets := rfl
@[simp] theorem State.updStall_visits (s : State) (k : Nat) (f : Stall → Stall) : (s.updStall k f).visits = s.visits := rfl
@[simp] theorem State.updStall_sched (s : State) (k : Nat) (f : Stall → Stall) : (s.updStall k f).sched = s.sched := rfl
@[simp] theorem State.updStall_due (s : State) (k : Nat) (f : Stall → Stall) : (s.updStall k f).due = s.due := rfl
@[simp] theorem State.updStall_cur (s : State) (k : Nat) (f : Stall → Stall) : (s.updStall k f).cur = s.cur := rfl
@[simp] theorem State.updStall_tick (s : State) (k : Nat) (f : Stall → Stall) : (s.updStall k f).tick = s.tick := rfl

/-! `updMyStall` changes only `stalls`. -/
@[simp] theorem State.updMyStall_mem (s : State) (f : Stall → Stall) : (s.updMyStall f).mem = s.mem := rfl
@[simp] theorem State.updMyStall_gfile (s : State) (f : Stall → Stall) : (s.updMyStall f).gfile = s.gfile := rfl
@[simp] theorem State.updMyStall_vfile (s : State) (f : Stall → Stall) : (s.updMyStall f).vfile = s.vfile := rfl
@[simp] theorem State.updMyStall_ctxs (s : State) (f : Stall → Stall) : (s.updMyStall f).ctxs = s.ctxs := rfl
@[simp] theorem State.updMyStall_arcades (s : State) (f : Stall → Stall) : (s.updMyStall f).arcades = s.arcades := rfl
@[simp] theorem State.updMyStall_halls (s : State) (f : Stall → Stall) : (s.updMyStall f).halls = s.halls := rfl
@[simp] theorem State.updMyStall_pkgs (s : State) (f : Stall → Stall) : (s.updMyStall f).pkgs = s.pkgs := rfl
@[simp] theorem State.updMyStall_l1 (s : State) (f : Stall → Stall) : (s.updMyStall f).l1 = s.l1 := rfl
@[simp] theorem State.updMyStall_l2 (s : State) (f : Stall → Stall) : (s.updMyStall f).l2 = s.l2 := rfl
@[simp] theorem State.updMyStall_unitKey (s : State) (f : Stall → Stall) : (s.updMyStall f).unitKey = s.unitKey := rfl
@[simp] theorem State.updMyStall_poison (s : State) (f : Stall → Stall) : (s.updMyStall f).poison = s.poison := rfl
@[simp] theorem State.updMyStall_streams (s : State) (f : Stall → Stall) : (s.updMyStall f).streams = s.streams := rfl
@[simp] theorem State.updMyStall_packets (s : State) (f : Stall → Stall) : (s.updMyStall f).packets = s.packets := rfl
@[simp] theorem State.updMyStall_visits (s : State) (f : Stall → Stall) : (s.updMyStall f).visits = s.visits := rfl
@[simp] theorem State.updMyStall_sched (s : State) (f : Stall → Stall) : (s.updMyStall f).sched = s.sched := rfl
@[simp] theorem State.updMyStall_due (s : State) (f : Stall → Stall) : (s.updMyStall f).due = s.due := rfl
@[simp] theorem State.updMyStall_cur (s : State) (f : Stall → Stall) : (s.updMyStall f).cur = s.cur := rfl
@[simp] theorem State.updMyStall_tick (s : State) (f : Stall → Stall) : (s.updMyStall f).tick = s.tick := rfl

/-! `updArcade` changes only `arcades`. -/
@[simp] theorem State.updArcade_mem (s : State) (a : Nat) (f : Arcade → Arcade) : (s.updArcade a f).mem = s.mem := rfl
@[simp] theorem State.updArcade_gfile (s : State) (a : Nat) (f : Arcade → Arcade) : (s.updArcade a f).gfile = s.gfile := rfl
@[simp] theorem State.updArcade_vfile (s : State) (a : Nat) (f : Arcade → Arcade) : (s.updArcade a f).vfile = s.vfile := rfl
@[simp] theorem State.updArcade_ctxs (s : State) (a : Nat) (f : Arcade → Arcade) : (s.updArcade a f).ctxs = s.ctxs := rfl
@[simp] theorem State.updArcade_stalls (s : State) (a : Nat) (f : Arcade → Arcade) : (s.updArcade a f).stalls = s.stalls := rfl
@[simp] theorem State.updArcade_halls (s : State) (a : Nat) (f : Arcade → Arcade) : (s.updArcade a f).halls = s.halls := rfl
@[simp] theorem State.updArcade_pkgs (s : State) (a : Nat) (f : Arcade → Arcade) : (s.updArcade a f).pkgs = s.pkgs := rfl
@[simp] theorem State.updArcade_l1 (s : State) (a : Nat) (f : Arcade → Arcade) : (s.updArcade a f).l1 = s.l1 := rfl
@[simp] theorem State.updArcade_l2 (s : State) (a : Nat) (f : Arcade → Arcade) : (s.updArcade a f).l2 = s.l2 := rfl
@[simp] theorem State.updArcade_unitKey (s : State) (a : Nat) (f : Arcade → Arcade) : (s.updArcade a f).unitKey = s.unitKey := rfl
@[simp] theorem State.updArcade_poison (s : State) (a : Nat) (f : Arcade → Arcade) : (s.updArcade a f).poison = s.poison := rfl
@[simp] theorem State.updArcade_streams (s : State) (a : Nat) (f : Arcade → Arcade) : (s.updArcade a f).streams = s.streams := rfl
@[simp] theorem State.updArcade_packets (s : State) (a : Nat) (f : Arcade → Arcade) : (s.updArcade a f).packets = s.packets := rfl
@[simp] theorem State.updArcade_visits (s : State) (a : Nat) (f : Arcade → Arcade) : (s.updArcade a f).visits = s.visits := rfl
@[simp] theorem State.updArcade_sched (s : State) (a : Nat) (f : Arcade → Arcade) : (s.updArcade a f).sched = s.sched := rfl
@[simp] theorem State.updArcade_due (s : State) (a : Nat) (f : Arcade → Arcade) : (s.updArcade a f).due = s.due := rfl
@[simp] theorem State.updArcade_cur (s : State) (a : Nat) (f : Arcade → Arcade) : (s.updArcade a f).cur = s.cur := rfl
@[simp] theorem State.updArcade_tick (s : State) (a : Nat) (f : Arcade → Arcade) : (s.updArcade a f).tick = s.tick := rfl

/-! `updHall` changes only `halls`. -/
@[simp] theorem State.updHall_mem (s : State) (h : Nat) (f : Hall → Hall) : (s.updHall h f).mem = s.mem := rfl
@[simp] theorem State.updHall_gfile (s : State) (h : Nat) (f : Hall → Hall) : (s.updHall h f).gfile = s.gfile := rfl
@[simp] theorem State.updHall_vfile (s : State) (h : Nat) (f : Hall → Hall) : (s.updHall h f).vfile = s.vfile := rfl
@[simp] theorem State.updHall_ctxs (s : State) (h : Nat) (f : Hall → Hall) : (s.updHall h f).ctxs = s.ctxs := rfl
@[simp] theorem State.updHall_stalls (s : State) (h : Nat) (f : Hall → Hall) : (s.updHall h f).stalls = s.stalls := rfl
@[simp] theorem State.updHall_arcades (s : State) (h : Nat) (f : Hall → Hall) : (s.updHall h f).arcades = s.arcades := rfl
@[simp] theorem State.updHall_pkgs (s : State) (h : Nat) (f : Hall → Hall) : (s.updHall h f).pkgs = s.pkgs := rfl
@[simp] theorem State.updHall_l1 (s : State) (h : Nat) (f : Hall → Hall) : (s.updHall h f).l1 = s.l1 := rfl
@[simp] theorem State.updHall_l2 (s : State) (h : Nat) (f : Hall → Hall) : (s.updHall h f).l2 = s.l2 := rfl
@[simp] theorem State.updHall_unitKey (s : State) (h : Nat) (f : Hall → Hall) : (s.updHall h f).unitKey = s.unitKey := rfl
@[simp] theorem State.updHall_poison (s : State) (h : Nat) (f : Hall → Hall) : (s.updHall h f).poison = s.poison := rfl
@[simp] theorem State.updHall_streams (s : State) (h : Nat) (f : Hall → Hall) : (s.updHall h f).streams = s.streams := rfl
@[simp] theorem State.updHall_packets (s : State) (h : Nat) (f : Hall → Hall) : (s.updHall h f).packets = s.packets := rfl
@[simp] theorem State.updHall_visits (s : State) (h : Nat) (f : Hall → Hall) : (s.updHall h f).visits = s.visits := rfl
@[simp] theorem State.updHall_sched (s : State) (h : Nat) (f : Hall → Hall) : (s.updHall h f).sched = s.sched := rfl
@[simp] theorem State.updHall_due (s : State) (h : Nat) (f : Hall → Hall) : (s.updHall h f).due = s.due := rfl
@[simp] theorem State.updHall_cur (s : State) (h : Nat) (f : Hall → Hall) : (s.updHall h f).cur = s.cur := rfl
@[simp] theorem State.updHall_tick (s : State) (h : Nat) (f : Hall → Hall) : (s.updHall h f).tick = s.tick := rfl

/-! `updPkg` changes only `pkgs`. -/
@[simp] theorem State.updPkg_mem (s : State) (p : Nat) (f : Package → Package) : (s.updPkg p f).mem = s.mem := rfl
@[simp] theorem State.updPkg_gfile (s : State) (p : Nat) (f : Package → Package) : (s.updPkg p f).gfile = s.gfile := rfl
@[simp] theorem State.updPkg_vfile (s : State) (p : Nat) (f : Package → Package) : (s.updPkg p f).vfile = s.vfile := rfl
@[simp] theorem State.updPkg_ctxs (s : State) (p : Nat) (f : Package → Package) : (s.updPkg p f).ctxs = s.ctxs := rfl
@[simp] theorem State.updPkg_stalls (s : State) (p : Nat) (f : Package → Package) : (s.updPkg p f).stalls = s.stalls := rfl
@[simp] theorem State.updPkg_arcades (s : State) (p : Nat) (f : Package → Package) : (s.updPkg p f).arcades = s.arcades := rfl
@[simp] theorem State.updPkg_halls (s : State) (p : Nat) (f : Package → Package) : (s.updPkg p f).halls = s.halls := rfl
@[simp] theorem State.updPkg_l1 (s : State) (p : Nat) (f : Package → Package) : (s.updPkg p f).l1 = s.l1 := rfl
@[simp] theorem State.updPkg_l2 (s : State) (p : Nat) (f : Package → Package) : (s.updPkg p f).l2 = s.l2 := rfl
@[simp] theorem State.updPkg_unitKey (s : State) (p : Nat) (f : Package → Package) : (s.updPkg p f).unitKey = s.unitKey := rfl
@[simp] theorem State.updPkg_poison (s : State) (p : Nat) (f : Package → Package) : (s.updPkg p f).poison = s.poison := rfl
@[simp] theorem State.updPkg_streams (s : State) (p : Nat) (f : Package → Package) : (s.updPkg p f).streams = s.streams := rfl
@[simp] theorem State.updPkg_packets (s : State) (p : Nat) (f : Package → Package) : (s.updPkg p f).packets = s.packets := rfl
@[simp] theorem State.updPkg_visits (s : State) (p : Nat) (f : Package → Package) : (s.updPkg p f).visits = s.visits := rfl
@[simp] theorem State.updPkg_sched (s : State) (p : Nat) (f : Package → Package) : (s.updPkg p f).sched = s.sched := rfl
@[simp] theorem State.updPkg_due (s : State) (p : Nat) (f : Package → Package) : (s.updPkg p f).due = s.due := rfl
@[simp] theorem State.updPkg_cur (s : State) (p : Nat) (f : Package → Package) : (s.updPkg p f).cur = s.cur := rfl
@[simp] theorem State.updPkg_tick (s : State) (p : Nat) (f : Package → Package) : (s.updPkg p f).tick = s.tick := rfl

/-! `updStream` changes only `streams`. -/
@[simp] theorem State.updStream_mem (s : State) (k : Nat) (f : Stream → Stream) : (s.updStream k f).mem = s.mem := rfl
@[simp] theorem State.updStream_gfile (s : State) (k : Nat) (f : Stream → Stream) : (s.updStream k f).gfile = s.gfile := rfl
@[simp] theorem State.updStream_vfile (s : State) (k : Nat) (f : Stream → Stream) : (s.updStream k f).vfile = s.vfile := rfl
@[simp] theorem State.updStream_ctxs (s : State) (k : Nat) (f : Stream → Stream) : (s.updStream k f).ctxs = s.ctxs := rfl
@[simp] theorem State.updStream_stalls (s : State) (k : Nat) (f : Stream → Stream) : (s.updStream k f).stalls = s.stalls := rfl
@[simp] theorem State.updStream_arcades (s : State) (k : Nat) (f : Stream → Stream) : (s.updStream k f).arcades = s.arcades := rfl
@[simp] theorem State.updStream_halls (s : State) (k : Nat) (f : Stream → Stream) : (s.updStream k f).halls = s.halls := rfl
@[simp] theorem State.updStream_pkgs (s : State) (k : Nat) (f : Stream → Stream) : (s.updStream k f).pkgs = s.pkgs := rfl
@[simp] theorem State.updStream_l1 (s : State) (k : Nat) (f : Stream → Stream) : (s.updStream k f).l1 = s.l1 := rfl
@[simp] theorem State.updStream_l2 (s : State) (k : Nat) (f : Stream → Stream) : (s.updStream k f).l2 = s.l2 := rfl
@[simp] theorem State.updStream_unitKey (s : State) (k : Nat) (f : Stream → Stream) : (s.updStream k f).unitKey = s.unitKey := rfl
@[simp] theorem State.updStream_poison (s : State) (k : Nat) (f : Stream → Stream) : (s.updStream k f).poison = s.poison := rfl
@[simp] theorem State.updStream_packets (s : State) (k : Nat) (f : Stream → Stream) : (s.updStream k f).packets = s.packets := rfl
@[simp] theorem State.updStream_visits (s : State) (k : Nat) (f : Stream → Stream) : (s.updStream k f).visits = s.visits := rfl
@[simp] theorem State.updStream_sched (s : State) (k : Nat) (f : Stream → Stream) : (s.updStream k f).sched = s.sched := rfl
@[simp] theorem State.updStream_due (s : State) (k : Nat) (f : Stream → Stream) : (s.updStream k f).due = s.due := rfl
@[simp] theorem State.updStream_cur (s : State) (k : Nat) (f : Stream → Stream) : (s.updStream k f).cur = s.cur := rfl
@[simp] theorem State.updStream_tick (s : State) (k : Nat) (f : Stream → Stream) : (s.updStream k f).tick = s.tick := rfl

/-! `cause` changes only `due`. -/
@[simp] theorem State.cause_mem (s : State) (e : Event) : (s.cause e).mem = s.mem := rfl
@[simp] theorem State.cause_gfile (s : State) (e : Event) : (s.cause e).gfile = s.gfile := rfl
@[simp] theorem State.cause_vfile (s : State) (e : Event) : (s.cause e).vfile = s.vfile := rfl
@[simp] theorem State.cause_ctxs (s : State) (e : Event) : (s.cause e).ctxs = s.ctxs := rfl
@[simp] theorem State.cause_stalls (s : State) (e : Event) : (s.cause e).stalls = s.stalls := rfl
@[simp] theorem State.cause_arcades (s : State) (e : Event) : (s.cause e).arcades = s.arcades := rfl
@[simp] theorem State.cause_halls (s : State) (e : Event) : (s.cause e).halls = s.halls := rfl
@[simp] theorem State.cause_pkgs (s : State) (e : Event) : (s.cause e).pkgs = s.pkgs := rfl
@[simp] theorem State.cause_l1 (s : State) (e : Event) : (s.cause e).l1 = s.l1 := rfl
@[simp] theorem State.cause_l2 (s : State) (e : Event) : (s.cause e).l2 = s.l2 := rfl
@[simp] theorem State.cause_unitKey (s : State) (e : Event) : (s.cause e).unitKey = s.unitKey := rfl
@[simp] theorem State.cause_poison (s : State) (e : Event) : (s.cause e).poison = s.poison := rfl
@[simp] theorem State.cause_streams (s : State) (e : Event) : (s.cause e).streams = s.streams := rfl
@[simp] theorem State.cause_packets (s : State) (e : Event) : (s.cause e).packets = s.packets := rfl
@[simp] theorem State.cause_visits (s : State) (e : Event) : (s.cause e).visits = s.visits := rfl
@[simp] theorem State.cause_sched (s : State) (e : Event) : (s.cause e).sched = s.sched := rfl
@[simp] theorem State.cause_cur (s : State) (e : Event) : (s.cause e).cur = s.cur := rfl
@[simp] theorem State.cause_tick (s : State) (e : Event) : (s.cause e).tick = s.tick := rfl

/-! `next` changes only `sched`. -/
@[simp] theorem State.next_mem (s : State) (e : Event) : (s.next e).mem = s.mem := rfl
@[simp] theorem State.next_gfile (s : State) (e : Event) : (s.next e).gfile = s.gfile := rfl
@[simp] theorem State.next_vfile (s : State) (e : Event) : (s.next e).vfile = s.vfile := rfl
@[simp] theorem State.next_ctxs (s : State) (e : Event) : (s.next e).ctxs = s.ctxs := rfl
@[simp] theorem State.next_stalls (s : State) (e : Event) : (s.next e).stalls = s.stalls := rfl
@[simp] theorem State.next_arcades (s : State) (e : Event) : (s.next e).arcades = s.arcades := rfl
@[simp] theorem State.next_halls (s : State) (e : Event) : (s.next e).halls = s.halls := rfl
@[simp] theorem State.next_pkgs (s : State) (e : Event) : (s.next e).pkgs = s.pkgs := rfl
@[simp] theorem State.next_l1 (s : State) (e : Event) : (s.next e).l1 = s.l1 := rfl
@[simp] theorem State.next_l2 (s : State) (e : Event) : (s.next e).l2 = s.l2 := rfl
@[simp] theorem State.next_unitKey (s : State) (e : Event) : (s.next e).unitKey = s.unitKey := rfl
@[simp] theorem State.next_poison (s : State) (e : Event) : (s.next e).poison = s.poison := rfl
@[simp] theorem State.next_streams (s : State) (e : Event) : (s.next e).streams = s.streams := rfl
@[simp] theorem State.next_packets (s : State) (e : Event) : (s.next e).packets = s.packets := rfl
@[simp] theorem State.next_visits (s : State) (e : Event) : (s.next e).visits = s.visits := rfl
@[simp] theorem State.next_due (s : State) (e : Event) : (s.next e).due = s.due := rfl
@[simp] theorem State.next_cur (s : State) (e : Event) : (s.next e).cur = s.cur := rfl
@[simp] theorem State.next_tick (s : State) (e : Event) : (s.next e).tick = s.tick := rfl

/-! `advance` changes only `ctxs`. -/
@[simp] theorem State.advance_mem (s : State) : (s.advance).mem = s.mem := rfl
@[simp] theorem State.advance_gfile (s : State) : (s.advance).gfile = s.gfile := rfl
@[simp] theorem State.advance_vfile (s : State) : (s.advance).vfile = s.vfile := rfl
@[simp] theorem State.advance_stalls (s : State) : (s.advance).stalls = s.stalls := rfl
@[simp] theorem State.advance_arcades (s : State) : (s.advance).arcades = s.arcades := rfl
@[simp] theorem State.advance_halls (s : State) : (s.advance).halls = s.halls := rfl
@[simp] theorem State.advance_pkgs (s : State) : (s.advance).pkgs = s.pkgs := rfl
@[simp] theorem State.advance_l1 (s : State) : (s.advance).l1 = s.l1 := rfl
@[simp] theorem State.advance_l2 (s : State) : (s.advance).l2 = s.l2 := rfl
@[simp] theorem State.advance_unitKey (s : State) : (s.advance).unitKey = s.unitKey := rfl
@[simp] theorem State.advance_poison (s : State) : (s.advance).poison = s.poison := rfl
@[simp] theorem State.advance_streams (s : State) : (s.advance).streams = s.streams := rfl
@[simp] theorem State.advance_packets (s : State) : (s.advance).packets = s.packets := rfl
@[simp] theorem State.advance_visits (s : State) : (s.advance).visits = s.visits := rfl
@[simp] theorem State.advance_sched (s : State) : (s.advance).sched = s.sched := rfl
@[simp] theorem State.advance_due (s : State) : (s.advance).due = s.due := rfl
@[simp] theorem State.advance_cur (s : State) : (s.advance).cur = s.cur := rfl
@[simp] theorem State.advance_tick (s : State) : (s.advance).tick = s.tick := rfl

/-! `goto` changes only `ctxs`. -/
@[simp] theorem State.goto_mem (s : State) (t : BitVec 57) : (s.goto t).mem = s.mem := rfl
@[simp] theorem State.goto_gfile (s : State) (t : BitVec 57) : (s.goto t).gfile = s.gfile := rfl
@[simp] theorem State.goto_vfile (s : State) (t : BitVec 57) : (s.goto t).vfile = s.vfile := rfl
@[simp] theorem State.goto_stalls (s : State) (t : BitVec 57) : (s.goto t).stalls = s.stalls := rfl
@[simp] theorem State.goto_arcades (s : State) (t : BitVec 57) : (s.goto t).arcades = s.arcades := rfl
@[simp] theorem State.goto_halls (s : State) (t : BitVec 57) : (s.goto t).halls = s.halls := rfl
@[simp] theorem State.goto_pkgs (s : State) (t : BitVec 57) : (s.goto t).pkgs = s.pkgs := rfl
@[simp] theorem State.goto_l1 (s : State) (t : BitVec 57) : (s.goto t).l1 = s.l1 := rfl
@[simp] theorem State.goto_l2 (s : State) (t : BitVec 57) : (s.goto t).l2 = s.l2 := rfl
@[simp] theorem State.goto_unitKey (s : State) (t : BitVec 57) : (s.goto t).unitKey = s.unitKey := rfl
@[simp] theorem State.goto_poison (s : State) (t : BitVec 57) : (s.goto t).poison = s.poison := rfl
@[simp] theorem State.goto_streams (s : State) (t : BitVec 57) : (s.goto t).streams = s.streams := rfl
@[simp] theorem State.goto_packets (s : State) (t : BitVec 57) : (s.goto t).packets = s.packets := rfl
@[simp] theorem State.goto_visits (s : State) (t : BitVec 57) : (s.goto t).visits = s.visits := rfl
@[simp] theorem State.goto_sched (s : State) (t : BitVec 57) : (s.goto t).sched = s.sched := rfl
@[simp] theorem State.goto_due (s : State) (t : BitVec 57) : (s.goto t).due = s.due := rfl
@[simp] theorem State.goto_cur (s : State) (t : BitVec 57) : (s.goto t).cur = s.cur := rfl
@[simp] theorem State.goto_tick (s : State) (t : BitVec 57) : (s.goto t).tick = s.tick := rfl

/-! `raise` changes only `ctxs`. -/
@[simp] theorem State.raise_mem (s : State) (c : Nat) (f : BitVec 11) : (s.raise c f).mem = s.mem := rfl
@[simp] theorem State.raise_gfile (s : State) (c : Nat) (f : BitVec 11) : (s.raise c f).gfile = s.gfile := rfl
@[simp] theorem State.raise_vfile (s : State) (c : Nat) (f : BitVec 11) : (s.raise c f).vfile = s.vfile := rfl
@[simp] theorem State.raise_stalls (s : State) (c : Nat) (f : BitVec 11) : (s.raise c f).stalls = s.stalls := rfl
@[simp] theorem State.raise_arcades (s : State) (c : Nat) (f : BitVec 11) : (s.raise c f).arcades = s.arcades := rfl
@[simp] theorem State.raise_halls (s : State) (c : Nat) (f : BitVec 11) : (s.raise c f).halls = s.halls := rfl
@[simp] theorem State.raise_pkgs (s : State) (c : Nat) (f : BitVec 11) : (s.raise c f).pkgs = s.pkgs := rfl
@[simp] theorem State.raise_l1 (s : State) (c : Nat) (f : BitVec 11) : (s.raise c f).l1 = s.l1 := rfl
@[simp] theorem State.raise_l2 (s : State) (c : Nat) (f : BitVec 11) : (s.raise c f).l2 = s.l2 := rfl
@[simp] theorem State.raise_unitKey (s : State) (c : Nat) (f : BitVec 11) : (s.raise c f).unitKey = s.unitKey := rfl
@[simp] theorem State.raise_poison (s : State) (c : Nat) (f : BitVec 11) : (s.raise c f).poison = s.poison := rfl
@[simp] theorem State.raise_streams (s : State) (c : Nat) (f : BitVec 11) : (s.raise c f).streams = s.streams := rfl
@[simp] theorem State.raise_packets (s : State) (c : Nat) (f : BitVec 11) : (s.raise c f).packets = s.packets := rfl
@[simp] theorem State.raise_visits (s : State) (c : Nat) (f : BitVec 11) : (s.raise c f).visits = s.visits := rfl
@[simp] theorem State.raise_sched (s : State) (c : Nat) (f : BitVec 11) : (s.raise c f).sched = s.sched := rfl
@[simp] theorem State.raise_due (s : State) (c : Nat) (f : BitVec 11) : (s.raise c f).due = s.due := rfl
@[simp] theorem State.raise_cur (s : State) (c : Nat) (f : BitVec 11) : (s.raise c f).cur = s.cur := rfl
@[simp] theorem State.raise_tick (s : State) (c : Nat) (f : BitVec 11) : (s.raise c f).tick = s.tick := rfl

/-! `writeV` changes only `vfile`. -/
@[simp] theorem State.writeV_mem (s : State) (c i : Nat) (w : VWord) : (s.writeV c i w).mem = s.mem := rfl
@[simp] theorem State.writeV_gfile (s : State) (c i : Nat) (w : VWord) : (s.writeV c i w).gfile = s.gfile := rfl
@[simp] theorem State.writeV_ctxs (s : State) (c i : Nat) (w : VWord) : (s.writeV c i w).ctxs = s.ctxs := rfl
@[simp] theorem State.writeV_stalls (s : State) (c i : Nat) (w : VWord) : (s.writeV c i w).stalls = s.stalls := rfl
@[simp] theorem State.writeV_arcades (s : State) (c i : Nat) (w : VWord) : (s.writeV c i w).arcades = s.arcades := rfl
@[simp] theorem State.writeV_halls (s : State) (c i : Nat) (w : VWord) : (s.writeV c i w).halls = s.halls := rfl
@[simp] theorem State.writeV_pkgs (s : State) (c i : Nat) (w : VWord) : (s.writeV c i w).pkgs = s.pkgs := rfl
@[simp] theorem State.writeV_l1 (s : State) (c i : Nat) (w : VWord) : (s.writeV c i w).l1 = s.l1 := rfl
@[simp] theorem State.writeV_l2 (s : State) (c i : Nat) (w : VWord) : (s.writeV c i w).l2 = s.l2 := rfl
@[simp] theorem State.writeV_unitKey (s : State) (c i : Nat) (w : VWord) : (s.writeV c i w).unitKey = s.unitKey := rfl
@[simp] theorem State.writeV_poison (s : State) (c i : Nat) (w : VWord) : (s.writeV c i w).poison = s.poison := rfl
@[simp] theorem State.writeV_streams (s : State) (c i : Nat) (w : VWord) : (s.writeV c i w).streams = s.streams := rfl
@[simp] theorem State.writeV_packets (s : State) (c i : Nat) (w : VWord) : (s.writeV c i w).packets = s.packets := rfl
@[simp] theorem State.writeV_visits (s : State) (c i : Nat) (w : VWord) : (s.writeV c i w).visits = s.visits := rfl
@[simp] theorem State.writeV_sched (s : State) (c i : Nat) (w : VWord) : (s.writeV c i w).sched = s.sched := rfl
@[simp] theorem State.writeV_due (s : State) (c i : Nat) (w : VWord) : (s.writeV c i w).due = s.due := rfl
@[simp] theorem State.writeV_cur (s : State) (c i : Nat) (w : VWord) : (s.writeV c i w).cur = s.cur := rfl
@[simp] theorem State.writeV_tick (s : State) (c i : Nat) (w : VWord) : (s.writeV c i w).tick = s.tick := rfl

/-! What a record reads after an update. -/

theorem State.ctx_setCtx (s : State) (c d : Nat) (v : Ctx) : (s.setCtx c v).ctx d = if d = c then v else s.ctx d := by
  unfold State.ctx State.setCtx
  rw [Store.get_put]
@[simp] theorem State.ctx_setCtx_same (s : State) (c : Nat) (v : Ctx) : (s.setCtx c v).ctx c = v := by
  rw [State.ctx_setCtx, if_pos rfl]
theorem State.ctx_updCtx (s : State) (c d : Nat) (f : Ctx → Ctx) :
    (s.updCtx c f).ctx d = if d = c then f (s.ctx c) else s.ctx d := State.ctx_setCtx s c d (f (s.ctx c))
@[simp] theorem State.ctx_updCtx_same (s : State) (c : Nat) (f : Ctx → Ctx) : (s.updCtx c f).ctx c = f (s.ctx c) := by
  rw [State.ctx_updCtx, if_pos rfl]
theorem State.ctx_updCtx_ne (s : State) {c d : Nat} (f : Ctx → Ctx) (h : d ≠ c) : (s.updCtx c f).ctx d = s.ctx d := by
  rw [State.ctx_updCtx, if_neg h]
@[simp] theorem State.me_upd (s : State) (f : Ctx → Ctx) : (s.upd f).me = f s.me := State.ctx_updCtx_same s s.cur f
theorem State.ctx_upd_ne (s : State) {d : Nat} (f : Ctx → Ctx) (h : d ≠ s.cur) : (s.upd f).ctx d = s.ctx d :=
  State.ctx_updCtx_ne s f h
theorem State.stall_updStall (s : State) (k j : Nat) (f : Stall → Stall) :
    (s.updStall k f).stall j = if j = k then f (s.stall k) else s.stall j := by
  unfold State.updStall State.setStall State.stall
  rw [Store.get_put]
@[simp] theorem State.stall_updStall_same (s : State) (k : Nat) (f : Stall → Stall) : (s.updStall k f).stall k = f (s.stall k) := by
  rw [State.stall_updStall, if_pos rfl]
theorem State.arcade_updArcade (s : State) (k j : Nat) (f : Arcade → Arcade) :
    (s.updArcade k f).arcade j = if j = k then f (s.arcade k) else s.arcade j := by
  unfold State.updArcade State.arcade
  rw [Store.get_put]
@[simp] theorem State.arcade_updArcade_same (s : State) (k : Nat) (f : Arcade → Arcade) :
    (s.updArcade k f).arcade k = f (s.arcade k) := by rw [State.arcade_updArcade, if_pos rfl]
theorem State.hall_updHall (s : State) (k j : Nat) (f : Hall → Hall) :
    (s.updHall k f).hall j = if j = k then f (s.hall k) else s.hall j := by
  unfold State.updHall State.hall
  rw [Store.get_put]
@[simp] theorem State.hall_updHall_same (s : State) (k : Nat) (f : Hall → Hall) : (s.updHall k f).hall k = f (s.hall k) := by
  rw [State.hall_updHall, if_pos rfl]
theorem State.pkg_updPkg (s : State) (k j : Nat) (f : Package → Package) :
    (s.updPkg k f).pkg j = if j = k then f (s.pkg k) else s.pkg j := by
  unfold State.updPkg State.pkg
  rw [Store.get_put]
@[simp] theorem State.pkg_updPkg_same (s : State) (k : Nat) (f : Package → Package) : (s.updPkg k f).pkg k = f (s.pkg k) := by
  rw [State.pkg_updPkg, if_pos rfl]
theorem State.stream_updStream (s : State) (k j : Nat) (f : Stream → Stream) :
    (s.updStream k f).stream j = if j = k then f (s.stream k) else s.stream j := by
  unfold State.updStream State.stream
  rw [Store.get_put]
@[simp] theorem State.ctx_setStall (s : State) (k c : Nat) (v : Stall) : (s.setStall k v).ctx c = s.ctx c := rfl
@[simp] theorem State.ctx_updStall (s : State) (k c : Nat) (f : Stall → Stall) : (s.updStall k f).ctx c = s.ctx c := rfl
@[simp] theorem State.ctx_updMyStall (s : State) (c : Nat) (f : Stall → Stall) : (s.updMyStall f).ctx c = s.ctx c := rfl
@[simp] theorem State.ctx_updArcade (s : State) (k c : Nat) (f : Arcade → Arcade) : (s.updArcade k f).ctx c = s.ctx c := rfl
@[simp] theorem State.ctx_updHall (s : State) (k c : Nat) (f : Hall → Hall) : (s.updHall k f).ctx c = s.ctx c := rfl
@[simp] theorem State.ctx_updPkg (s : State) (k c : Nat) (f : Package → Package) : (s.updPkg k f).ctx c = s.ctx c := rfl
@[simp] theorem State.ctx_updStream (s : State) (k c : Nat) (f : Stream → Stream) : (s.updStream k f).ctx c = s.ctx c := rfl
@[simp] theorem State.ctx_cause (s : State) (c : Nat) (e : Event) : (s.cause e).ctx c = s.ctx c := rfl
@[simp] theorem State.ctx_next (s : State) (c : Nat) (e : Event) : (s.next e).ctx c = s.ctx c := rfl
@[simp] theorem State.ctx_with_gfile (s : State) (c : Nat) (g : List (Nat × Word)) : ({ s with gfile := g } : State).ctx c = s.ctx c := rfl
@[simp] theorem State.ctx_with_mem (s : State) (c : Nat) (m : List Host.Cell) : ({ s with mem := m } : State).ctx c = s.ctx c := rfl
@[simp] theorem State.ctx_writeV (s : State) (c i d : Nat) (w : VWord) : (s.writeV c i w).ctx d = s.ctx d := rfl

/-! The records of one context. -/

theorem Ctx.pred_setPred (v : Ctx) (i j : Nat) (w : Word128) : (v.setPred i w).pred j = if j = i then w else v.pred j :=
  Store.get_set 0 v.p i j w
theorem Ctx.tile_setTile (v : Ctx) (i j : Nat) (w : Word128) : (v.setTile i w).tile j = if j = i then w else v.tile j :=
  Store.get_set 0 v.t i j w

@[simp] theorem Ctx.advance_st (v : Ctx) : v.advance.st = v.st := rfl
@[simp] theorem Ctx.advance_back (v : Ctx) : v.advance.back = v.back := rfl
@[simp] theorem Ctx.advance_halted (v : Ctx) : v.advance.halted = v.halted := rfl
@[simp] theorem Ctx.advance_len (v : Ctx) : v.advance.len = v.len := rfl
@[simp] theorem Ctx.advance_o (v : Ctx) : v.advance.o = v.o := rfl
@[simp] theorem Ctx.advance_p (v : Ctx) : v.advance.p = v.p := rfl
@[simp] theorem Ctx.advance_t (v : Ctx) : v.advance.t = v.t := rfl
@[simp] theorem Ctx.advance_lat (v : Ctx) : v.advance.lat = v.lat := rfl
@[simp] theorem Ctx.advance_flags (v : Ctx) : v.advance.flags = v.flags := rfl
@[simp] theorem Ctx.advance_ten (v : Ctx) : v.advance.ten = v.ten := rfl
@[simp] theorem Ctx.advance_vl (v : Ctx) : v.advance.vl = v.vl := rfl
@[simp] theorem Ctx.advance_fmtw (v : Ctx) : v.advance.fmtw = v.fmtw := rfl
@[simp] theorem Ctx.advance_sclp (v : Ctx) : v.advance.sclp = v.sclp := rfl
@[simp] theorem Ctx.advance_mrho (v : Ctx) : v.advance.mrho = v.mrho := rfl
@[simp] theorem Ctx.advance_mseed (v : Ctx) : v.advance.mseed = v.mseed := rfl
@[simp] theorem Ctx.advance_ttag (v : Ctx) : v.advance.ttag = v.ttag := rfl
@[simp] theorem Ctx.advance_framep (v : Ctx) : v.advance.framep = v.framep := rfl
@[simp] theorem Ctx.advance_tbm (v : Ctx) : v.advance.tbm = v.tbm := rfl
@[simp] theorem Ctx.advance_rank (v : Ctx) : v.advance.rank = v.rank := rfl
@[simp] theorem Ctx.advance_gsz (v : Ctx) : v.advance.gsz = v.gsz := rfl
@[simp] theorem Ctx.advance_pl (v : Ctx) : v.advance.pl = v.pl := rfl
@[simp] theorem Ctx.advance_ppl (v : Ctx) : v.advance.ppl = v.ppl := rfl
@[simp] theorem Ctx.advance_intrap (v : Ctx) : v.advance.intrap = v.intrap := rfl
@[simp] theorem Ctx.advance_epc (v : Ctx) : v.advance.epc = v.epc := rfl
@[simp] theorem Ctx.advance_ecause (v : Ctx) : v.advance.ecause = v.ecause := rfl
@[simp] theorem Ctx.advance_einfo (v : Ctx) : v.advance.einfo = v.einfo := rfl
@[simp] theorem Ctx.advance_eva (v : Ctx) : v.advance.eva = v.eva := rfl
@[simp] theorem Ctx.advance_tvec (v : Ctx) : v.advance.tvec = v.tvec := rfl
@[simp] theorem Ctx.advance_gsize (v : Ctx) : v.advance.gsize = v.gsize := rfl
@[simp] theorem Ctx.advance_gbase (v : Ctx) : v.advance.gbase = v.gbase := rfl
@[simp] theorem Ctx.advance_vsize (v : Ctx) : v.advance.vsize = v.vsize := rfl
@[simp] theorem Ctx.advance_vbase (v : Ctx) : v.advance.vbase = v.vbase := rfl
@[simp] theorem Ctx.advance_rcbp (v : Ctx) : v.advance.rcbp = v.rcbp := rfl
@[simp] theorem Ctx.advance_ptbr (v : Ctx) : v.advance.ptbr = v.ptbr := rfl
@[simp] theorem Ctx.advance_liveb (v : Ctx) : v.advance.liveb = v.liveb := rfl
@[simp] theorem Ctx.advance_keyt (v : Ctx) : v.advance.keyt = v.keyt := rfl
@[simp] theorem Ctx.advance_sscratch (v : Ctx) : v.advance.sscratch = v.sscratch := rfl
@[simp] theorem Ctx.advance_frec (v : Ctx) : v.advance.frec = v.frec := rfl
@[simp] theorem Ctx.advance_pframe (v : Ctx) : v.advance.pframe = v.pframe := rfl
@[simp] theorem Ctx.advance_ownjc (v : Ctx) : v.advance.ownjc = v.ownjc := rfl
@[simp] theorem Ctx.advance_parjc (v : Ctx) : v.advance.parjc = v.parjc := rfl
@[simp] theorem Ctx.advance_ptag (v : Ctx) : v.advance.ptag = v.ptag := rfl
@[simp] theorem Ctx.advance_root (v : Ctx) : v.advance.root = v.root := rfl
@[simp] theorem Ctx.advance_nt (v : Ctx) : v.advance.nt = v.nt := rfl
@[simp] theorem Ctx.advance_storeQ (v : Ctx) : v.advance.storeQ = v.storeQ := rfl
@[simp] theorem Ctx.advance_wait (v : Ctx) : v.advance.wait = v.wait := rfl
@[simp] theorem Ctx.advance_deque (v : Ctx) : v.advance.deque = v.deque := rfl
@[simp] theorem Ctx.advance_request (v : Ctx) : v.advance.request = v.request := rfl
@[simp] theorem Ctx.advance_hunt (v : Ctx) : v.advance.hunt = v.hunt := rfl
@[simp] theorem Ctx.advance_dying (v : Ctx) : v.advance.dying = v.dying := rfl
@[simp] theorem Ctx.advance_holding (v : Ctx) : v.advance.holding = v.holding := rfl
@[simp] theorem Ctx.advance_posted (v : Ctx) : v.advance.posted = v.posted := rfl
@[simp] theorem Ctx.advance_stuck (v : Ctx) : v.advance.stuck = v.stuck := rfl
@[simp] theorem Ctx.advance_hostAddr (v : Ctx) : v.advance.hostAddr = v.hostAddr := rfl
@[simp] theorem Ctx.advance_hostRead (v : Ctx) : v.advance.hostRead = v.hostRead := rfl
@[simp] theorem Ctx.advance_covered (v : Ctx) : v.advance.covered = v.covered := rfl
@[simp] theorem Ctx.advance_lost (v : Ctx) : v.advance.lost = v.lost := rfl
@[simp] theorem Ctx.advance_lostPkg (v : Ctx) : v.advance.lostPkg = v.lostPkg := rfl
@[simp] theorem Ctx.advance_logTime (v : Ctx) : v.advance.logTime = v.logTime := rfl
@[simp] theorem Ctx.advance_strays (v : Ctx) : v.advance.strays = v.strays := rfl
@[simp] theorem Ctx.advance_also (v : Ctx) : v.advance.also = v.also := rfl
@[simp] theorem Ctx.advance_stepping (v : Ctx) : v.advance.stepping = v.stepping := rfl
@[simp] theorem Ctx.advance_waited (v : Ctx) : v.advance.waited = v.waited := rfl
@[simp] theorem Ctx.advance_saved (v : Ctx) : v.advance.saved = none := rfl
@[simp] theorem Ctx.advance_walked (v : Ctx) : v.advance.walked = [] := rfl
@[simp] theorem Ctx.advance_missed (v : Ctx) : v.advance.missed = none := rfl
@[simp] theorem Ctx.advance_pc (v : Ctx) : v.advance.pc = v.nextPc := rfl
@[simp] theorem Ctx.takeTrap_strays (v : Ctx) (t : Trap) : (v.takeTrap t).strays = v.strays := rfl
@[simp] theorem Ctx.takeTrap_also (v : Ctx) (t : Trap) : (v.takeTrap t).also = v.also := rfl
@[simp] theorem Ctx.takeTrap_stepping (v : Ctx) (t : Trap) : (v.takeTrap t).stepping = v.stepping := rfl
@[simp] theorem Ctx.takeTrap_waited (v : Ctx) (t : Trap) : (v.takeTrap t).waited = v.waited := rfl
@[simp] theorem Ctx.takeTrap_saved (v : Ctx) (t : Trap) : (v.takeTrap t).saved = none := rfl
@[simp] theorem Ctx.takeTrap_walked (v : Ctx) (t : Trap) : (v.takeTrap t).walked = [] := rfl
@[simp] theorem Ctx.takeTrap_missed (v : Ctx) (t : Trap) : (v.takeTrap t).missed = none := rfl
@[simp] theorem Ctx.takeTrap_st (v : Ctx) (t : Trap) : (v.takeTrap t).st = v.st := rfl
@[simp] theorem Ctx.takeTrap_back (v : Ctx) (t : Trap) : (v.takeTrap t).back = v.back := rfl
@[simp] theorem Ctx.takeTrap_halted (v : Ctx) (t : Trap) : (v.takeTrap t).halted = v.halted := rfl
@[simp] theorem Ctx.takeTrap_len (v : Ctx) (t : Trap) : (v.takeTrap t).len = v.len := rfl
@[simp] theorem Ctx.takeTrap_o (v : Ctx) (t : Trap) : (v.takeTrap t).o = v.o := rfl
@[simp] theorem Ctx.takeTrap_p (v : Ctx) (t : Trap) : (v.takeTrap t).p = v.p := rfl
@[simp] theorem Ctx.takeTrap_t (v : Ctx) (t : Trap) : (v.takeTrap t).t = v.t := rfl
@[simp] theorem Ctx.takeTrap_lat (v : Ctx) (t : Trap) : (v.takeTrap t).lat = v.lat := rfl
@[simp] theorem Ctx.takeTrap_flags (v : Ctx) (t : Trap) : (v.takeTrap t).flags = v.flags := rfl
@[simp] theorem Ctx.takeTrap_ten (v : Ctx) (t : Trap) : (v.takeTrap t).ten = v.ten := rfl
@[simp] theorem Ctx.takeTrap_vl (v : Ctx) (t : Trap) : (v.takeTrap t).vl = v.vl := rfl
@[simp] theorem Ctx.takeTrap_fmtw (v : Ctx) (t : Trap) : (v.takeTrap t).fmtw = v.fmtw := rfl
@[simp] theorem Ctx.takeTrap_sclp (v : Ctx) (t : Trap) : (v.takeTrap t).sclp = v.sclp := rfl
@[simp] theorem Ctx.takeTrap_mrho (v : Ctx) (t : Trap) : (v.takeTrap t).mrho = v.mrho := rfl
@[simp] theorem Ctx.takeTrap_mseed (v : Ctx) (t : Trap) : (v.takeTrap t).mseed = v.mseed := rfl
@[simp] theorem Ctx.takeTrap_ttag (v : Ctx) (t : Trap) : (v.takeTrap t).ttag = v.ttag := rfl
@[simp] theorem Ctx.takeTrap_framep (v : Ctx) (t : Trap) : (v.takeTrap t).framep = v.framep := rfl
@[simp] theorem Ctx.takeTrap_tbm (v : Ctx) (t : Trap) : (v.takeTrap t).tbm = v.tbm := rfl
@[simp] theorem Ctx.takeTrap_rank (v : Ctx) (t : Trap) : (v.takeTrap t).rank = v.rank := rfl
@[simp] theorem Ctx.takeTrap_gsz (v : Ctx) (t : Trap) : (v.takeTrap t).gsz = v.gsz := rfl
@[simp] theorem Ctx.takeTrap_tvec (v : Ctx) (t : Trap) : (v.takeTrap t).tvec = v.tvec := rfl
@[simp] theorem Ctx.takeTrap_gsize (v : Ctx) (t : Trap) : (v.takeTrap t).gsize = v.gsize := rfl
@[simp] theorem Ctx.takeTrap_gbase (v : Ctx) (t : Trap) : (v.takeTrap t).gbase = v.gbase := rfl
@[simp] theorem Ctx.takeTrap_vsize (v : Ctx) (t : Trap) : (v.takeTrap t).vsize = v.vsize := rfl
@[simp] theorem Ctx.takeTrap_vbase (v : Ctx) (t : Trap) : (v.takeTrap t).vbase = v.vbase := rfl
@[simp] theorem Ctx.takeTrap_rcbp (v : Ctx) (t : Trap) : (v.takeTrap t).rcbp = v.rcbp := rfl
@[simp] theorem Ctx.takeTrap_ptbr (v : Ctx) (t : Trap) : (v.takeTrap t).ptbr = v.ptbr := rfl
@[simp] theorem Ctx.takeTrap_liveb (v : Ctx) (t : Trap) : (v.takeTrap t).liveb = v.liveb := rfl
@[simp] theorem Ctx.takeTrap_keyt (v : Ctx) (t : Trap) : (v.takeTrap t).keyt = v.keyt := rfl
@[simp] theorem Ctx.takeTrap_sscratch (v : Ctx) (t : Trap) : (v.takeTrap t).sscratch = v.sscratch := rfl
@[simp] theorem Ctx.takeTrap_frec (v : Ctx) (t : Trap) : (v.takeTrap t).frec = v.frec := rfl
@[simp] theorem Ctx.takeTrap_pframe (v : Ctx) (t : Trap) : (v.takeTrap t).pframe = v.pframe := rfl
@[simp] theorem Ctx.takeTrap_ownjc (v : Ctx) (t : Trap) : (v.takeTrap t).ownjc = v.ownjc := rfl
@[simp] theorem Ctx.takeTrap_parjc (v : Ctx) (t : Trap) : (v.takeTrap t).parjc = v.parjc := rfl
@[simp] theorem Ctx.takeTrap_ptag (v : Ctx) (t : Trap) : (v.takeTrap t).ptag = v.ptag := rfl
@[simp] theorem Ctx.takeTrap_root (v : Ctx) (t : Trap) : (v.takeTrap t).root = v.root := rfl
@[simp] theorem Ctx.takeTrap_nt (v : Ctx) (t : Trap) : (v.takeTrap t).nt = v.nt := rfl
@[simp] theorem Ctx.takeTrap_storeQ (v : Ctx) (t : Trap) : (v.takeTrap t).storeQ = v.storeQ := rfl
@[simp] theorem Ctx.takeTrap_wait (v : Ctx) (t : Trap) : (v.takeTrap t).wait = v.wait := rfl
@[simp] theorem Ctx.takeTrap_deque (v : Ctx) (t : Trap) : (v.takeTrap t).deque = v.deque := rfl
@[simp] theorem Ctx.takeTrap_request (v : Ctx) (t : Trap) : (v.takeTrap t).request = v.request := rfl
@[simp] theorem Ctx.takeTrap_hunt (v : Ctx) (t : Trap) : (v.takeTrap t).hunt = v.hunt := rfl
@[simp] theorem Ctx.takeTrap_dying (v : Ctx) (t : Trap) : (v.takeTrap t).dying = v.dying := rfl
@[simp] theorem Ctx.takeTrap_holding (v : Ctx) (t : Trap) : (v.takeTrap t).holding = v.holding := rfl
@[simp] theorem Ctx.takeTrap_posted (v : Ctx) (t : Trap) : (v.takeTrap t).posted = v.posted := rfl
@[simp] theorem Ctx.takeTrap_stuck (v : Ctx) (t : Trap) : (v.takeTrap t).stuck = v.stuck := rfl
@[simp] theorem Ctx.takeTrap_hostAddr (v : Ctx) (t : Trap) : (v.takeTrap t).hostAddr = v.hostAddr := rfl
@[simp] theorem Ctx.takeTrap_hostRead (v : Ctx) (t : Trap) : (v.takeTrap t).hostRead = v.hostRead := rfl
@[simp] theorem Ctx.takeTrap_covered (v : Ctx) (t : Trap) : (v.takeTrap t).covered = v.covered := rfl
@[simp] theorem Ctx.takeTrap_lost (v : Ctx) (t : Trap) : (v.takeTrap t).lost = v.lost := rfl
@[simp] theorem Ctx.takeTrap_lostPkg (v : Ctx) (t : Trap) : (v.takeTrap t).lostPkg = v.lostPkg := rfl
@[simp] theorem Ctx.takeTrap_logTime (v : Ctx) (t : Trap) : (v.takeTrap t).logTime = v.logTime := rfl
@[simp] theorem Ctx.eret_st (v : Ctx) : (v.eret).st = v.st := rfl
@[simp] theorem Ctx.eret_back (v : Ctx) : (v.eret).back = v.back := rfl
@[simp] theorem Ctx.eret_halted (v : Ctx) : (v.eret).halted = v.halted := rfl
@[simp] theorem Ctx.eret_len (v : Ctx) : (v.eret).len = v.len := rfl
@[simp] theorem Ctx.eret_o (v : Ctx) : (v.eret).o = v.o := rfl
@[simp] theorem Ctx.eret_p (v : Ctx) : (v.eret).p = v.p := rfl
@[simp] theorem Ctx.eret_t (v : Ctx) : (v.eret).t = v.t := rfl
@[simp] theorem Ctx.eret_lat (v : Ctx) : (v.eret).lat = v.lat := rfl
@[simp] theorem Ctx.eret_flags (v : Ctx) : (v.eret).flags = v.flags := rfl
@[simp] theorem Ctx.eret_ten (v : Ctx) : (v.eret).ten = v.ten := rfl
@[simp] theorem Ctx.eret_vl (v : Ctx) : (v.eret).vl = v.vl := rfl
@[simp] theorem Ctx.eret_fmtw (v : Ctx) : (v.eret).fmtw = v.fmtw := rfl
@[simp] theorem Ctx.eret_sclp (v : Ctx) : (v.eret).sclp = v.sclp := rfl
@[simp] theorem Ctx.eret_mrho (v : Ctx) : (v.eret).mrho = v.mrho := rfl
@[simp] theorem Ctx.eret_mseed (v : Ctx) : (v.eret).mseed = v.mseed := rfl
@[simp] theorem Ctx.eret_ttag (v : Ctx) : (v.eret).ttag = v.ttag := rfl
@[simp] theorem Ctx.eret_framep (v : Ctx) : (v.eret).framep = v.framep := rfl
@[simp] theorem Ctx.eret_tbm (v : Ctx) : (v.eret).tbm = v.tbm := rfl
@[simp] theorem Ctx.eret_rank (v : Ctx) : (v.eret).rank = v.rank := rfl
@[simp] theorem Ctx.eret_gsz (v : Ctx) : (v.eret).gsz = v.gsz := rfl
@[simp] theorem Ctx.eret_ppl (v : Ctx) : (v.eret).ppl = v.ppl := rfl
@[simp] theorem Ctx.eret_epc (v : Ctx) : (v.eret).epc = v.epc := rfl
@[simp] theorem Ctx.eret_ecause (v : Ctx) : (v.eret).ecause = v.ecause := rfl
@[simp] theorem Ctx.eret_einfo (v : Ctx) : (v.eret).einfo = v.einfo := rfl
@[simp] theorem Ctx.eret_eva (v : Ctx) : (v.eret).eva = v.eva := rfl
@[simp] theorem Ctx.eret_tvec (v : Ctx) : (v.eret).tvec = v.tvec := rfl
@[simp] theorem Ctx.eret_gsize (v : Ctx) : (v.eret).gsize = v.gsize := rfl
@[simp] theorem Ctx.eret_gbase (v : Ctx) : (v.eret).gbase = v.gbase := rfl
@[simp] theorem Ctx.eret_vsize (v : Ctx) : (v.eret).vsize = v.vsize := rfl
@[simp] theorem Ctx.eret_vbase (v : Ctx) : (v.eret).vbase = v.vbase := rfl
@[simp] theorem Ctx.eret_rcbp (v : Ctx) : (v.eret).rcbp = v.rcbp := rfl
@[simp] theorem Ctx.eret_ptbr (v : Ctx) : (v.eret).ptbr = v.ptbr := rfl
@[simp] theorem Ctx.eret_liveb (v : Ctx) : (v.eret).liveb = v.liveb := rfl
@[simp] theorem Ctx.eret_keyt (v : Ctx) : (v.eret).keyt = v.keyt := rfl
@[simp] theorem Ctx.eret_sscratch (v : Ctx) : (v.eret).sscratch = v.sscratch := rfl
@[simp] theorem Ctx.eret_frec (v : Ctx) : (v.eret).frec = v.frec := rfl
@[simp] theorem Ctx.eret_pframe (v : Ctx) : (v.eret).pframe = v.pframe := rfl
@[simp] theorem Ctx.eret_ownjc (v : Ctx) : (v.eret).ownjc = v.ownjc := rfl
@[simp] theorem Ctx.eret_parjc (v : Ctx) : (v.eret).parjc = v.parjc := rfl
@[simp] theorem Ctx.eret_ptag (v : Ctx) : (v.eret).ptag = v.ptag := rfl
@[simp] theorem Ctx.eret_root (v : Ctx) : (v.eret).root = v.root := rfl
@[simp] theorem Ctx.eret_nt (v : Ctx) : (v.eret).nt = v.nt := rfl
@[simp] theorem Ctx.eret_storeQ (v : Ctx) : (v.eret).storeQ = v.storeQ := rfl
@[simp] theorem Ctx.eret_wait (v : Ctx) : (v.eret).wait = v.wait := rfl
@[simp] theorem Ctx.eret_deque (v : Ctx) : (v.eret).deque = v.deque := rfl
@[simp] theorem Ctx.eret_request (v : Ctx) : (v.eret).request = v.request := rfl
@[simp] theorem Ctx.eret_hunt (v : Ctx) : (v.eret).hunt = v.hunt := rfl
@[simp] theorem Ctx.eret_dying (v : Ctx) : (v.eret).dying = v.dying := rfl
@[simp] theorem Ctx.eret_holding (v : Ctx) : (v.eret).holding = v.holding := rfl
@[simp] theorem Ctx.eret_posted (v : Ctx) : (v.eret).posted = v.posted := rfl
@[simp] theorem Ctx.eret_stuck (v : Ctx) : (v.eret).stuck = v.stuck := rfl
@[simp] theorem Ctx.eret_hostAddr (v : Ctx) : (v.eret).hostAddr = v.hostAddr := rfl
@[simp] theorem Ctx.eret_hostRead (v : Ctx) : (v.eret).hostRead = v.hostRead := rfl
@[simp] theorem Ctx.eret_covered (v : Ctx) : (v.eret).covered = v.covered := rfl
@[simp] theorem Ctx.eret_lost (v : Ctx) : (v.eret).lost = v.lost := rfl
@[simp] theorem Ctx.eret_lostPkg (v : Ctx) : (v.eret).lostPkg = v.lostPkg := rfl
@[simp] theorem Ctx.eret_logTime (v : Ctx) : (v.eret).logTime = v.logTime := rfl

end Sys2Proof.Machine
end

