-- ==== Sys2Proof/Laws/Shapes.lean ====
section
/-! SUPPORT. What each shared operation can do, said once: the shape of a completed result, of a trap, and the answers of the
operand checks. -/

namespace Sys2Proof.Machine

/-- The home copies depend on memory, the L2s, the keys of the units and the packages, and the step. -/
theorem homeByte_eq {s t : State} (hm : t.mem = s.mem) (hk : t.unitKey = s.unitKey) (hl : t.l2 = s.l2) (hp : t.pkgs = s.pkgs)
    (ht : t.tick = s.tick) (key a : Nat) : homeByte t key a = homeByte s key a := by
  unfold homeByte homeLine storedByte keyOf unitPlain memCell State.pkg
  rw [hm, hk, hl, hp, ht]

/-! Operand checks. -/

theorem checkG_ok {v : Ctx} {k n : Nat} {r : GReg} (h : v.okG n r = true) : v.checkG k r n = .ok () := by
  unfold Ctx.checkG
  rw [if_pos h]
theorem checkG_beyond {v : Ctx} {k n : Nat} {i : Fin 128} (h : v.gsize < i.val + n) :
    v.checkG k (.g i) n = .error (.trap (reglim .g k (max i.val v.gsize))) := by
  unfold Ctx.checkG
  rw [if_neg (by simp only [Ctx.okG, decide_eq_true_eq]; omega)]
theorem checkZ_ok {v : Ctx} {z : Option GReg} (h : z.all (v.okG 1) = true) : v.checkZ z = .ok () := by
  cases z with
  | none => rfl
  | some r => exact checkG_ok h
theorem checkV_ok {v : Ctx} {k : Nat} {i : Idx} (h : i.val < v.vsize) : v.checkV k i = .ok () := if_pos h
theorem checkVZ_ok {v : Ctx} {z : Option Idx} (h : z.all (fun i => decide (i.val < v.vsize)) = true) : v.checkVZ z = .ok () := by
  cases z with
  | none => rfl
  | some r => exact checkV_ok (by simpa using h)
theorem checkP_ok {k : Nat} {i : Idx} (h : i.val < 8) : checkP k i = .ok () := if_pos h
theorem checkT_ok {k : Nat} {i : Idx} (h : i.val < 8) : checkT k i = .ok () := if_pos h

/-! Shapes. -/

theorem windowEntry_get (s : State) (x : GReg) (w : Word) (n : Nat) :
    Store.get 0 (s.putG s.cur x w).gfile n = if s.windowEntry x = some n then w else Store.get 0 s.gfile n := by
  unfold State.putG State.windowEntry
  cases x with
  | o i => simp
  | lat => simp
  | g i =>
    by_cases h : i.val = 0
    · simp [h]
    · simp only [h, if_false, Store.get_set, Option.some.injEq, State.me, eq_comm]

/-- A completed result has the shape of a register step. -/
theorem complete_registerStep (s : State) (x : GReg) (w : Word) (f : FlagSet) : RegisterStep s (s.complete x w f) x w f where
  rest := by
    unfold State.complete State.writeG State.putG
    cases x with
    | o i => rfl
    | lat => rfl
    | g i => dsimp only; split <;> rfl
  bytes := by
    intro key a
    apply homeByte_eq <;> unfold State.complete State.writeG State.putG <;> cases x <;> dsimp only <;> first | rfl | (split <;> rfl)
  others := by
    intro c hc
    unfold State.complete State.writeG State.putG
    cases x with
    | o i => simp [State.advance, State.raise, State.upd, State.ctx_updCtx, hc]
    | lat => simp [State.advance, State.raise, State.upd, State.ctx_updCtx, hc]
    | g i =>
      dsimp only
      split <;> simp [State.advance, State.raise, State.upd, State.ctx_updCtx, hc]
  own := by
    unfold State.complete State.writeG State.putG State.me
    cases x with
    | o i => simp [State.advance, State.raise, State.upd, Ctx.advance, Ctx.nextPc]
    | lat => simp [State.advance, State.raise, State.upd, Ctx.advance, Ctx.nextPc]
    | g i =>
      dsimp only
      split <;> simp [State.advance, State.raise, State.upd, Ctx.advance, Ctx.nextPc]
  operands := by
    intro n
    unfold State.complete State.writeG State.putG State.me operandEntry
    cases x with
    | o i => simp [State.advance, State.raise, State.upd, Ctx.advance, Store.get_set, eq_comm]
    | lat => simp [State.advance, State.raise, State.upd, Ctx.advance]
    | g i =>
      dsimp only
      split <;> simp [State.advance, State.raise, State.upd, Ctx.advance]
  file := by
    intro n
    rw [← windowEntry_get]
    rfl

/-- A vector result has the shape of a vector step. -/
theorem completeV_vectorStep (s : State) (x : Idx) (r : Flagged VWord) : VectorStep s (s.completeV x r) x r.val r.flags where
  rest := rfl
  bytes := fun _ _ => rfl
  others := by
    intro c hc
    simp [State.completeV, State.advance, State.raise, State.upd, State.ctx_updCtx, hc]
  own := by
    unfold State.completeV State.me
    simp [State.advance, State.raise, State.upd, Ctx.advance, Ctx.nextPc]
  file := by
    intro n
    exact Store.get_set 0 s.vfile _ n r.val

/-- A predicate result has the shape of a predicate step. -/
theorem completeP_predicateStep (s : State) (x : Idx) (w : Word128) : PredicateStep s (s.completeP x w) x w where
  rest := rfl
  bytes := fun _ _ => rfl
  others := by
    intro c hc
    simp [State.completeP, State.advance, State.upd, State.ctx_updCtx, hc]
  own := by
    unfold State.completeP State.me
    simp [State.advance, State.upd, Ctx.advance, Ctx.nextPc, Ctx.setPred]
  file := by
    intro n
    unfold State.completeP State.me
    simp only [State.advance, State.upd, State.ctx_updCtx_same, State.updCtx_cur]
    exact Ctx.pred_setPred _ _ _ _

/-- An update of the running context alone. -/
theorem upd_contextStep (s : State) (f : Ctx → Ctx) : ContextStep s (s.upd f) (f s.me) where
  rest := rfl
  bytes := fun _ _ => rfl
  others := fun _ hc => State.ctx_upd_ne s f hc
  own := State.me_upd s f

theorem advance_nextStep (s : State) : NextStep s s.advance := upd_contextStep s Ctx.advance

/-- A trap that can be taken. -/
theorem trap_trapStep (s : State) (t : Trap) (h : s.me.canTrap = true) :
    TrapStep s (s.trap s.cur t) t.cause.code t.einfo t.eva := by
  have h' : (s.ctx s.cur).canTrap = true := h
  unfold State.trap TrapStep
  rw [if_pos h']
  exact upd_contextStep s (fun v => v.takeTrap t)

/-- Taking a trap, or the death of the task where it cannot be taken, is all that a stop by a trap does. -/
theorem finish_trap (s : State) (t : Trap) : finish s (.error (.trap t)) = .next (s.trap s.cur t) := rfl

/-! The operand forms. -/

theorem runGBin_next (f : Word → Word → Flagged Word) (a : GBin) (s : State) (hx : s.reads a.x = true) (hy : s.reads a.y = true)
    (hz : s.readsZ a.z = true) :
    runGBin f a s = .next (s.complete a.x (f (s.first a) (s.second a)).val (f (s.first a) (s.second a)).flags) := by
  unfold runGBin gbinCheck
  rw [checkG_ok hx, checkG_ok hy, checkZ_ok hz]
  unfold gbinValues State.first State.second
  cases a.z <;> rfl

theorem runGUn_next (f : Word → Flagged Word) (a : GUn) (s : State) (hx : s.reads a.x = true) (hy : s.reads a.y = true) :
    runGUn f a s = .next (s.complete a.x (f (s.g a.y)).val (f (s.g a.y)).flags) := by
  unfold runGUn
  rw [checkG_ok hx, checkG_ok hy]
  rfl

theorem runGTri_next (f : Word → Word → Word → Flagged Word) (a : GTri) (s : State) (hx : s.reads a.x = true)
    (hy : s.reads a.y = true) (hz : s.reads a.z = true) :
    runGTri f a s = .next (s.complete a.x (f (s.g a.x) (s.g a.y) (s.g a.z)).val (f (s.g a.x) (s.g a.y) (s.g a.z)).flags) := by
  unfold runGTri
  rw [checkG_ok hx, checkG_ok hy, checkG_ok hz]
  rfl

/-- The outcomes of a binary instruction: the register step when its operands are in the window, else REGLIM for the first that is
not (R14). -/
theorem runGBin_answers (f : Word → Word → Flagged Word) (a : GBin) (s : State) :
    (∃ w g, runGBin f a s = .next (s.complete a.x w g)) ∨
    (∃ k i, runGBin f a s = .next (s.trap s.cur (reglim .g k i))) := by
  have key (k : Nat) (r : GReg) : s.me.checkG k r = .ok () ∨ ∃ i, s.me.checkG k r = .error (.trap (reglim .g k i)) := by
    unfold Ctx.checkG
    split
    · exact .inl rfl
    · cases r with
      | g i => exact .inr ⟨_, rfl⟩
      | o i => exact .inl rfl
      | lat => exact .inl rfl
  unfold runGBin gbinCheck
  rcases key 0 a.x with h | ⟨i, h⟩
  · rcases key 1 a.y with h1 | ⟨i, h1⟩
    · cases hz : a.z with
      | none => rw [h, h1]; exact .inl ⟨_, _, rfl⟩
      | some z =>
        rcases key 2 z with h2 | ⟨i, h2⟩
        · simp only [Ctx.checkZ]; rw [h, h1, h2]; exact .inl ⟨_, _, rfl⟩
        · simp only [Ctx.checkZ]; rw [h, h1, h2]; exact .inr ⟨2, i, rfl⟩
    · rw [h, h1]; exact .inr ⟨1, i, rfl⟩
  · rw [h]; exact .inr ⟨0, i, rfl⟩

end Sys2Proof.Machine
end

