-- ==== Sys2Proof/Laws/Windows.lean ====
section
/-! SUPPORT. The TCM window: where it lies, and that every access to it is translated at once and changes nothing (R29). -/

namespace Sys2Proof.Machine

theorem pkgOf_tcmBase {k off : Nat} (hk : k < 512 * 8192) (h : off < 2 ^ 18) : pkgOf (tcmBase k + off) = k / 512 := by
  unfold pkgOf tcmBase
  omega

theorem storageOf_tcm {k off : Nat} (hl : k < 512 * 8192) (h : off < 2 ^ 18) : storageOf (tcmBase k + off) = .tcm k off := by
  have hp := pkgOf_tcmBase hl h
  unfold storageOf
  rw [hp]
  unfold tcmBase
  have e : (k / 512 * 2 ^ 43 + (2 ^ 41 + 2 ^ 36) + k % 512 * 2 ^ 18 + off) % 2 ^ 43 = 2 ^ 41 + 2 ^ 36 + (k % 512 * 2 ^ 18 + off) := by omega
  simp only [e]
  have hk : k % 512 < 512 := Nat.mod_lt _ (by decide)
  rw [if_neg (by omega), if_neg (by omega), if_neg (by omega), if_pos (by omega)]
  congr 1 <;> omega

theorem tcmWindow_top : tcmWindow + 2 ^ 18 < 2 ^ 57 := by decide
theorem windowBase_le_tcmWindow : windowBase ≤ tcmWindow := by decide
theorem scratchWindow_below_tcmWindow : scratchWindow + 2 ^ 22 ≤ tcmWindow := by decide

theorem windowPa_tcm {c va : Nat} (h1 : tcmWindow ≤ va) (h2 : va < tcmWindow + 2 ^ 18) :
    windowPa c va = some (tcmBase (ctxStall c) + (va - tcmWindow)) := by
  have h3 := scratchWindow_below_tcmWindow
  unfold windowPa
  rw [if_neg (fun h => absurd (Nat.lt_of_lt_of_le h.2 (Nat.le_trans h3 h1)) (Nat.lt_irrefl _)), if_pos ⟨h1, h2⟩]

theorem checkStorage_tcm (s : State) (c va pa level : Nat) (a : Acc) {k off : Nat} (h : storageOf pa = .tcm k off) :
    checkStorage s c a va pa level = .ok () := by
  unfold checkStorage
  rw [h]

theorem throughWindow_of_windowPa (s : State) (c va pa : Nat) (a : Acc) (h : windowPa c va = some pa)
    (hc : checkStorage s c a va pa 0 = .ok ()) : throughWindow s c a va = .ok ⟨⟨pa, false, false, 0, 1⟩, 0⟩ := by
  unfold throughWindow
  rw [h]
  simp only [hc]
  rfl

/-- A context's access to its own TCM through the window passes translation. -/
theorem throughWindow_tcm (s : State) (hl : s.cur < ctxLimit) (va : Nat) (a : Acc) (h1 : tcmWindow ≤ va)
    (h2 : va < tcmWindow + 2 ^ 18) :
    throughWindow s s.cur a va = .ok ⟨⟨tcmBase (ctxStall s.cur) + (va - tcmWindow), false, false, 0, 1⟩, 0⟩ :=
  throughWindow_of_windowPa s s.cur va _ a (windowPa_tcm h1 h2) (checkStorage_tcm s s.cur va _ 0 a (storageOf_tcm
    (by unfold ctxLimit at hl; unfold ctxStall; omega) (Nat.sub_lt_left_of_lt_add h1 h2)))

/-- An access to the own TCM is translated at once, whatever its kind and level, and changes no state. -/
theorem translate_tcm (s : State) (hl : s.cur < ctxLimit) (va : Nat) (a : Acc) (h1 : tcmWindow ≤ va) (h2 : va < tcmWindow + 2 ^ 18) :
    translate s va a = .ok (s, ⟨⟨tcmBase (ctxStall s.cur) + (va - tcmWindow), false, false, 0, 1⟩, 0⟩) := by
  have hlo : ¬2 ^ 57 ≤ va := Nat.not_le.mpr (Nat.lt_trans h2 tcmWindow_top)
  have hhi : windowBase ≤ va := Nat.le_trans windowBase_le_tcmWindow h1
  unfold translate translateFar
  simp only [throughWindow_tcm s hl va a h1 h2, if_neg hlo, if_pos hhi]
  rfl

/-- Addresses of the own TCM pass the checks of an engine's operand, and use no translation. -/
theorem checkAddrs_tcm (s : State) (hl : s.cur < ctxLimit) (a : Acc) (l : List Nat)
    (h : ∀ va ∈ l, tcmWindow ≤ va ∧ va < tcmWindow + 2 ^ 18) : checkAddrs translate s.cur a s [] l = .ok (s, []) := by
  induction l with
  | nil => rfl
  | cons va r ih =>
    have hv := h va (List.mem_cons_self ..)
    have hu : usedTlb s s.cur va = [] := if_pos (Nat.le_trans windowBase_le_tcmWindow hv.1)
    unfold checkAddrs
    rw [translate_tcm s hl va a hv.1 hv.2]
    simp only [hu, List.filter_nil, List.append_nil]
    exact ih (fun x hx => h x (List.mem_cons_of_mem _ hx))

end Sys2Proof.Machine
end

