-- ==== Sys2Proof/Tests/Slice0.lean ====
section
/-! SUPPORT. The model's own tests: ill-formed terms refused, words written from the encoding tables decoded, small single steps
with results worked out by hand from the spec, and for every statement with hypotheses a state and operands that meet them. -/

namespace Sys2Proof.Tests

open Sys2Proof Sys2Proof.Machine

/- One proof is checked at a time, which keeps the memory of the check small. -/
set_option Elab.async false

/-! Small states. -/

/-- Context 0 runs a task in supervisor mode with a trap vector, nine index bits a page-table level. -/
def run : State := State.reset.upd (fun v => { v with st := .run, tvec := 0x1000, ptbr := 9 })
/-- The same in user mode. -/
def user : State := run.upd (fun v => { v with pl := false })
/-- A state with a value in a register of context 0. -/
def State.with (s : State) (r : GReg) (w : Nat) : State := s.putG 0 r (BitVec.ofNat 64 w)
/-- A computation that answers, and what holds of its answer. -/
def okAnd {ε α : Type} (r : Except ε α) (p : α → Bool) : Bool :=
  match r with
  | .ok a => p a
  | .error _ => false
/-- A step that answers a next state, and what holds of it. -/
def nextAnd (o : Host.Outcome State Fault Refusal) (p : State → Bool) : Bool :=
  match o with
  | .next t => p t
  | _ => false
/-- A translation of the page at 0x10000 to the DRAM of package 0: normal, writable, for user and supervisor. -/
def page : Tlb := ⟨0, 0x10000, 0x1000, 0x10000, 0, true, false, true, 0, false, 0⟩
def paged : State := run.updStall 0 (fun k => { k with tlb := [page] })

/-! Ill-formed terms. -/

/-- One term for each check of WellFormed, which it refuses: two fields need RGX; Z is never widened; required THR with a Z
beyond the codes; five prefix words; an immediate no four IMX hold; a jump offset no four IMX hold; a release load; an
acquire store; an odd pair; WRC to a read-only CSR; two vector fields need RGX; a vector Z beyond the codes; a compare Z; an
MMA with a tile Z beyond the codes; MRFN of an odd tile; MMAM with a B tile beyond the codes; MCOL.mean with Z not g0; a
spawn with a register target beyond the codes; a slide; a fence with a cache policy; an engine-order fence; ACAS2 with FMX;
ACAS2 whose X is no quad; a prefetch with an order; CTSET with ORD; a CWAIT that releases. -/
theorem test_ill_formed :
    ∀ i ∈ ([
        Instr.add ⟨.g 40, .g 41, none⟩,
        .add ⟨.o 0, .o 0, some (.g 7)⟩,
        .selnz ⟨.o 0, .o 0, .g 7⟩,
        .ldd ⟨.o 2, .g 40, some (.o 1), 0x1234, some ⟨.ac, .acq, false, .page⟩⟩,
        .movi ⟨.o 0, 0x4000000000⟩,
        .j ⟨0x40000000000⟩,
        .ldd ⟨.o 0, .o 0, none, 0, some ⟨.ac, .rel, false, .page⟩⟩,
        .std ⟨.o 0, .o 0, none, 0, some ⟨.ac, .acq, false, .page⟩⟩,
        .ldq ⟨.o 1, .o 0, none, 0, none⟩,
        .wrc ⟨.o 0, .cyc⟩,
        .vadd ⟨16, 17, none, none, none⟩,
        .vadd ⟨0, 0, some 16, none, none⟩,
        .vceq ⟨0, 0, 16, none, none⟩,
        .mma ⟨0, 0, 16⟩,
        .mrfn ⟨1, 2, .o 0⟩,
        .mmam ⟨0, 16⟩,
        .mcol ⟨0, 0, some (.mean, .o 0), none⟩,
        .spawn ⟨.o 0, .reg (.g 7)⟩,
        .vslide ⟨0, .other 0 (.g 7), none, none⟩,
        .fence ⟨some ⟨.ac, .ar, false, .wt⟩⟩,
        .fence ⟨some ⟨.ac, .ar, true, .page⟩⟩,
        .acas2 ⟨.o 0, .o 4, .o 0, 0, none, some .i32⟩,
        .acas2 ⟨.o 2, .o 4, .o 0, 0, none, none⟩,
        .pref ⟨.o 0, 0, some ⟨.ac, .acq, false, .page⟩⟩,
        .ctset ⟨.o 0, .o 1, none, 0, some ⟨.ac, .none, false, .page⟩⟩,
        .cwait ⟨.o 0, .o 1, none, 0, some ⟨.ac, .rel, false, .page⟩⟩] : List Instr), i.wf = false := by decide +kernel

/-! Decoding: words written from Tables 03-1 to 03-5. -/

/-- Words of the family, field by field from the encoding tables. -/
theorem test_decode_scalar_integer :
    ∀ e ∈ ([
        ([0x0091], .sub ⟨.o 1, .o 2, none⟩),
        ([0xFA80, 0x0BFC], .max ⟨.o 7, .g 6, some .lat⟩),
        ([0xF9A8, 0x1404], .sxh ⟨.lat, .g 40⟩),
        ([0xF8F8, 0x1898], .movi ⟨.o 1, -1000⟩),
        ([0xF801, 0x29A5], .srai ⟨.o 3, 52⟩),
        ([0x34D4], .cltn ⟨.g 0, .g 1, none⟩),
        ([0xFA20, 0x7009], .selz ⟨.o 0, .o 1, .o 2⟩),
        ([0xF8F0, 0x780B], .lea8 ⟨.o 0, .o 1, none, -16⟩),
        ([0xFB01, 0xFA00, 0x0119], .divn ⟨.o 2, .o 3, some (.o 0)⟩),
        ([0xFB01, 0x0A2A], .bfi ⟨.o 4, .o 5, none⟩)] : List (List Word16 × Instr)),
      decode e.1 = .instr e.2 e.1.length ∧ e.2.wf = true ∧ encode e.2 = e.1 := by decide +kernel
/-- Words of the family, field by field from the encoding tables. -/
theorem test_decode_control :
    ∀ e ∈ ([
        ([0x397E], .bnz ⟨.o 2, -2⟩),
        ([0xF801, 0x4103], .bz ⟨.o 2, 131⟩),
        ([0x4981], .callr ⟨.o 3⟩),
        ([0x4802], .ret),
        ([0x5400], .j ⟨-1024⟩),
        ([0x580D], .call ⟨13⟩)] : List (List Word16 × Instr)),
      decode e.1 = .instr e.2 e.1.length ∧ e.2.wf = true ∧ encode e.2 = e.1 := by decide +kernel
/-- Words of the family, field by field from the encoding tables. -/
theorem test_decode_memory :
    ∀ e ∈ ([
        ([0xF9A8, 0xFC48, 0xF812, 0xF834, 0x6103], .ldd ⟨.o 2, .g 40, none, 0x1234, some ⟨.ac, .acq, false, .page⟩⟩),
        ([0xFA30, 0xFC93, 0x6A0C], .stq ⟨.o 4, .o 1, some (.o 3), 0, some ⟨.pk, .rel, false, .wt⟩⟩)] : List (List Word16 × Instr)),
      decode e.1 = .instr e.2 e.1.length ∧ e.2.wf = true ∧ encode e.2 = e.1 := by decide +kernel
/-- Words of the family, field by field from the encoding tables. -/
theorem test_decode_system :
    ∀ e ∈ ([
        ([0x8183], .flagr ⟨.o 3⟩),
        ([0x87FE], .bkpt ⟨255⟩),
        ([0xF810, 0x8829], .wrc ⟨.o 0, .tvec⟩),
        ([0x8B02], .tmark ⟨.o 6⟩),
        ([0xFB08, 0xF989, 0x0083], .ctxsave ⟨.o 1, .g 9⟩)] : List (List Word16 × Instr)),
      decode e.1 = .instr e.2 e.1.length ∧ e.2.wf = true ∧ encode e.2 = e.1 := by decide +kernel
/-- Words of the family, field by field from the encoding tables. -/
theorem test_decode_float :
    ∀ e ∈ ([
        ([0xFB01, 0x1093], .fdiv ⟨.o 1, .o 2, none⟩),
        ([0xFB01, 0xFA30, 0x1892], .fnma ⟨.o 1, .o 2, .o 3⟩),
        ([0xFB01, 0x2091], .flt ⟨.o 1, .o 2, none⟩),
        ([0xFB01, 0x2891], .cvtfi ⟨.o 1, .o 2⟩)] : List (List Word16 × Instr)),
      decode e.1 = .instr e.2 e.1.length ∧ e.2.wf = true ∧ encode e.2 = e.1 := by decide +kernel
/-- Words of the family, field by field from the encoding tables. -/
theorem test_decode_vector :
    ∀ e ∈ ([
        ([0xFB02, 0xFD80, 0xFE70, 0x0A28], .vfma ⟨4, 5, none, some .fp32, some ⟨3, true⟩⟩),
        ([0xFB02, 0xFA70, 0x10B2], .vclt ⟨1, 6, 7, none, none⟩),
        ([0xFB02, 0x192C], .pset ⟨2, .o 5⟩),
        ([0xFB02, 0xFA40, 0xF964, 0x200C], .vgath ⟨100, .o 1, some 4, 0, none, none, none⟩),
        ([0xFB02, 0x29A1], .vrmax ⟨.o 3, 4, none, none, none⟩),
        ([0xFB02, 0xFA20, 0x29A7], .vslide ⟨3, .other 4 (.o 2), none, none⟩),
        ([0xFB02, 0xFDA0, 0x31A0], .vcvt ⟨3, 4, some .fp16, none⟩),
        ([0xFB02, 0x39A0], .vsett ⟨.o 3, .o 4, none⟩)] : List (List Word16 × Instr)),
      decode e.1 = .instr e.2 e.1.length ∧ e.2.wf = true ∧ encode e.2 = e.1 := by decide +kernel
/-- Words of the family, field by field from the encoding tables. -/
theorem test_decode_matrix :
    ∀ e ∈ ([
        ([0xFB03, 0xFA50, 0x01A2], .mmah ⟨3, 4, 5⟩),
        ([0xFB03, 0x0980], .aacq ⟨.o 3⟩),
        ([0xFB03, 0x0801], .arel),
        ([0xFB03, 0xFA10, 0x11A1], .tget ⟨3, .o 4, some (.o 1)⟩),
        ([0xFB03, 0x1981], .mstat ⟨.o 3⟩),
        ([0xFB03, 0x21A2], .mtrsu ⟨3, 4⟩)] : List (List Word16 × Instr)),
      decode e.1 = .instr e.2 e.1.length ∧ e.2.wf = true ∧ encode e.2 = e.1 := by decide +kernel
/-- Words of the family, field by field from the encoding tables. -/
theorem test_decode_moment :
    ∀ e ∈ ([
        ([0xFB04, 0xFA60, 0x01A4], .maff ⟨3, 4, 6, none⟩),
        ([0xFB04, 0x09A3], .msqr ⟨3, 4, none⟩),
        ([0xFB04, 0xFA21, 0x11A3], .mcol ⟨3, 4, some (.upper, .o 2), none⟩)] : List (List Word16 × Instr)),
      decode e.1 = .instr e.2 e.1.length ∧ e.2.wf = true ∧ encode e.2 = e.1 := by decide +kernel
/-- Words of the family, field by field from the encoding tables. -/
theorem test_decode_fork_join :
    ∀ e ∈ ([
        ([0xFB05, 0xF810, 0x0180], .spawn ⟨.o 3, .label 16⟩),
        ([0xFB05, 0x0800], .sync),
        ([0xFB05, 0x11A0], .falloc ⟨.o 3, .o 4⟩),
        ([0xFB05, 0x1800], .tend),
        ([0xFB05, 0xFA20, 0x21A0], .rlaunch ⟨.o 3, .o 4, some (.o 2)⟩),
        ([0xFB05, 0x2983], .grank ⟨.o 3⟩),
        ([0xFB05, 0x31A0], .donate ⟨.o 3, .o 4, none, none⟩)] : List (List Word16 × Instr)),
      decode e.1 = .instr e.2 e.1.length ∧ e.2.wf = true ∧ encode e.2 = e.1 := by decide +kernel
/-- Words of the family, field by field from the encoding tables. -/
theorem test_decode_synchronization :
    ∀ e ∈ ([
        ([0xFB06, 0xFA20, 0xFD20, 0x0327], .acas ⟨.o 6, .o 4, .o 2, 0, none, some .i32⟩),
        ([0xFB06, 0xFA20, 0x09A1], .abinc ⟨.o 3, .o 4, .o 2, 0, none, none⟩),
        ([0xFB06, 0xFCB8, 0x1000], .fence ⟨some ⟨.sy, .ar, false, .page⟩⟩),
        ([0xFB06, 0x19A4], .btest ⟨.o 3, .o 4, none, 0, none⟩)] : List (List Word16 × Instr)),
      decode e.1 = .instr e.2 e.1.length ∧ e.2.wf = true ∧ encode e.2 = e.1 := by decide +kernel
/-- Words of the family, field by field from the encoding tables. -/
theorem test_decode_carter :
    ∀ e ∈ ([
        ([0xFB07, 0x01A2], .cwm ⟨.o 3, .o 4, none, 0, none⟩),
        ([0xFB07, 0x0981], .tfrel ⟨3⟩)] : List (List Word16 × Instr)),
      decode e.1 = .instr e.2 e.1.length ∧ e.2.wf = true ∧ encode e.2 = e.1 := by decide +kernel
/-- Each reason of Table 03-4 with the word at fault: a fifth prefix word, KIND 111, a second RGX, pages 0 and 9, major 0.18,
FN 7 of major 0.6, FMX on ADD, THR on NOT, a second IMX on SHLI, the FN extension on ADD, the unused Y of MSTAT, a field that RGX
supplies, SELNZ without THR, a negative CSR address, an unassigned one, and WRC to CYC. -/
theorem test_decode_rejects :
    ∀ e ∈ ([
        ([0xF800, 0xF800, 0xF800, 0xF800, 0xF800, 0x1800], ⟨1, 4⟩),
        ([0xFF00, 0x0000], ⟨2, 0⟩),
        ([0xF928, 0xF9A9, 0x0000], ⟨3, 1⟩),
        ([0xFB00, 0x0000], ⟨4, 0⟩),
        ([0xFA10, 0xFB09, 0x0000], ⟨4, 1⟩),
        ([0x9000], ⟨5, 0⟩),
        ([0x3007], ⟨6, 0⟩),
        ([0xFA10, 0xFD20, 0x0000], ⟨7, 1⟩),
        ([0xFA10, 0x0807], ⟨7, 0⟩),
        ([0xF800, 0xF800, 0x2800], ⟨7, 1⟩),
        ([0xFA11, 0x0000], ⟨8, 0⟩),
        ([0xFB03, 0x1809], ⟨8, 1⟩),
        ([0xF928, 0x0080], ⟨8, 1⟩),
        ([0x7000], ⟨9, 0⟩),
        ([0x8878], ⟨10, 0⟩),
        ([0xF803, 0x8800], ⟨10, 1⟩),
        ([0xF800, 0x8871], ⟨10, 1⟩)] : List (List Word16 × Illop)), decode e.1 = .illegal e.2 := by decide +kernel

/-! One step on a small state. The expected values are worked out by hand from the rule each test names, or are those of the
spec's own example under it. -/

/-- The value of a register after an instruction, with the flags raised. -/
def gAfter (i : Instr) (s : State) (r : GReg) (w : Nat) (f : FlagSet) : Bool :=
  nextAnd (exec i s) (fun t => t.readG s.cur r == BitVec.ofNat 64 w && (t.ctx s.cur).flags == f)
/-- Two operands in o1 and o2. -/
def ops (a b : Nat) : State := State.with (State.with run (.o 1) a) (.o 2) b

/-- R99: the sum wraps at 2^64. -/
theorem test_add_wraps : gAfter (.add ⟨.o 1, .o 2, none⟩) (ops (2 ^ 64 - 1) 2) (.o 1) 1 0 = true := by decide +kernel
/-- R18, R99: the latch takes the result too, and o1 keeps its value in the three-address form. -/
theorem test_sub_latch : gAfter (.sub ⟨.o 3, .o 1, some (.o 2)⟩) (ops 5 7) .lat (2 ^ 64 - 2) 0 = true ∧
    gAfter (.sub ⟨.o 3, .o 1, some (.o 2)⟩) (ops 5 7) (.o 1) 5 0 = true := by decide +kernel
/-- R99: −2 · 3 has the high half −1 signed and 2 unsigned. -/
theorem test_mulh : gAfter (.mulh ⟨.o 1, .o 2, none⟩) (ops (2 ^ 64 - 2) 3) (.o 1) (2 ^ 64 - 1) 0 = true ∧
    gAfter (.mulhn ⟨.o 1, .o 2, none⟩) (ops (2 ^ 64 - 2) 3) (.o 1) 2 0 = true := by decide +kernel
/-- R99: an amount of 65 shifts by 1. -/
theorem test_sra : gAfter (.sra ⟨.o 1, .o 2, none⟩) (ops (2 ^ 63) 65) (.o 1) (2 ^ 63 + 2 ^ 62) 0 = true := by decide +kernel
/-- R41, R100 and the example of R131: 7 / 0 is all ones with DZ. -/
theorem test_divn_by_zero :
    gAfter (.divn ⟨.o 1, .o 2, none⟩) (ops 7 0) (.o 1) (2 ^ 64 - 1) 0x002 = true := by decide +kernel
/-- R41, R100: −7 / 2 is −3 and leaves −1. -/
theorem test_div_truncates : gAfter (.div ⟨.o 1, .o 2, none⟩) (ops (2 ^ 64 - 7) 2) (.o 1) (2 ^ 64 - 3) 0 = true ∧
    gAfter (.rem ⟨.o 1, .o 2, none⟩) (ops (2 ^ 64 - 7) 2) (.o 1) (2 ^ 64 - 1) 0 = true := by decide +kernel
/-- The example of R101: pos 3, wid 13. -/
theorem test_bfxn :
    gAfter (.bfxn ⟨.o 1, .o 2, none⟩) (ops 0xFFFF000000001238 0x0C03) (.o 1) 0x0247 0 = true := by decide +kernel
/-- 0x3F800000 + 0x40000000 is 3.0; 1 / 3 rounds to 0x3EAAAAAB with IX. -/
theorem test_float : gAfter (.fadd ⟨.o 1, .o 2, none⟩) (ops 0x3F800000 0x40000000) (.o 1) 0x40400000 0 = true ∧
    gAfter (.fdiv ⟨.o 1, .o 2, none⟩) (ops 0x3F800000 0x40400000) (.o 1) 0x3EAAAAAB 0x010 = true := by decide +kernel
/-- The example of R49: 0x3F808000 lies midway and goes to the even 0x3F80. -/
theorem test_cvtfb : gAfter (.cvtfb ⟨.o 1, .o 2⟩) (ops 0 0x3F808000) (.o 1) 0x3F80 0x010 = true := by decide +kernel
/-- The examples of R53: 470, 460 and 464 go to 448, the first with QS. -/
theorem test_e4m3_saturates :
    (convertSmall e4m3 .rne (.fin false 470 0)) = ⟨e4m3.decode 0x7E, 0x110⟩ ∧
    (convertSmall e4m3 .rne (.fin false 460 0)).flags = 0x010 ∧
    e4m3.encode (convertSmall e4m3 .rne (.fin false 464 0)).val = 0x7E := by decide +kernel
/-- The examples of R57: 0.8125 is as near to 0.75 as to 0.875 and takes 0.75, and so does fp32 0.8. -/
theorem test_ds8 : (roundDs8 (.fin false 13 (-4))).val = 0x12 ∧ (roundDs8 (fp32.decode 0x3F4CCCCD)) = ⟨0x12, 0x010⟩ := by
  decide +kernel

/-- R107, R108: a branch back by one word, one not taken, and a call that links in g1. -/
theorem test_branch_and_call :
    nextAnd (exec (.bnz ⟨.o 1, -1⟩) ((ops 1 0).upd (fun v => { v with pc := 0x100, len := 2 }))) (fun t => t.me.pc == 0xFE) = true ∧
    nextAnd (exec (.bnz ⟨.o 2, -1⟩) ((ops 1 0).upd (fun v => { v with pc := 0x100, len := 2 }))) (fun t => t.me.pc == 0x102) = true ∧
    nextAnd (exec (.call ⟨13⟩) (run.upd (fun v => { v with pc := 0x100, len := 2 })))
      (fun t => t.me.pc == 0x11A && t.readG 0 (.g 1) == 0x102) = true := by decide +kernel
/-- R128, R359: SYSC 5 in user mode. -/
theorem test_sysc :
    nextAnd (exec (.sysc ⟨5⟩) (user.upd (fun v => { v with pc := 0x100, len := 2 }))) (fun t =>
      t.me.pc == 0x1000 && t.me.epc == 0x100 && t.me.pl && t.me.intrap && !t.me.ppl && (t.me.einfo == 5)) = true := by
  decide +kernel
/-- R30, R111, R112: an issued store is forwarded to the load behind it, at the last bytes of TCM. -/
theorem test_store_forwards :
    let s := State.with (State.with run (.o 0) (tcmWindow + 2 ^ 18 - 4)) (.o 1) 0x80FFEEDD
    nextAnd (exec (.stw ⟨.o 1, .o 0, none, 0, none⟩) s) (fun t =>
      gAfter (.ldws ⟨.o 2, .o 0, none, 0, none⟩) t (.o 2) 0xFFFFFFFF80FFEEDD 0) = true := by decide +kernel
/-- R129: WRC writes the format in VT and RDC reads it. -/
theorem test_csr :
    nextAnd (exec (.wrc ⟨.o 1, .vt⟩) (ops 9 0)) (fun t => t.me.vt == .bf16 && gAfter (.rdc ⟨.o 2, .vt⟩) t (.o 2) 9 0) = true := by
  decide +kernel

/-- The examples of R138: with fp32 elements, PSET of 3 sets twelve lane bits; PCNT counts 3 and PFIRST gives 0. -/
theorem test_predicates :
    nextAnd (exec (.pset ⟨2, .o 1⟩) (ops 3 0)) (fun t => t.me.pred 2 == 0xFFF && gAfter (.pcnt ⟨.o 2, 2⟩) t (.o 2) 3 0 &&
      gAfter (.pfirst ⟨.o 3, 2⟩) t (.o 3) 0 0) = true := by decide +kernel
/-- Element i of the vector is i + 1. -/
def ramp (w : Nat) : VWord := packElems w ((List.range (1024 / w)).map (· + 1))
/-- The example of R144: a slide by −1 brings in 0 and element i − 1. -/
theorem test_vslide :
    nextAnd (exec (.vslide ⟨5, .other 4 (.o 1), some .i32, none⟩) ((ops (2 ^ 64 - 1) 0).writeV 0 4 (ramp 32))) (fun t =>
      elem 32 (t.readV 0 5) 0 == 0 && elem 32 (t.readV 0 5) 1 == 1 && elem 32 (t.readV 0 5) 31 == 31) = true := by decide +kernel
/-- R133, R136: n8 elements wrap, and only elements below VL change. -/
theorem test_vadd_wraps :
    nextAnd (exec (.vadd ⟨1, 2, none, some .n8, none⟩) ((((run.writeV 0 1 0xFFFFFF).writeV 0 2 0x020202)).upd
      (fun v => { v with vl := 2 }))) (fun t => t.readV 0 1 == 0xFF0101) = true := by decide +kernel
/-- The example of R148: a block of 100.0, −0.3 and thirty zeros packs to the scale 2^−2 and the codes 0x7C and 0xBA, with IX. -/
theorem test_vpack :
    nextAnd (exec (.vpack ⟨1, 2, some .e4m3, none⟩) (run.writeV 0 2 (packElems 32 [0x42C80000, 0xBE99999A]))) (fun t =>
      elem 8 (t.readV 0 1) 0 == 0x7C && elem 8 (t.readV 0 1) 1 == 0xBA && elem 8 (t.readV 0 1) 2 == 0 && t.me.flags == 0x010) =
      true := by decide +kernel
/-- The example after R199: (3, 4) and (2, 1), MMUL independent, MADD fully correlated, and μ + 2σ. -/
theorem test_moments :
    (oneMoment (fun a => stepMmul .ind a ⟨.fin false 2 0, .fin false 1 0⟩) ⟨.fin false 3 0, .fin false 4 0⟩ |> runSteps
      |> fun r => (encodeMoment r.val, r.flags)) = (0x41E8000040C00000, 0) ∧
    (oneMoment (fun a => stepMadd .cor a ⟨.fin false 2 0, .fin false 1 0⟩) ⟨.fin false 3 0, .fin false 4 0⟩ |> runSteps
      |> fun r => (encodeMoment r.val, r.flags)) = (0x4110000040A00000, 0) ∧
    (runSteps (stepMcol .upper (.fin false 2 0) plusZero (decodeMoment 0x4110000040A00000)) |> fun r => fp32.encode r.val) =
      0x41300000 := by decide +kernel
/-- The example of R63: 2^30 and two products of 2^−18 make 2^30 + 2^−17, exactly. -/
theorem test_fa56_group :
    (fa56.finish .rne ⟨addFin .rne false 1 30 false 1 (-17), 0⟩ |> fun r => (fa56.encode r.val, r.flags)) = (0x4E800000000001, 0) := by
  decide +kernel

/-- R249 and the example of R254: row 2, column 3, two by two arcades, are 19, 20, 27 and 28. -/
theorem test_grid : gridHall 19 = 0 ∧ gridHall 20 = 1 ∧ gridHall 35 = 2 ∧ arcadeAt 0 (gridPos 19) = 19 ∧ arcadeAt 1 (gridPos 28) = 28 := by
  decide
/-- The example of R408: the parity of a counter operation. -/
theorem test_parity : gfMul 0xD8 1 = 0xD8 ∧ gfMul 0xD8 2 = 0xAD ∧ gfMul 0xD8 3 = 0x75 ∧ gfInv 0xD8 = 0x10 ∧ gfMul 0x10 0x75 = 3 ∧
    codeCoef 0 0 = 0xD8 := by decide +kernel
/-- The example of R301: the leaf 0x40600417 maps a 2 MiB frame at 0x40600000, writable by user code; its byte 0x3ABC lies in
slice 6 of stack 5, at home in hall 2. -/
theorem test_leaf :
    let t := leafTlb 9 0x0000008040203ABC 0x40600417 1 0
    t.vbase = 0x8040200000 ∧ t.size = 0x200000 ∧ t.pbase = 0x40600000 ∧ t.w = true ∧ t.u = true ∧ t.mtype = 0 := by decide +kernel
theorem test_home : sliceOf 0x40603ABC = 6 ∧ dramStack 0x40603ABC = 5 ∧ homeHall 0x40603ABC = 2 := by decide +kernel
/-- Table 10-4: the last JDEC of a suspended join clears S and resumes; one below zero changes nothing; a death counts. -/
theorem test_counters :
    applyCounter .jdec ⟨1, 0, true, false⟩ = (⟨0, 0, false, false⟩, .resume) ∧
    applyCounter .jdec ⟨0, 0, true, false⟩ = (⟨0, 0, true, false⟩, .under) ∧
    applyCounter .jdead ⟨2, 0xFFFF, true, false⟩ = (⟨1, 0xFFFF, true, false⟩, .none) ∧
    applyCounter (.jadd (-2)) ⟨2, 1, false, true⟩ = (⟨0, 1, false, true⟩, .release) := by decide

/-! Witnesses: integer and floating-point registers, control flow. -/

/-- The operands of basic_integer_results, compare_results, immediate_select_and_address_results, division_results,
bit_field_results, float_arithmetic_results and float_compare_and_conversion_results: the last register of the window. -/
theorem witness_register_operands :
    run.reads (.g 31) = true ∧ run.reads (.o 7) = true ∧ run.reads .lat = true ∧ run.readsZ (some (.g 31)) = true ∧
    run.readsZ none = true := by decide
theorem witness_control_transfers_register :
    let s := State.with run (.g 1) (2 ^ 57 - 2)
    s.reads (.g 1) = true ∧ (s.g (.g 1)).toNat < 2 ^ 57 ∧ (s.g (.g 1)).toNat % 2 = 0 := by decide
theorem witness_control_transfers_page :
    let s := State.with run (.g 1) (2 ^ 57)
    s.me.tvec ≠ 0 ∧ s.me.intrap = false ∧ s.reads (.g 1) = true ∧ 2 ^ 57 ≤ (s.g (.g 1)).toNat := by decide
theorem witness_control_transfers_align :
    let s := State.with run (.g 1) (2 ^ 57 - 1)
    s.me.tvec ≠ 0 ∧ s.me.intrap = false ∧ s.reads (.g 1) = true ∧ (s.g (.g 1)).toNat < 2 ^ 57 ∧ (s.g (.g 1)).toNat % 2 = 1 := by decide

/-! Witnesses: loads and stores. -/

/-- No issued store waits, nothing is posted, lost, or to be read back from the host. -/
def freeToRelease (s : State) : Bool :=
  let t := drain s s.cur
  (storeHeldBy t s.cur).isNone && t.me.posted == 0 && !t.me.owesHost && t.me.lost == 0
theorem canRelease_of {s : State} (report : Bool) (sc : Option Scope) (h : freeToRelease s = true) : s.canRelease report sc := by
  simp only [freeToRelease, Bool.and_eq_true, Option.isNone_iff_eq_none, beq_iff_eq, Bool.not_eq_true'] at h
  exact fun q _ => ⟨h.1.1.1, fun _ => ⟨h.1.1.2, h.1.2, fun _ => h.2⟩⟩
theorem witness_releases (report : Bool) (sc : Option Scope) : run.canRelease report sc ∧ user.canRelease report sc :=
  ⟨canRelease_of report sc (by decide +kernel), canRelease_of report sc (by decide +kernel)⟩

/-- The last bytes of the TCM window, for each size. -/
theorem witness_window_loads :
    ∀ n ∈ [1, 2, 4, 8, 16],
      let s := State.with run (.o 0) (tcmWindow + 2 ^ 18 - n)
      let va := effAddr s (.o 0) (none : Option GReg) 0 n
      s.reads (.g 30) = true ∧ s.me.okG 2 (.g 30) = true ∧ s.reads (.o 0) = true ∧ s.inTcm va n ∧ va % n = 0 ∧ s.intact va n ∧
        newestOverlap s.me (s.tcmPlace va).pa n = none := by
  unfold State.inTcm State.intact
  decide +kernel
/-- A load of TCM completes at once; one of cached DRAM waits for its reply. -/
theorem witness_load_completion :
    ∀ e ∈ [(tcmWindow, true), (0x10FF0, false)],
      let s := State.with paged (.o 0) e.1
      s.me.okG 2 (.g 30) = true ∧ effAddr s (.o 0) (none : Option GReg) 0 16 % 16 = 0 ∧
      okAnd (translate s e.1 ⟨0, false, true, false⟩) (fun r =>
        !isPoisoned r.1 r.1.cur r.2.place 16 && !isRemote r.1.cur r.2.place &&
          okAnd (readPlace (acquireOf r.1 none) r.1.cur r.2.place 16 .page) (fun x =>
            x.2.2 == e.2 && x.1.cur == r.1.cur && x.2.1.length == 16)) = true := by decide +kernel
theorem witness_load_reply :
    let s := run.upd (fun v => { v with st := .wmem, wait := .reply (.scalar (.g 31) 8 false) [1, 2, 3, 4, 5, 6, 7, 8] 0 })
    (s.ctx 0).wait = .reply (.scalar (.g 31) 8 false) [1, 2, 3, 4, 5, 6, 7, 8] 0 ∧ (s.ctx 0).hostRead = false ∧
      (s.ctx 0).dying = none ∧ (s.ctx 0).st ≠ .idle ∧ isHalted s 0 = false ∧ (s.stall (ctxStall 0)).tracec = 0 ∧
      ∀ d ∈ [Dest.pair (.g 0), .pairValue (.g 126), .value .lat, .vector 3 4 [0, 31] false, .template (.g 31) 1023],
        ((s.upd (fun v => { v with wait := .reply d (List.replicate 64 0) 0 })).ctx 0).wait = .reply d (List.replicate 64 0) 0 := by
  decide +kernel
/-- A vector reply of the first and the last 4-byte element, and a template that passes its checks. -/
theorem witness_load_reply_parts :
    [0, 31].Nodup ∧ (∀ i ∈ [0, 31], (i + 1) * 4 ≤ 128) ∧ [0, 31].length * 4 ≤ (List.replicate 64 (0 : Byte)).length ∧
      (List.replicate 64 (0 : Byte)).length = 64 ∧ (0 : Nat) < 4 := by decide
/-- An issued store to the last bytes of TCM 0. -/
def tcmStore : QStore :=
  ⟨tcmWindow + 2 ^ 18 - 8, ⟨tcmBase 0 + 2 ^ 18 - 8, false, false, 0, 1⟩, [1, 2, 3, 4, 5, 6, 7, 8], false, .th, .page, none⟩
/-- A page of package 1's DRAM, in a system of eight packages. -/
def farPage : Tlb := { page with vbase := 0x20000, pbase := 2 ^ 43 + 0x20000 }
def far : State := (run.updPkg 0 (fun p => { p with ysize := 2 })).updStall 0 (fun k => { k with tlb := [page, farPage] })
/-- Fifteen stores are issued: the sixteenth still has room in the forwarding table. -/
theorem witness_store_issue :
    let s := State.with (run.upd (fun v => { v with storeQ := List.replicate 15 tcmStore })) (.o 0) (tcmWindow + 2 ^ 18 - 16)
    let va := effAddr s (.o 0) (none : Option GReg) 0 16
    s.me.okG 2 (.g 30) = true ∧ s.reads (.o 0) = true ∧ va % 16 = 0 ∧ releaseOf none = none ∧ s.inTcm va 16 ∧ s.me.storeQ.length < 32 ∧
    forwardCount s (ctxStall s.cur) < 16 ∧
    okAnd (translate s va ⟨1, true, true, false⟩) (fun r =>
      r.1.cur == s.cur && decide (r.1.me.storeQ.length < 32) && decide (forwardCount r.1 (ctxStall r.1.cur) < 16)) = true := by
  unfold State.inTcm
  decide +kernel
/-- Release stores: at `.th`, at `.ha` to DRAM of the own package, and to another package. -/
theorem witness_store_issue_release :
    ∀ e ∈ [(Scope.th, 0x10FF0, false), (.ac, 0x10FF0, false), (.ha, 0x10FF0, false), (.sy, 0x20FF0, true)],
      let s := State.with far (.o 0) e.2.1
      let ord : Option OrdQ := some ⟨e.1, .rel, true, .page⟩
      effAddr s (.o 0) (none : Option GReg) 0 16 % 16 = 0 ∧ s.me.okG 2 (.g 30) = true ∧ releaseOf ord = some e.1 ∧
      okAnd (translate s e.2.1 ⟨1, true, true, false⟩) (fun r =>
        let w := r.1.released (engineOf ord) (releaseOf ord)
        freeToRelease r.1 && w.cur == r.1.cur && isRemote r.1.cur r.2.place == e.2.2 && Scope.le .ha e.1 == (e.1 == .ha || e.1 == .sy) &&
          decide (r.1.me.storeQ.length < 32) && decide (forwardCount r.1 (ctxStall r.1.cur) < 16)) = true := by decide +kernel
theorem witness_store_perform :
    let s := run.upd (fun v => { v with storeQ := [tcmStore] })
    (s.ctx 0).storeQ = [tcmStore] ∧ tcmStore.block = none ∧ tcmStore.place.cached = false ∧ isRemote 0 tcmStore.place = false ∧
      storageOf tcmStore.place.pa = .tcm 0 (2 ^ 18 - 8) ∧ isDevice tcmStore.place.pa = false ∧
      homeLine s tcmStore.place.key tcmStore.place.pa = none ∧ isDram tcmStore.place.pa = false ∧ isNearStorage tcmStore.place = true ∧
      tcmStore.place.pa ≤ tcmBase 0 + 2 ^ 18 - 1 ∧
      tcmBase 0 + 2 ^ 18 - 1 + 1 ≤ tcmStore.place.pa + tcmStore.bytes.length := by decide +kernel
theorem witness_store_perform_storage :
    (∀ h off, storageOf tcmStore.place.pa ≠ .hallRegs h off) ∧ ∀ off, storageOf tcmStore.place.pa ≠ .host off := by
  have h : storageOf tcmStore.place.pa = .tcm 0 (2 ^ 18 - 8) := by decide +kernel
  rw [h]
  exact ⟨fun _ _ e => Storage.noConfusion e, fun _ e => Storage.noConfusion e⟩
/-- The first store of DRAM to its own memory: the unit is under the key of the store. -/
theorem witness_store_perform_dram :
    let q : QStore := { tcmStore with place := ⟨0x10000, false, false, 0, 0⟩ }
    let s := run.upd (fun v => { v with storeQ := [q] })
    isDram q.place.pa = true ∧ homeLine s q.place.key q.place.pa = none ∧
      Store.get 0 s.unitKey (q.place.pa / 128) = keyOf s (pkgOf q.place.pa) q.place.key := by decide +kernel
theorem witness_misaligned_accesses_trap :
    ∀ n ∈ [2, 4, 8, 16],
      let s := State.with run (.o 0) (tcmWindow + n - 1)
      s.me.tvec ≠ 0 ∧ s.me.intrap = false ∧ s.me.okG 2 (.g 30) = true ∧ s.reads (.o 0) = true ∧
        effAddr s (.o 0) (none : Option GReg) 0 n % n ≠ 0 := by decide

/-! Witnesses: control and status registers, traps, levels. -/

theorem witness_reset_registers : 0 < ctxLimit ∧ ctxLimit - 1 < ctxLimit := by decide
theorem witness_csr_accesses :
    run.reads (.g 31) = true ∧ run.me.pl = true ∧ user.reads (.g 31) = true ∧ user.me.pl = false ∧
      run.myStall.transfers.any (fun y => y.ctx == run.cur && y.both) = false := by decide
/-- BGATE with the stall's enable and the last vector bank gated. -/
theorem witness_csr_reads_bgate :
    let k := (run.updStall 0 (fun k => { k with gated := [(15, true)] })).myStall
    ∀ i, i < 64 → (0x0000800000010000 : Word).getLsbD i =
      if i < 17 then k.bgate.getLsbD i else decide (32 ≤ i ∧ i < 48 ∧ (k.gated.lookup (i - 32)).isSome = true) := by decide +kernel
/-- The largest windows that end at the last entry. -/
theorem witness_csr_writes_windows :
    (let w := ((State.with run (.g 1) (128 * 2 ^ 16 + 1920)).g (.g 1)).toNat
     w / 2 ^ 16 % 256 % 8 = 0 ∧ 8 ≤ w / 2 ^ 16 % 256 ∧ w / 2 ^ 16 % 256 ≤ 128 ∧ w % 2 ^ 11 % 8 = 0 ∧
       w % 2 ^ 11 + w / 2 ^ 16 % 256 ≤ 2048) ∧
    (let w := ((State.with run (.g 1) (64 * 2 ^ 16 + 960)).g (.g 1)).toNat
     w / 2 ^ 16 % 128 % 4 = 0 ∧ 4 ≤ w / 2 ^ 16 % 128 ∧ w / 2 ^ 16 % 128 ≤ 64 ∧ w % 2 ^ 10 % 4 = 0 ∧
       w % 2 ^ 10 + w / 2 ^ 16 % 128 ≤ 1024) := by decide
/-- The first windows beyond: one entry group too far. -/
theorem witness_csr_writes_illegal :
    let s := State.with run (.g 1) (128 * 2 ^ 16 + 1928)
    s.me.tvec ≠ 0 ∧ s.me.intrap = false ∧ s.reads (.g 1) = true ∧ s.me.pl = true ∧
      2048 < (s.g (.g 1)).toNat % 2 ^ 11 + (s.g (.g 1)).toNat / 2 ^ 16 % 256 ∧
      (s.g (.g 1)).toNat / 2 ^ 16 % 128 < 4 := by decide
theorem witness_csr_writes_flags : run.myStall.transfers.any (fun y => y.ctx == run.cur && y.both) = false := by decide
theorem witness_privileged_in_user_mode : user.me.tvec ≠ 0 ∧ user.me.intrap = false ∧ user.me.pl = false := by decide
theorem witness_traps_taken :
    let s := run.upd (fun v => { v with flags := 2, ten := 2 })
    s.me.tvec ≠ 0 ∧ s.me.intrap = false ∧ (s.myStall.haltg.getLsbD 8 && s.myStall.haltg.getLsbD 9) = false ∧
      (let t := s.updStall 0 (fun k => { k with haltg := 0x300 })
       t.me.tvec ≠ 0 ∧ t.me.intrap = false ∧ (t.myStall.haltg.getLsbD 8 && t.myStall.haltg.getLsbD 9) = true) ∧
      s.me.flags &&& s.me.ten ≠ 0 ∧ s.myStall.transfers.any (fun y => y.ctx == s.cur && y.both) = false := by decide
theorem witness_untakeable_traps_kill :
    let s := State.reset.upd (fun v => { v with st := .run, epc := 2 ^ 57 - 1 })
    (s.me.tvec = 0 ∨ s.me.intrap = true) ∧ s.me.dying = none ∧ s.me.pl = true ∧ s.me.epc.toNat < 2 ^ 57 ∧ s.me.epc.toNat % 2 = 1 ∧
      (s.myStall.haltg.getLsbD 8 && s.myStall.haltg.getLsbD 9) = false := by decide
theorem witness_untakeable_traps_kill_in_handler :
    let s := run.upd (fun v => { v with intrap := true })
    (s.me.tvec = 0 ∨ s.me.intrap = true) ∧ s.me.dying = none := by decide
theorem witness_eret_returns :
    run.me.pl = true ∧ run.me.tvec ≠ 0 ∧ run.me.intrap = false ∧
    (run.upd (fun v => { v with epc := 2 ^ 57 - 2 })).me.epc.toNat % 2 = 0 ∧
    (run.upd (fun v => { v with epc := 2 ^ 57 - 2 })).me.epc.toNat < 2 ^ 57 ∧
    2 ^ 57 ≤ (run.upd (fun v => { v with epc := 2 ^ 57 })).me.epc.toNat ∧
    (run.upd (fun v => { v with epc := 2 ^ 57 - 1 })).me.epc.toNat % 2 = 1 ∧
    (run.upd (fun v => { v with epc := 2 ^ 57 - 1 })).me.epc.toNat < 2 ^ 57 := by decide
theorem witness_simple_system_instructions :
    run.me.request = none ∧ run.me.flags &&& run.me.ten = 0 ∧ run.reads (.g 31) = true ∧
      run.myStall.transfers.any (fun y => y.ctx == run.cur && y.both) = false ∧ run.myStall.tracec.getLsbD 1 = false ∧
      (run.updStall 0 (fun k => { k with tracec := 2 })).myStall.tracec.getLsbD 1 = true ∧ run.me.pl = true ∧ run.me.st = .run ∧
      run.me.wait = .none ∧ run.myStall.haltg.getLsbD 8 = false ∧
      (run.updStall 0 (fun k => { k with haltg := 0x100 })).myStall.haltg.getLsbD 8 = true ∧
      (run.upd (fun v => { v with request := some ⟨0, true, false, false, 0⟩ })).me.request ≠ none := by decide
/-- The first register beyond the window, in each place. -/
theorem witness_operands_beyond_the_window_trap :
    run.me.tvec ≠ 0 ∧ run.me.intrap = false ∧ run.reads (.g 32) = false ∧ run.reads (.g 31) = true ∧
      run.readsZ (some (.g 32)) = false := by decide
/-- The first operand of each class and size that lies beyond its window, behind one that does not; the last that lies in it. -/
theorem witness_operands_beyond_each_class :
    (∀ n ∈ [Named.g (.g 32) 1, .g (.g 31) 2, .g (.g 29) 4, .v 16, .p 8, .t 8, .a 2, .a 0],
      let ops : List (Nat × Named) := [(0, .g (.g 31) 1), (1, n)]
      ops = [(0, .g (.g 31) 1)] ++ (1, n) :: [] ∧ run.holds (.g (.g 31) 1) = true ∧ run.holds n = false) ∧
    (∀ n ∈ [Named.g (.g 31) 1, .g (.g 30) 2, .g (.g 28) 4, .v 15, .p 7, .t 7], run.holds n = true) ∧
    run.beyond (.g (.g 31) 2) = 32 ∧ run.beyond (.v 16) = 16 + 4096 := by decide

/-! Witnesses: vectors, predicates, moments. -/

/-- The last vector register, a format of each kind, integer and floating-point. -/
theorem witness_vector_integer_elements :
    run.readsV 15 = true ∧ run.readsV 0 = true ∧ run.readsVZ (some 15) = true ∧ ((some Fmt.n8).getD run.me.vt).int? = some false ∧
      ((some Fmt.i64).getD run.me.vt).int? = some true ∧ (some Fmt.i8).getD run.me.vt ≠ .fa56 := by decide
theorem witness_vector_float_elements :
    run.readsV 15 = true ∧ run.readsVZ none = true ∧
    ∀ t ∈ [Fmt.fp32, .bf16, .fp16], ((some t).getD run.me.vt).float?.isSome = true ∧ (none : Option Fmt).getD run.me.vt = .fp32 := by
  decide
theorem witness_vector_compares_and_predicates :
    (7 : Idx).val < 8 ∧ run.readsV 15 = true ∧ Fmt.int? .n16 = some false ∧ Fmt.float? .bf16 = some bf16 ∧ run.reads (.g 31) = true ∧
      (some (7 : Idx)).all (fun z => decide (z.val < 8)) = true ∧ run.me.vt ≠ .fa56 := by decide
theorem witness_vector_reductions_and_movement :
    run.reads (.g 31) = true ∧ run.readsV 15 = true ∧ run.readsZ (some (.g 31)) = true ∧ acceptsArith .fp32 = true ∧
      acceptsArith .i8 = true ∧ (Fmt.m64 ≠ .fa56) ∧ run.readsVZ (some 15) = true := by decide
/-- Each element type that the conversions accept, and those that take ILLCOMBO. -/
theorem witness_vector_conversions :
    run.readsV 15 = true ∧ run.me.vt = .fp32 ∧ run.me.vt ≠ .fa56 ∧ run.me.vt ≠ .m64 ∧
      (∀ f ∈ [Fmt.e4m3, .e5m2, .ds8], (some f).getD run.me.vt ≠ .fa56 ∧ (some f).getD run.me.vt ≠ .m64) ∧
      run.me.tvec ≠ 0 ∧ run.me.intrap = false ∧ (some Fmt.i8 ≠ some .e4m3 ∧ some Fmt.i8 ≠ some .e5m2 ∧ some Fmt.i8 ≠ some .ds8) ∧
      (∀ e ∈ [(14, Fmt.fa56), (15, .m64), (9, .bf16)], let s := run.upd (fun v => { v with fmtw := BitVec.ofNat 16 (e.1 * 256) })
        s.readsV 15 = true ∧ s.me.tvec ≠ 0 ∧ s.me.intrap = false ∧ s.me.vt = e.2) := by decide

/-- Two elements are active; the last ends the window. -/
def short : State := (State.with run (.o 0) (tcmWindow + 2 ^ 18 - 8)).upd (fun v => { v with vl := 2 })
def shortPaged : State := (State.with paged (.o 0) 0x10FF8).upd (fun v => { v with vl := 2 })
/-- The active elements of a unit-stride access. -/
def actives (s : State) : List Nat := (List.range 32).filter (isActive s none 32 (min s.me.vl.toNat 32))
def elemsOf (s : State) : List (Nat × Nat) := (actives s).map (fun k => (k, (s.g (.o 0) + 0 + (BitVec.ofNat 64 (k * 4) + 0)).toNat))
/-- Of the own TCM the elements are there at once; of DRAM they wait. -/
theorem witness_vector_loads :
    ∀ e ∈ [(short, true), (shortPaged, false)],
      e.1.readsV 15 = true ∧ e.1.reads (.o 0) = true ∧ e.1.readsZ none = true ∧ (none : Option Fmt).getD e.1.me.vt ≠ .fa56 ∧
      okAnd (checkElems 4 ⟨0, false, true, false⟩ e.1 (elemsOf e.1)) (fun r =>
        r.2.length == 2 && r.2.all (fun m => !isRemote r.1.cur m.place) &&
        okAnd (readElems r.1.cur 4 .page (acquireOf r.1 none) r.2) (fun x =>
          x.2.2 == e.2 && x.1.cur == r.1.cur && x.2.1.all (fun g => g.2.length == 4))) = true := by decide +kernel
/-- No element is active: VL is 0. -/
theorem witness_vector_loads_none :
    let s := short.upd (fun v => { v with vl := 0 })
    okAnd (checkElems 4 ⟨0, false, true, false⟩ s (elemsOf s)) (fun r => r.2 == [] &&
      okAnd (readElems r.1.cur 4 .page (acquireOf r.1 none) r.2) (fun x => x.1.cur == r.1.cur && x.2.1 == [])) = true ∧
    (List.range 32).any (isActive s none 32 (min s.me.vl.toNat 32)) = false := by decide +kernel
theorem witness_vector_loads_window :
    ∀ k ∈ actives short, let va := (short.g (.o 0) + 0 + (BitVec.ofNat 64 (k * 4) + 0)).toNat
      short.inTcm va 4 ∧ va % 4 = 0 ∧ short.intact va 4 ∧ newestOverlap short.me (short.tcmPlace va).pa 4 = none := by
  unfold State.inTcm State.intact
  decide +kernel
theorem witness_vector_loads_broadcast :
    let va := effAddr short (.o 0) (none : Option GReg) 0 4
    (List.range 32).any (isActive short none 32 (min short.me.vl.toNat 32)) = true ∧
    okAnd (checkElems 4 ⟨0, false, true, false⟩ short [(0, va)]) (fun r =>
      match r.2 with
      | [m] => !isRemote r.1.cur m.place && okAnd (readPlace (acquireOf r.1 none) r.1.cur m.place 4 .page) (fun x =>
          x.2.2 && x.1.cur == r.1.cur && x.2.1.length == 4)
      | _ => false) = true ∧
    short.inTcm va 4 ∧ va % 4 = 0 ∧ short.intact va 4 ∧ newestOverlap short.me (short.tcmPlace va).pa 4 = none := by
  unfold State.inTcm State.intact
  decide +kernel
/-- Without a release, and with one at `.th`, `.ac` and `.ha`, with engine order. -/
theorem witness_vector_stores :
    ∀ o ∈ [none, some Scope.th, some .ac, some .ha], let ord : Option OrdQ := o.map (fun sc => ⟨sc, .rel, true, .page⟩)
      short.readsV 15 = true ∧ short.reads (.o 0) = true ∧ releaseOf ord = o ∧
      okAnd (checkElems 4 ⟨1, true, true, false⟩ short (elemsOf short)) (fun r =>
        let w := r.1.released (engineOf ord) (releaseOf ord)
        r.2.length == 2 && r.2.all (fun m => !isRemote r.1.cur m.place) && decide (r.1.me.storeQ.length + r.2.length ≤ 32) &&
          decide (forwardCount r.1 (ctxStall r.1.cur) + r.2.length ≤ 16) && r.1.cur == short.cur && w.cur == r.1.cur &&
          freeToRelease r.1) = true := by decide +kernel
theorem witness_vector_stores_window :
    (∀ k ∈ actives short, let va := (short.g (.o 0) + 0 + (BitVec.ofNat 64 (k * 4) + 0)).toNat
      short.inTcm va 4 ∧ va % 4 = 0) ∧ short.me.storeQ.length + (actives short).length ≤ 32 ∧
      forwardCount short (ctxStall short.cur) + (actives short).length ≤ 16 := by
  unfold State.inTcm
  decide +kernel
theorem witness_moment_elements :
    run.readsV 15 = true ∧ run.readsVZ (some 15) = true ∧ (List.range 16).any (isActive run none 64 (min run.me.vl.toNat 16)) = true := by
  decide
theorem witness_moment_reductions_and_parts :
    run.readsV 15 = true ∧ run.readsZ (some (.g 31)) = true ∧ run.reads (.g 31) = true ∧
      run.readsZ ((some (ColMode.sample, GReg.g 31)).map (·.2)) = true := by decide

/-! Witnesses: the matrix unit. -/

/-- Context 0 holds pair 3 of its stall. -/
def held : State := run.updStall 0 (fun k => k.setPair 3 ⟨some 0, false, false, false, 0x3F800000, 0x3F800000⟩)
/-- A region that binds context 0 and allows no pair. -/
def region : Region :=
  { rcb := 0x20000, place := ⟨0x20000, true, false, 0, 0⟩, words := [], donejc := 0, st := 3, since := 0, held := false, bound := [(0, 0)],
    former := [], loaded := [], left := 0, casr := 0, up := 0, acq := none, ending := none, live := 1, abort := false, phase := false, expected := 1, quota := [] }
def inRegion (r : Region) : State :=
  (run.updPkg 0 (fun p => { p with regions := [r] })).upd (fun v => { v with rcbp := BitVec.ofNat 64 r.rcb })

theorem witness_accumulator_pairs :
    run.reads (.g 31) = true ∧ held.held held.cur = some 3 ∧ run.held run.cur = none ∧
      banksBusy held (ctxStall held.cur) [(3, 0), (3, 1)] = false ∧ (1 : Idx).val < 2 := by decide
theorem witness_accumulator_pairs_budget :
    (inRegion region).held 0 = none ∧ pairBudgetSpent (inRegion region) 0 = true ∧ pairBudgetSpent run 0 = false := by decide
/-- Pairs 0 to 2 are held, or being cleared: pair 3 is granted. With pair 3 held as well none is free. -/
theorem witness_accumulator_pairs_last :
    let taken (i c : Nat) (k : Stall) : Stall := k.setPair i ⟨some c, false, false, false, 0x3F800000, 0x3F800000⟩
    let s := run.updStall 0 (fun k => (taken 0 1 (taken 1 2 k)).setPair 2 ⟨none, true, false, false, 0x3F800000, 0x3F800000⟩)
    (((s.stall 0).pair 3).holder = none ∧ ((s.stall 0).pair 3).clearing = false ∧ s.held 0 = none ∧ pairBudgetSpent s 0 = false ∧
      ∀ q < 3, ((s.stall 0).pair q).holder ≠ none ∨ ((s.stall 0).pair q).clearing = true) ∧
    (let t := s.updStall 0 (taken 3 3)
     t.held 0 = none ∧ pairBudgetSpent t 0 = false ∧
      ∀ q < 4, ((t.stall 0).pair q).holder ≠ none ∨ ((t.stall 0).pair q).clearing = true) := by decide
theorem witness_accumulator_rows :
    held.held held.cur = some 3 ∧ held.reads (.g 31) = true ∧ held.readsV 15 = true ∧ (1 : Idx).val < 2 ∧
      banksBusy held (ctxStall held.cur) [(3, 1)] = false ∧ (held.me.vt == .fp32) = true ∧ held.me.vt ≠ .m64 ∧ held.me.vt ≠ .fa56 ∧
      ((held.myStall.pair 3).mode 1 = true → held.me.vt.int?.isSome = true) := by decide

/-- The other types: a q56 bank takes the integer types alone, and neither m64 nor fa56 goes through a vector register. -/
theorem witness_accumulator_rows_combinations :
    (∀ f ∈ [Fmt.m64, .fa56], (held.upd (fun v => { v with fmtw := BitVec.ofNat 16 ((if f = .m64 then 15 else 14) * 256) })).me.vt = f) ∧
      (let s := held.updStall 0 (fun k => k.setPair 3 ⟨some 0, false, false, true, 0x3F800000, 0x3F800000⟩)
       (s.myStall.pair 3).mode 1 = true ∧ s.me.vt.int?.isSome = false) ∧
      held.me.tvec ≠ 0 ∧ held.me.intrap = false := by decide
theorem witness_accumulator_pairs_waiting :
    let s := held.upd (fun v => { v with wait := .pair 3 0 })
    (s.ctx 0).waitsForPair = true ∧ ctxStall 0 = 0 ∧ 0 ∈ s.ctxs.map (·.1) := by decide

/-- A tile descriptor (Table 06-1) without scales. -/
def tile (base space fmt rows cols stride : Nat) : Word128 :=
  BitVec.ofNat 128 (base + space * 2 ^ 57 + fmt * 2 ^ 60 + (rows - 1) * 2 ^ 64 + (cols - 1) * 2 ^ 71 + stride * 2 ^ 78)
/-- Tiles t6 and t7 of TCM, fp32: 1 by 16 and 16 by 1. -/
def tiled : State :=
  held.upd (fun v => (v.setTile 6 (tile tcmWindow 2 8 1 16 16)).setTile 7 (tile (tcmWindow + 2 ^ 18 - 64) 2 8 16 1 1))
def accepted (s : State) (r : Except Stop (State × List Tlb)) : Bool :=
  okAnd r (fun e => e.1.cur == s.cur && decide (e.1.me = s.me) && (storeHeldBy (drain e.1 e.1.cur) e.1.cur).isNone &&
    decide ((queueOf (e.1.stall 0) false).length < 4) && decide ((queueOf (e.1.stall 0) true).length < 4))
theorem witness_matrix_commands_accepted :
    tiled.held tiled.cur = some 3 ∧ (7 : Idx).val < 8 ∧
    accepted tiled (checkMma translate false tiled 0 3 1 (tileOf (tiled.me.tile 6)) (tileOf (tiled.me.tile 7)) tiled.me.sclp) = true := by
  decide
theorem witness_matrix_commands_accepted_moment :
    let s := held.upd (fun v => (v.setTile 6 (tile tcmWindow 2 15 1 16 16)).setTile 7 (tile (tcmWindow + 2 ^ 18 - 64) 2 8 16 1 1))
    accepted s (checkMma translate true s 0 3 0 (tileOf (s.me.tile 6)) (tileOf (s.me.tile 7)) s.me.sclp) = true := by decide
/-- A square fp32 tile, and right sides of one column. -/
def square : State :=
  run.upd (fun v => (((v.setTile 4 (tile tcmWindow 2 8 2 2 2)).setTile 5 (tile (tcmWindow + 64) 2 8 2 2 2)).setTile 6
    (tile (tcmWindow + 128) 2 8 2 1 1)).setTile 7 (tile (tcmWindow + 192) 2 8 2 1 1))
def useOf (oper i : Nat) (writes : Bool) : TileUse := ⟨oper, tileOf (square.me.tile i), 0, 0, true, writes⟩
theorem witness_matrix_commands_accepted_solvers :
    (∀ i ∈ [4, 5], ∀ w ∈ [true, false], solverCombo (useOf 0 i w)
      ((tileOf (square.me.tile i)).rows == (tileOf (square.me.tile i)).cols && decide ((tileOf (square.me.tile i)).rows ≤ 64)) = .ok ()) ∧
    (∀ i ∈ [6, 7], ∀ w ∈ [true, false], solverCombo (useOf 1 i w)
      ((tileOf (square.me.tile i)).rows == 2 && decide ((tileOf (square.me.tile i)).cols ≤ 8)) = .ok ()) ∧
    accepted square (checkTiles translate square 0 0 [useOf 0 4 true]) = true ∧
    accepted square (checkTiles translate square 0 0 [useOf 0 4 false, useOf 1 6 true]) = true ∧
    accepted square (checkTiles translate square 0 0 [useOf 0 4 false, useOf 0 5 false, useOf 1 6 false, useOf 1 7 true]) = true := by
  decide

/-- The operands of a pairing in the own TCM: fp32, a 4-bit integer pair for a q56 bank, and a moment word with fp32. -/
theorem witness_matrix_commands_in_tcm :
    let ta := tileOf (tile tcmWindow 2 8 1 16 16)
    let tb := tileOf (tile (tcmWindow + 2 ^ 18 - 64) 2 8 16 1 1)
    let m := tileOf (tile tcmWindow 2 15 64 16 16)
    let f := tileOf (tile (tcmWindow + 2 ^ 18 - 4096) 2 8 16 64 64)
    held.cur < ctxLimit ∧ (∀ t ∈ [ta, tb, m, f], t.plainTcm) ∧
      mmaPairing ta.fmt tb.fmt = some ((held.myStall.pair 3).mode 1) ∧ ta.cols = tb.rows ∧ ta.cols % groupSize ta.fmt tb.fmt = 0 ∧
      ta.rows ≤ 64 ∧ tb.cols ≤ 64 ∧ mmamPairing m.fmt f.fmt ≠ none ∧ m.cols = f.rows ∧ m.cols % groupSize m.fmt f.fmt = 0 ∧ m.rows ≤ 64 ∧
      f.cols ≤ 64 ∧ (held.myStall.pair 3).q0 = false ∧ (held.myStall.pair 3).q1 = false ∧ held.me.mmode = 0 := by
  unfold Tile.plainTcm
  decide +kernel
theorem witness_matrix_commands_solvers_in_tcm :
    (∀ i ∈ [4, 5, 6, 7], (tileOf (square.me.tile i)).plainTcm ∧ (tileOf (square.me.tile i)).fmt = .fp32) ∧
      (tileOf (square.me.tile 5)).rows = (tileOf (square.me.tile 5)).cols ∧
      (tileOf (square.me.tile 7)).rows = (tileOf (square.me.tile 5)).rows := by
  unfold Tile.plainTcm
  decide +kernel
/-- A command on bank 1 of pair 3. -/
def command : Cmd :=
  { seq := 0, kind := .mma false, high := false, ctx := 0, pair := 3, bank := 1, a := tile tcmWindow 2 8 1 16 16,
    b := tile (tcmWindow + 2 ^ 18 - 64) 2 8 16 1 1, a2 := 0, b2 := 0, zval := 0, sclp := 0, dest := none, trans := [], early := [] }
/-- The queue of the low class holds four commands: a fifth waits. -/
theorem witness_matrix_commands_full_queue :
    let s := tiled.updStall 0 (fun k => { k with low := List.replicate 4 command })
    4 ≤ (queueOf s.myStall false).length ∧ (queueOf s.myStall true).length < 4 := by decide

def lowQueue (l : List Cmd) : State := held.updStall 0 (fun k => { k with low := l })
theorem witness_matrix_unit_events_start :
    let s := lowQueue [command]
    (s.stall 0).running = none ∧ (s.stall 0).halted = false ∧ pickCmd (s.stall 0) = some (command, 0) ∧
      (s.stall 0).transfers.any (fun t => t.banks.any command.banks.contains) = false ∧ pickCmd (held.stall 0) = none := by decide
/-- A second command starts while the cells of the first are still to be written; a third does not. -/
theorem witness_matrix_unit_events_second :
    let s := (lowQueue [{ command with seq := 1, bank := 0 }]).updStall 0 (fun k => { k with running := some command })
    let t := s.updStall 0 (fun k => { k with closing := [{ command with seq := 2 }] })
    (s.stall 0).closing = [] ∧ (pickCmd (s.stall 0)).isSome = true ∧ (t.stall 0).running.isSome = true ∧ (t.stall 0).closing ≠ [] := by
  decide
/-- After eight starts of the high class a command of the low class goes first. -/
theorem witness_matrix_unit_events_pick :
    let v := { (lowQueue [command]).stall 0 with high := [{ command with seq := 1, bank := 0, high := true }], highStarts := 8 }
    pickCmd v = some (command, 0) ∧ (v.high.any (eligible v)) = true ∧ (v.low.any (eligible v)) = true ∧
      (pickCmd { v with highStarts := 7 }).any (fun e => e.2 == 8) = true := by decide
/-- A command of the high class that runs, or whose cells are still to be made final, keeps a later one of the low class off its bank. -/
theorem witness_matrix_unit_events_barred :
    let first : Cmd := { command with high := true }
    ∀ s ∈ [(lowQueue [{ command with seq := 1 }]).updStall 0 (fun k => { k with running := some first }),
        (lowQueue [{ command with seq := 1 }]).updStall 0 (fun k => { k with closing := [first] })],
      pickCmd (s.stall 0) = none ∧ (s.stall 0).low = [{ command with seq := 1 }] ∧
        (∃ o ∈ (s.stall 0).running.toList ++ (s.stall 0).closing, o.high ≠ false ∧ o.seq < 1 ∧ ∃ b ∈ command.banks, b ∈ o.banks) := by
  decide
/-- A transfer holds the bank of the command that would start. -/
theorem witness_matrix_unit_events_busy :
    let s := (lowQueue [command]).updStall 0 (fun k => { k with transfers := [⟨0, 3, 1, false, tcmWindow, 512, [], [], false⟩] })
    (s.stall 0).transfers.any (fun t => t.banks.any command.banks.contains) = true ∧ pickCmd (s.stall 0) = some (command, 0) := by decide
def working (x : Cmd) : State := held.updStall 0 (fun k => { k with running := some x })
theorem witness_matrix_unit_events_complete :
    ∀ kind ∈ [CmdKind.mma false, .mma true, .mmam],
      let x := { command with kind := kind }
      let s := working x
      (popCmd (s.stall 0)).map (·.1) = some x ∧ readsPosted s x = false ∧ x.bank < 2 ∧
        readsBad (runReads s x).2 = none ∧ ((s.stall 0).pair x.pair).holder = some 0 ∧ popCmd (held.stall 0) = none := by decide +kernel
/-- A byte of an operand is in error. -/
theorem witness_matrix_unit_events_error :
    let s := { working command with poison := Store.set false [] (tcmBase 0) true }
    readsBad (runReads s command).2 = some tcmWindow := by decide +kernel
theorem witness_matrix_unit_events_solver :
    ∀ kind ∈ [CmdKind.chol, .trsl, .trsu, .rfn],
      let x := { command with kind := kind, pair := 4, a := square.me.tile 4, b := square.me.tile 6, a2 := square.me.tile 5,
                              b2 := square.me.tile 7 }
      (runSolver (working x) x).2.2.2 = none := by decide +kernel
theorem witness_matrix_unit_events_recurrences :
    let m : Mat := ⟨1, #[oneF]⟩
    m.cols = 1 ∧ m.elems.size = 1 * 1 ∧ (choleskyFrom 1 1 0 m).2 = 1 ∧ #[oneF].size = 1 := by decide +kernel
theorem witness_matrix_unit_events_transfer :
    let x (both : Bool) : Transfer := ⟨0, 3, 1, both, tcmWindow, 512, [], [], false⟩
    ((held.updStall 0 (fun k => { k with transfers := [x false, x true] })).stall 0).transfers = [x false, x true] ∧ (x false).bank < 2 ∧
      (held.ctx 0).posted = 0 := by decide
theorem witness_tile_registers :
    (7 : Idx).val < 8 ∧ run.reads (.g 31) = true ∧ run.readsZ (some (.g 31)) = true ∧ (tileOf (run.me.tile 7)).fmt ≠ .fa56 := by decide
theorem witness_tile_registers_fa56 :
    let s := run.upd (fun v => v.setTile 7 (tile tcmWindow 2 14 1 1 1))
    (tileOf (s.me.tile 7)).fmt = .fa56 ∧ s.me.tvec ≠ 0 ∧ s.me.intrap = false := by decide
theorem witness_matrix_wait :
    (let s := lowQueue [command]
     let count := countFor s 0 false + handedFor s 0 false + (countFor s 0 true + handedFor s 0 true)
     s.reads (.o 0) = true ∧ (s.g (.o 0)).toNat < count ∧ count ≤ ((State.with s (.o 0) 1).g (.o 0)).toNat) := by decide

/-- The 4,096 addresses of a bank transfer to the own TCM. -/
theorem transfer_addrs {va : Nat} (h : va ∈ cellAddrs tcmWindow 512) : tcmWindow ≤ va ∧ va + 8 ≤ tcmWindow + 2 ^ 18 ∧ va % 8 = 0 := by
  simp only [cellAddrs, List.mem_flatMap, List.mem_map, List.mem_range] at h
  obtain ⟨i, hi, j, hj, rfl⟩ := h
  unfold tcmWindow
  omega
theorem witness_bank_transfers (a : Acc) : checkTransfer held tcmWindow 512 a = .ok (held, []) := by
  have hn : (cellAddrs tcmWindow 512).find? (fun x => x % 8 != 0) = none := by
    rw [List.find?_eq_none]
    intro x hx
    simp [(transfer_addrs hx).2.2]
  unfold checkTransfer
  simp only [hn]
  refine checkAddrs_tcm held (by decide) a _ (fun va hva => ?_)
  have h := transfer_addrs hva
  exact ⟨h.1, Nat.lt_of_lt_of_le (Nat.lt_add_of_pos_right (by decide)) h.2.1⟩
theorem witness_bank_transfers_in_tcm {va : Nat} (h : va ∈ cellAddrs tcmWindow 512) :
    held.inTcm va 8 ∧ va % 8 = 0 ∧ held.intact va 8 := by
  refine ⟨⟨by decide, (transfer_addrs h).1, (transfer_addrs h).2.1⟩, (transfer_addrs h).2.2, fun i _ => ?_⟩
  generalize (held.tcmPlace va).pa + i = a
  rfl
theorem transfer_place {va : Nat} (h1 : tcmWindow ≤ va) (h2 : va < tcmWindow + 2 ^ 18) :
    placeThrough 0 [] va = ⟨tcmBase 0 + (va - tcmWindow), false, false, 0, 1⟩ := by
  unfold placeThrough
  rw [if_pos (Nat.le_trans windowBase_le_tcmWindow h1), windowPa_tcm h1 h2, show ctxStall 0 = 0 from rfl, Option.getD_some]
theorem held_sound (p : Place) (h : p.cached = false) : isPoisoned held 0 p 8 = false := by
  have hl : held.l2 = [] := rfl
  have hb : held.poison = [] := rfl
  simp [isPoisoned, h, homeBad, homeLine, hl, hb]
theorem witness_bank_transfers_addresses {va : Nat} (h : va ∈ cellAddrs tcmWindow 512) :
    isPoisoned held 0 (placeThrough 0 [] va) 8 = false := by
  have h' := transfer_addrs h
  refine held_sound _ ?_
  rw [transfer_place h'.1 (Nat.lt_of_lt_of_le (Nat.lt_add_of_pos_right (by decide)) h'.2.1)]
theorem witness_bank_transfers_state :
    held.held held.cur = some 3 ∧ ((State.with held (.o 0) tcmWindow).g (.o 0) + 0).toNat = tcmWindow ∧ held.reads (.o 0) = true ∧
      held.readsZ none = true ∧ releaseOf none = none ∧ banksBusy held 0 [(3, 0), (3, 1)] = false ∧ banksBusy held 0 [(3, 1)] = false ∧
      ((held.stall 0).pair 3).q0 = false ∧ ((held.stall 0).pair 3).q1 = false ∧ storeHeldBy (drain held 0) 0 = none ∧
      held.me.storeQ = [] := by decide
/-- A bank of another package's page, with a pitch of 0, while a posted store of the context is under way. -/
def farHeld : State :=
  ((held.updPkg 0 (fun p => { p with ysize := 2 })).updStall 0 (fun k => { k with tlb := [farPage] })).upd (fun v => { v with posted := 1 })
theorem far_addrs {va : Nat} (h : va ∈ cellAddrs 0x20000 0) : va ∈ (List.range 64).map (fun j => 0x20000 + 8 * j) := by
  simp only [cellAddrs, List.mem_flatMap, List.mem_map, List.mem_range] at h ⊢
  obtain ⟨_, _, j, hj, rfl⟩ := h
  exact ⟨j, hj, by omega⟩
theorem far_translates :
    ∀ va ∈ (List.range 64).map (fun j => 0x20000 + 8 * j), va % 8 = 0 ∧ usedTlb farHeld farHeld.cur va = [farPage] ∧
      okAnd (translate farHeld va ⟨0, false, false, false⟩) (fun r => r.1 == farHeld) = true ∧
      isRemote 0 (placeThrough 0 [farPage] va) = true ∧ isPoisoned farHeld 0 (placeThrough 0 [farPage] va) 8 = false := by decide +kernel
theorem far_checked (l : List Nat) (h : ∀ va ∈ l, va ∈ (List.range 64).map (fun j => 0x20000 + 8 * j)) (ts : List Tlb)
    (ht : ts = [farPage] ∨ (ts = [] ∧ l ≠ [])) :
    checkAddrs translate farHeld.cur ⟨0, false, false, false⟩ farHeld ts l = .ok (farHeld, [farPage]) := by
  induction l generalizing ts with
  | nil =>
    obtain rfl | h := ht
    · rfl
    · exact absurd rfl h.2
  | cons va r ih =>
    have hv := far_translates va (h va (List.mem_cons_self ..))
    unfold checkAddrs
    cases hx : translate farHeld va ⟨0, false, false, false⟩ with
    | error e => rw [hx] at hv; exact absurd hv.2.2.1 (by simp [okAnd])
    | ok p =>
      obtain ⟨s1, x⟩ := p
      rw [hx] at hv
      have hs : s1 = farHeld := by simpa [okAnd] using hv.2.2.1
      subst hs
      have hr := ih (fun x hx => h x (List.mem_cons_of_mem _ hx)) [farPage] (.inl rfl)
      obtain rfl | ⟨rfl, -⟩ := ht <;> simpa [hv.2.1] using hr
theorem witness_bank_transfers_far : checkTransfer farHeld 0x20000 0 ⟨0, false, false, false⟩ = .ok (farHeld, [farPage]) := by
  have hn : (cellAddrs 0x20000 0).find? (fun x => x % 8 != 0) = none := by
    rw [List.find?_eq_none]
    intro x hx
    simp [(far_translates x (far_addrs hx)).1]
  unfold checkTransfer
  simp only [hn]
  refine far_checked _ (fun va h => far_addrs h) [] (.inr ⟨rfl, fun h => ?_⟩)
  have : (0x20000 + 0 * 0 + 8 * 0) % 2 ^ 64 ∈ cellAddrs 0x20000 0 := by
    simp only [cellAddrs, List.mem_flatMap, List.mem_map, List.mem_range]
    exact ⟨0, by decide, 0, by decide, rfl⟩
  rw [h] at this
  exact absurd this List.not_mem_nil
theorem witness_bank_transfers_behind :
    farHeld.me.posted ≠ 0 ∧ storeHeldBy (drain farHeld 0) 0 = none ∧ farHeld.held farHeld.cur = some 3 ∧
      (acquireScope (some ⟨.ac, .acq, false, .page⟩)).isSome = true ∧ (acquireScope none).isSome = false ∧
      ∀ va ∈ cellAddrs 0x20000 0, isRemote 0 (placeThrough 0 [farPage] va) = true ∧
        isPoisoned farHeld 0 (placeThrough 0 [farPage] va) 8 = false :=
  ⟨by decide, by decide, by decide, by decide, by decide, fun va h => ⟨(far_translates va (far_addrs h)).2.2.2.1,
    (far_translates va (far_addrs h)).2.2.2.2⟩⟩

/-! Witnesses: tasks, frames, counters. -/

/-- Context 0 runs a task whose frame and parent's frame lie in TCM, with its counter in slot 1 and its parent's in slot 2 of arcade 0. -/
def task : State :=
  run.upd (fun v => { v with
    framep := BitVec.ofNat 64 tcmWindow, pframe := BitVec.ofNat 64 (tcmWindow + 128), ownjc := BitVec.ofNat 64 (scratchWindow + 8),
    parjc := BitVec.ofNat 64 (scratchWindow + 16) })
/-- The word of a counter slot of arcade 0. -/
def counted (s : State) (slot word : Nat) : State := putBytes s (scratchBase 0 + 8 * slot) (leBytes 8 word)

/-- SPAWN, SPAWNA and SPAWNF with a label and with a register target, the deque one short of full. -/
theorem witness_spawning :
    ∀ b ∈ [true, false],
    let s := (State.with (State.with task (.o 0) (tcmWindow + 256)) (.o 1) 0x2000).upd (fun v => { v with
      deque := List.replicate 31 ⟨0x1000, tcmWindow + 128, 0, 0, false⟩ })
    let v := s.me
    s.reads (.o 0) = true ∧ v.okG 2 (.o 6) = true ∧ (s.g (.o 0)).toNat % 64 = 0 ∧ (s.g (.o 0)).toNat ≠ v.framep.toNat ∧
      s.held s.cur = none ∧ v.deque.length < 32 ∧ s.reads (.o 1) = true ∧ checkTarget v (s.g (.o 1)) = .ok 0x2000 ∧
      (b = true → branchTarget v 4 = v.pc + 8) ∧
      okAnd (do
        let s1 ← checkSpan translate ⟨5, true, false, false⟩ s (s.g (.o 0)).toNat 128
        let s2 ← checkSpan translate ⟨5, true, false, false⟩ s1 v.framep.toNat 128
        let s3 ← settle s2
        let u0 ← writeHeader translate s.cur false s3 v.framep.toNat v.nextPc.toNat ⟨v.flags, 0, v.nt, false, false, false, v.root⟩
        let (u2, own) ← readWord translate s.cur false
          (u0.upd (fun w => { w with deque := w.deque ++ [⟨v.nextPc.toNat, v.framep.toNat, v.nt, 0, false⟩] }))
          ((s.g (.o 0)).toNat + 0x10) 8
        let u4 ← writeWord translate s.cur false (newTag u2 0).1 ((s.g (.o 0)).toNat + 0x08) 8 v.framep.toNat
        writeSpan translate s.cur ⟨5, true, false, false⟩ u4 ((s.g (.o 0)).toNat + 0x18) (leBytes 8 own ++ leBytes 4 0 ++ leBytes 4 0))
        (fun _ => true) = true := by decide

/-- The same with both frames in the own TCM, aligned, and nothing issued before. -/
theorem witness_spawning_in_tcm :
    let s := State.with (State.with task (.o 0) (tcmWindow + 2 ^ 18 - 128)) (.o 1) 0x2000
    s.reads (.o 0) = true ∧ (s.g (.o 0)).toNat % 64 = 0 ∧ s.inTcm (s.g (.o 0)).toNat 128 ∧ s.inTcm s.me.framep.toNat 128 ∧
      s.me.framep.toNat % 64 = 0 ∧ s.me.storeQ = [] ∧ s.reads (.o 1) = true ∧ s.me.okG 1 (.o 1) = true ∧
      (s.g (.o 1)).toNat < 2 ^ 57 ∧ (s.g (.o 1)).toNat % 2 = 0 ∧ s.me.pc.toNat % 2 = 0 ∧ s.held s.cur = none ∧
      s.me.deque.length < 32 := by
  unfold State.inTcm
  decide

/-- A region whose overflow queue of 64 entries, LWM 16, lies in TCM. -/
def spillRegion : Region := { region with words := (List.replicate 32 0).set 13 (tcmWindow + 0x1000) }
/-- Context 0 of the region with a full deque of continuations of the parent's frame, whose header names a counter, and `used` entries in
the queue. -/
def spilling (used counter : Nat) : State :=
  putBytes (putBytes (((State.with task (.o 0) (tcmWindow + 256)).updPkg 0 (fun p => { p with regions := [spillRegion] })).upd (fun v =>
      { v with rcbp := 0x20000, deque := List.replicate 32 ⟨0x1000, tcmWindow + 128, 0, 0, false⟩ }))
    (tcmBase 0 + 0x1000) (leBytes 8 0 ++ leBytes 8 used ++ leBytes 8 64 ++ leBytes 8 16)) (tcmBase 0 + 128 + 0x10) (leBytes 8 counter)
/-- The queue has room for a spill with 32 entries in it, not with 33; without a counter nothing is spilled. -/
theorem witness_spawning_full :
    (∀ e ∈ [(32, scratchWindow + 16, true), (33, scratchWindow + 16, false), (32, 0, true)],
      let s := spilling e.1 e.2.1
      s.regionOf 0 = some spillRegion ∧ s.me.deque.length = 32 ∧ spillRoom s 0 = e.2.2 ∧ freeToRelease s = true ∧
        okAnd (settle s) (fun _ => true) = true ∧ s.held 0 = none ∧
        okAnd (spill16 (s.released false (some (joinScopeOf s 0))) 0) (fun r =>
          r.isSome == (e.2.2 && e.2.1 != 0)) = true) ∧
    okAnd (readQueue (translateFor 0) 0 false (spilling 32 (scratchWindow + 16)) spillRegion.ovq) (fun x =>
      decide (16 + x.2.lwm ≤ x.2.free) &&
      okAnd ((x.1.me.deque.take 16).foldlM (fun t e => do
        let (t1, pa) ← ownCounterOf t 0 e.frame
        let (t2, _) ← contextOp t1 0 pa .jinc
        pure t2) x.1) (fun y => okAnd (pushEntries (translateFor 0) 0 false y spillRegion.ovq x.2
          ((x.1.me.deque.take 16).map (fun e => { e with spilled := true }))) (fun _ => true))) = true := by decide +kernel
/-- Both ways in: the parent behind the deque's entries, or suspended at its counter. -/
theorem witness_spawning_enters :
    let s := spilling 33 (scratchWindow + 16)
    okAnd (writeHeader translate 0 false s tcmWindow 0x2000 ⟨0, 0, 0, false, false, false, false⟩) (fun u0 =>
      okAnd (locateCounter translate u0 true false s.me.ownjc.toNat) (fun p => okAnd (contextOp p.1 0 p.2 .jcall) (fun x =>
        ([u0, suspendAt x.1 p.2 ⟨0x2000, tcmWindow, 0, 0, true⟩ 0x20000].all (fun u1 =>
          okAnd (readWord translate 0 false u1 (tcmWindow + 256 + 0x10) 8) (fun u2 =>
            okAnd (writeWord translate 0 false (newTag u2.1 0).1 (tcmWindow + 256 + 0x08) 8 tcmWindow) (fun u4 =>
              okAnd (writeSpan translate 0 ⟨5, true, false, false⟩ u4 (tcmWindow + 256 + 0x18) (leBytes 16 0)) (fun _ => true)))))))) =
      true := by decide +kernel

/-- The join of TEND goes through, and a condition holds of the state then and of the counter. -/
def ending (s : State) (p : State → Nat → Bool) : Bool :=
  decide (s.me.flags &&& s.me.ten = 0) && s.me.saved.isNone && okAnd (flagWait s) (fun _ => okAnd (settle s) (fun s0 =>
    okAnd (locateCounter translate s0 true (!s.me.pl) s.me.ownjc.toNat) (fun r => okAnd (atCounter (.issue s.cur) r.1 s.cur r.2) (fun s1 =>
      let t := acquireCaches s1 s.cur (joinScopeOf s s.cur)
      (readCounter s1 r.2).count == 0 && okAnd (waitBanks t (heldBanks t t.cur)) (fun _ => p t r.2)))))
theorem witness_ends_of_tasks_root : ending (task.upd (fun v => { v with root := true })) (fun t _ => t.me.root) = true := by
  decide +kernel
theorem witness_ends_of_tasks_own_counter :
    task.ownCounter task.me.ownjc.toNat ∧ (readCounter task (task.counterPlace task.me.ownjc.toNat)).count = 0 := by
  unfold State.ownCounter
  decide +kernel
theorem witness_ends_of_tasks_to_parent :
    let e : Entry := ⟨0x1000, tcmWindow + 128, 0, 0, false⟩
    ending (task.upd (fun v => { v with deque := [e] })) (fun t own =>
      !t.me.root && t.me.deque.getLast? == some e && e.frame == t.me.pframe.toNat && t.me.pframe != 0 &&
        ((taskOver (freeOwn t t.cur own) t.cur).ctx t.cur).deque == t.me.deque) = true := by decide +kernel
/-- The parent's counter answers RESUME, RELEASE, below zero, or nothing. -/
theorem witness_ends_of_tasks_by_counter :
    ∀ e ∈ [(2 ^ 48 + 1, CounterResult.resume), (2 ^ 49 + 1, .release), (0, .under), (2 ^ 48 + 2, .none)],
      ending (counted task 2 e.1) (fun t _ =>
        !t.me.root && (parentAtTail t.me).isNone && !t.me.parjc.toNat.testBit 63 &&
        okAnd (locateCounter translate t true (!t.me.pl) t.me.parjc.toNat) (fun r => freeToRelease r.1 &&
          okAnd (contextDec (r.1.released false (some (counterScope t.cur r.2))) t.cur r.2 .jdec) (fun x => x.2 == e.2))) = true := by
  decide +kernel
theorem witness_ends_of_tasks_remote :
    ending (task.upd (fun v => { v with parjc := BitVec.ofNat 64 (2 ^ 63 + 2 ^ 43 + scratchBase 0) })) (fun t _ =>
      !t.me.root && (parentAtTail t.me).isNone && t.me.parjc.toNat.testBit 63 && freeToRelease t) = true := by decide +kernel
theorem witness_ends_of_tasks_others :
    (task.stall (ctxStall 0)).tracec = 0 ∧ task.me.dying = none ∧ task.reads (.g 31) = true ∧ task.me.deque = [] ∧
    okAnd (readHeader (translateFor 0) 0 false task tcmWindow) (fun r =>
      !bitOf r.2.fflags 1 && (r.1.stall 0).tracec == 0 && !isHalted r.1 0) = true ∧
    (let s := task.upd (fun v => { v with flags := 1, ten := 1 })
     flagWait s = .ok () ∧ s.me.flags &&& s.me.ten ≠ 0 ∧ s.me.tvec ≠ 0 ∧ s.me.intrap = false) := by decide +kernel

/-- A frame of TCM of a size, with its counter in slot 1, named by its header too. -/
def framed (size : Nat) : State :=
  putBytes (task.updPkg 0 (fun p => { p with frames := [⟨tcmWindow, size, 0, scratchBase 0 + 8, true⟩] })) (tcmBase 0 + 0x10)
    (leBytes 8 (scratchWindow + 8))
theorem witness_joins_query : task.reads (.g 31) = true ∧ task.ownCounter task.me.ownjc.toNat ∧ task.me.saved = none := by
  unfold State.ownCounter
  decide +kernel
theorem witness_joins_done :
    okAnd (settle task) (fun s0 => okAnd (locateCounter translate s0 true false task.me.ownjc.toNat) (fun r =>
      okAnd (atCounter (.issue 0) r.1 0 r.2) (fun s1 => (readCounter s1 r.2).count == 0 && counterArcade r.2 == ctxArcade 0))) = true := by
  decide +kernel
/-- The join finds children, and a condition holds of the state, the live set and the bytes that the save needs. -/
def suspending (s : State) (p : State → LiveSet → Nat → Bool) : Bool :=
  s.me.saved.isNone && okAnd (settle s) (fun s0 => okAnd (locateCounter translate s0 true (!s.me.pl) s.me.ownjc.toNat) (fun r =>
    okAnd (atCounter (.issue s.cur) r.1 s.cur r.2) (fun s1 =>
      (readCounter s1 r.2).count != 0 && okAnd (waitBanks s1 (heldBanks s1 s1.cur)) (fun _ =>
        let x := saveEntry s1 s1.cur s1.me.pc.toNat
        let l := x.2.getD (LiveSet.whole s1.me)
        p x.1 l (if (s1.held s1.cur).isSome then l.pairAt - 0x80 + 57344 else l.bytes)))))
theorem witness_joins_quota :
    suspending (counted (framed 128) 1 1) (fun s l need =>
      decide (frameSize s s.cur tcmWindow - 0x80 < need) && s.me.tvec != 0 && !s.me.intrap && l.bytes == need) = true := by decide +kernel

/-- A task is saved in a frame of exactly the size it needs. -/
theorem witness_joins_saves :
    suspending (counted (framed 0xB00) 1 1) (fun s2 l need =>
      decide (need ≤ frameSize s2 s2.cur tcmWindow - 0x80) && (s2.held 0).isNone &&
        okAnd (saveRegs translate 0 false s2 tcmWindow l) (fun s3 =>
          okAnd (writeHeader translate 0 false s3 tcmWindow s2.me.pc.toNat ⟨0, 1, 0, false, true, true, false⟩) (fun _ => true))) =
      true := by decide +kernel
/-- A saved task: its children run still, or have ended meanwhile. -/
theorem witness_joins_saved :
    ∀ e ∈ [(1, CounterResult.wait), (0, .zero)],
      let pa := scratchBase 0 + 8
      let s := (counted (framed 0xB00) 1 e.1).upd (fun v => { v with saved := some pa })
      s.me.saved = some pa ∧ counterArcade pa = ctxArcade s.cur ∧ (counterOp s pa .jsus).2 = e.2 ∧
        okAnd (clearSaved (counterOp s pa .jsus).1) (fun _ => true) = true := by decide +kernel

theorem witness_frames_and_tiles_falloc :
    let s := State.with (inRegion region) (.o 0) 65537
    s.reads (.o 0) = true ∧ run.regionOf run.cur = none ∧ s.regionOf s.cur = some region ∧
    65536 < max 128 (((s.g (.o 0)).toNat + 63) / 64 * 64) ∧ okAnd (settle s) (fun _ => true) = true := by decide +kernel
/-- A pool of 64 KiB in TCM, and one free slot of the arcade, the last: a frame of 64 KiB goes to the pool's base wherever the
search starts. -/
def pooled : Region := { region with words := List.replicate 14 0 ++ [tcmWindow + 1] }
def oneSlot : State :=
  (State.with (inRegion pooled) (.o 0) 65536).updArcade 0 (fun a => { a with slots := (List.range 8191).map (fun i => (i, 0)) })

theorem lookup_listed (l : List Nat) (j : Nat) : ((l.map (fun i => (i, 0))).lookup j).isNone = !l.contains j := by
  induction l with
  | nil => rfl
  | cons i l ih =>
    by_cases h : j = i
    · subst h; simp
    · have : (j == i) = false := by simpa using h
      rw [List.map_cons, List.lookup_cons, this, List.contains_cons, this, Bool.false_or, ← ih]

theorem search_ends (k : Nat) : ∀ i, i < 8192 → 8192 ≤ k + i →
    findSlotFrom ((List.range 8191).map (fun i => (i, 0))) k i = some 8191 ∨ k = 0 := by
  induction k with
  | zero => intro i _ _; exact .inr rfl
  | succ k ih =>
    intro i hi hk
    left
    rw [findSlotFrom, lookup_listed]
    by_cases h : i = 8191
    · subst h; simp
    · have hc : (List.range 8191).contains i = true := by simp; omega
      rw [hc]
      have hm : (i + 1) % 8192 = i + 1 := Nat.mod_eq_of_lt (by omega)
      rw [hm]
      rcases ih (i + 1) (by omega) (by omega) with h1 | h1
      · simpa using h1
      · omega

theorem last_slot (s : State) (h : (s.arcade 0).slots = (List.range 8191).map (fun i => (i, 0))) : findSlot s 0 = some 8191 := by
  rw [findSlot, h]
  rcases search_ends 8192 (Config.freeSlot s.tick % 8192) (Nat.mod_lt _ (by omega)) (by omega) with h | h
  · exact h
  · omega

/-- The whole pool is one frame. -/
theorem whole_pool (s : State) (r : Region) (n q : Nat) (hn : 0 < n) (hb : poolBase r = q) (hs : poolSize r = n)
    (hf : framesNear s 0 r = []) : findFrame s 0 r n = some q := by
  have fits : poolFits r [] n q = true := by
    simp [poolFits, hb, hs]
  unfold findFrame
  simp only [hf, hb, hs, Nat.div_self hn, Nat.mod_one, Nat.zero_mul, Nat.add_zero, List.range_one, List.map_cons, List.map_nil,
    List.cons_append, List.nil_append]
  rw [List.find?_cons, fits]

theorem oneSlot_slots : (oneSlot.arcade 0).slots = (List.range 8191).map (fun i => (i, 0)) := by
  rw [oneSlot, State.updArcade]
  generalize (List.range 8191).map (fun i => (i, 0)) = l
  rfl

theorem witness_frames_and_tiles_falloc_taken :
    oneSlot.reads (.o 0) = true ∧ oneSlot.regionOf oneSlot.cur = some pooled ∧ settle oneSlot = .ok oneSlot ∧
    okAnd (allocFrame (translateFor 0) oneSlot 0 false true 0 pooled 0 65536) Option.isSome = true := by
  have hq : (oneSlot.ctx oneSlot.cur).storeQ = [] := List.isEmpty_iff.mp (by decide +kernel)
  refine ⟨by decide +kernel, by decide +kernel, by simp [settle, settled, storeHeld, drain, hq, drainFrom], ?_⟩
  unfold allocFrame
  rw [whole_pool oneSlot pooled 65536 tcmWindow (by decide) (by decide +kernel) (by decide +kernel)
    (List.isEmpty_iff.mp (by decide +kernel)), last_slot oneSlot oneSlot_slots]
  decide +kernel
theorem witness_frames_and_tiles_falloc_in_tcm :
    (oneSlot.cur < ctxLimit ∧ oneSlot.me.storeQ = [] ∧ poolBase pooled = tcmWindow ∧ poolSize pooled ≤ 2 ^ 18 ∧
      max 128 (((oneSlot.g (.o 0)).toNat + 63) / 64 * 64) = 65536) ∧
    findFrame oneSlot 0 pooled 65536 = some tcmWindow ∧ findSlot oneSlot 0 = some 8191 :=
  ⟨by decide +kernel, whole_pool oneSlot pooled 65536 tcmWindow (by decide) (by decide +kernel) (by decide +kernel)
    (List.isEmpty_iff.mp (by decide +kernel)), last_slot oneSlot oneSlot_slots⟩

theorem witness_frames_and_tiles_ffree :
    let s := State.with (framed 128) (.o 0) tcmWindow
    s.reads (.o 0) = true ∧ (s.g (.o 0)).toNat % 64 = 0 ∧ s.me.tvec ≠ 0 ∧ s.me.intrap = false ∧
      ((frameAt s 0 tcmWindow).map (·.falloc)) = some true ∧ s.inTcm tcmWindow 128 ∧
      leNat (homeBytes s 0 ((s.tcmPlace tcmWindow).pa + 0x10) 8) = scratchWindow + 8 ∧ s.ownCounter (scratchWindow + 8) ∧
      s.counterPlace (scratchWindow + 8) = scratchBase 0 + 8 ∧
      (readCounter s (scratchBase 0 + 8)).count = 0 ∧ (readCounter s (scratchBase 0 + 8)).s = false ∧
      (readCounter s (scratchBase 0 + 8)).d = false ∧ (readCounter (counted s 1 (2 ^ 49)) (scratchBase 0 + 8)).d = true ∧
      frameAt task 0 tcmWindow = none := by
  unfold State.inTcm State.ownCounter
  decide +kernel
theorem witness_frames_and_tiles_ffree_checked :
    let s := State.with (framed 128) (.o 0) tcmWindow
    okAnd (settle s) (fun s0 => okAnd (readWord translate 0 false s0 (tcmWindow + 0x10) 8) (fun r =>
      okAnd (locateCounter translate r.1 true false r.2) (fun q => okAnd (atCounter (.issue 0) q.1 0 q.2) (fun _ => true)))) = true := by
  decide +kernel
/-- JINIT and JADD of the counter in slot 1: within its range, below it, and beyond the operand's. -/
theorem witness_frames_and_tiles_counters :
    ∀ e ∈ [((2 ^ 31 - 1 : Int), CounterResult.none), (-1, .under)],
      let s := State.with (task.putG 0 (.o 1) (BitVec.ofInt 64 e.1)) (.o 0) (scratchWindow + 8)
      let va := effAddr s (.o 0) (none : Option GReg) 0 8
      s.reads (.o 1) = true ∧ s.reads (.o 0) = true ∧ (s.g (.o 1)).toInt = e.1 ∧ -(2 ^ 31) ≤ e.1 ∧ e.1 < 2 ^ 31 ∧ s.ownCounter va ∧
      freeToRelease s = true ∧ okAnd (coverFor s (ctxArcade 0) none) (fun _ => true) = true ∧ releaseOf none = none ∧
      releaseOf (some ⟨.ha, .rel, false, .page⟩) = some .ha ∧
      okAnd (locateCounter translate s true false va) (fun r => r.2 == s.counterPlace va) = true ∧
      counterArcade (s.counterPlace va) = ctxArcade s.cur ∧ counterHeld s (s.counterPlace va) (.jadd e.1) = false ∧
      counterHeld s (s.counterPlace va) .jinit = false ∧ (counterOp s (s.counterPlace va) (.jadd e.1)).2 = e.2 ∧
      (counterOp s (s.counterPlace va) .jinit).2 = .none ∧ s.me.tvec ≠ 0 ∧ s.me.intrap = false := by
  unfold State.ownCounter
  decide +kernel
theorem witness_frames_and_tiles_jadd_range :
    let s := State.with (State.with task (.o 1) (2 ^ 31)) (.o 0) (scratchWindow + 8)
    ¬(-(2 ^ 31) ≤ (s.g (.o 1)).toInt ∧ (s.g (.o 1)).toInt < 2 ^ 31) ∧ s.me.tvec ≠ 0 ∧ s.me.intrap = false := by decide
theorem witness_frames_and_tiles_pub :
    run.reads (.o 1) = true ∧ run.me.storeQ = [] ∧ windowBase ≤ ((State.with run (.o 1) windowBase).g (.o 1)).toNat := by decide
theorem witness_frames_and_tiles_names :
    let s := State.with (task.upd (fun v => v.setTile 7 (tile scratchWindow 1 8 1 1 1))) (.o 0) 3
    let va := s.me.framep.toNat + 0x40 + 16 * 3
    (7 : Idx).val < 8 ∧ s.reads (.o 0) = true ∧ (s.g (.o 0)).toNat = 3 ∧ 4 ≤ ((State.with s (.o 0) 4).g (.o 0)).toNat ∧
      (tileOf (s.me.tile 7)).space = 1 ∧ (tileOf (s.me.tile 7)).fmt ≠ .fa56 ∧ (tileOf (s.me.tile 6)).space ≠ 1 ∧
      s.inTcm va 16 ∧ va % 16 = 0 ∧ s.me.storeQ = [] ∧ s.me.tvec ≠ 0 ∧ s.me.intrap = false ∧
      okAnd (settle s) (fun s1 => okAnd (writeWord translate 0 false s1 va 16 (s.me.tile 7).toNat) (fun _ => true)) = true := by
  unfold State.inTcm
  decide +kernel
theorem witness_counter_operations :
    counterSlot (scratchBase 0 + 8) = some (0, 1) ∧ counterSlot (scratchBase 511 + 65528) = some (511, 8191) ∧
    (readCounter run (scratchBase 0 + 8)).count = 0 ∧
    (∀ op ∈ [CounterOp.jinc, .jdec, .jdead, .jadd (-1), .jsus, .jcall, .jcas, .jmark],
      counterHeld (counted run 1 1) (scratchBase 0 + 8) op = false) ∧
    (counterOp (counted run 1 1) (scratchBase 0 + 8) .jdec).2 ≠ .under ∧
    (0 : Int) ≤ (readCounter run (scratchBase 0 + 8)).count + (2 ^ 32 - 1) := by decide

/-! Witnesses: regions. -/

/-- A 64-bit word of TCM. -/
def word (s : State) (off x : Nat) : State := putBytes s (tcmBase 0 + off) (leBytes 8 x)
/-- An RCB at 0x1000 of TCM, with an object of one role at 0x2000 and an overflow queue at 0x3000: one arcade, one context a stall. -/
def launchable : State :=
  let rcb := [(1, 0x3FFF), (2, 1), (5, 1 + 2 ^ 8 + 8 * 2 ^ 16 + 4 * 2 ^ 24), (7, 0x0888), (12, tcmWindow + 0x2000), (13, tcmWindow + 0x3000),
    (14, tcmWindow + 0x10000 + 1), (16, 128)]
  let image := [(0, 0x004F444E + 2 ^ 32), (1, 1 + 2 ^ 32), (2, 64), (8, 10 + 0xFFFFFFFF * 2 ^ 32), (9, 128), (10, 16), (16, 0x4000)]
  let queue := [(2, 64), (3, 16)]
  let put (at' : Nat) (s : State) (l : List (Nat × Nat)) : State := l.foldl (fun t e => word t (at' + 8 * e.1) e.2) s
  State.with (put 0x3000 (put 0x2000 (put 0x1000 run rcb) image) queue) (.o 1) (tcmWindow + 0x1000)
theorem witness_region_instructions_rlaunch :
    ∀ e ∈ [(launchable, true), (word launchable 0x1018 (2 ^ 12), true), (word launchable 0x1010 0, false)],
      let s := e.1
      s.reads (.o 1) = true ∧ s.readsZ (some (.g 0)) = true ∧ (s.g (.g 0)).toNat = 0 ∧
      okAnd (locateRcb s true (s.g (.o 1)).toNat) (fun r => freeToRelease r.1 &&
        (let t := r.1.released false (some (joinScopeOf r.1 s.cur))
         let w := writeRcb (writeRcb (writeRcb t 0 r.2 0 t.me.rcbp.toNat) 0 r.2 19 0) 0 r.2 20 0
         decide ((t.pkg 0).waitlist.length < 64) &&
          (match (admitRegion w 0 (s.g (.o 1)).toNat 0 r.2).2 with
           | .admitted _ => e.2
           | .failed n => !e.2 && n == 1))) = true := by decide +kernel
theorem witness_region_instructions_in_tcm :
    let rcb := (launchable.g (.o 1)).toNat
    rcb % 256 = 0 ∧ launchable.inTcm rcb 256 ∧ launchable.me.storeQ = [] := by
  unfold State.inTcm
  decide +kernel
theorem witness_region_instructions_rlaunch_full :
    let s := launchable.updPkg 0 (fun p => { p with waitlist := List.replicate 64 0 })
    freeToRelease s = true ∧ 64 ≤ ((s.released false (some (joinScopeOf s s.cur))).pkg 0).waitlist.length := by decide +kernel
theorem witness_region_instructions_rlaunch_counter :
    let s := State.with launchable (.o 0) (scratchWindow + 8)
    (s.g (.o 0)).toNat ≠ 0 ∧ okAnd (locateRcb s true (s.g (.o 1)).toNat) (fun r =>
      okAnd (locateCounter translate r.1 true false (s.g (.o 0)).toNat) (fun q =>
        freeToRelease q.1 && q.2 == scratchBase 0 + 8 && counterArcade q.2 == ctxArcade 0)) = true := by decide +kernel
/-- RWAIT on a region that ended, on one that runs, and on one that nobody launched. -/
theorem witness_region_instructions_rwait :
    let s := word launchable 0x1090 3
    let t := s.updPkg 0 (fun p => { p with regions := [{ region with place := ⟨tcmBase 0 + 0x1000, false, false, 0, 1⟩ }] })
    let known (w : State) : Bool := okAnd (locateRcb w false (tcmWindow + 0x1000)) (fun r => okAnd (settle r.1) (fun s2 =>
      (readState s2 r.2).2 % 16 == 3 && ((readState s2 r.2).1.pkg 0).regions.any (fun q => q.place.pa == r.2.pa)))
    okAnd (locateRcb launchable false (tcmWindow + 0x1000)) (fun r => okAnd (settle r.1) (fun s2 => (readState s2 r.2).2 % 16 == 0)) =
      true ∧ known t = true ∧ known s = false := by decide +kernel
/-- A frame of 4096 bytes is donated, to the own package and to another. -/
def donor (y : Nat) : State := State.with (State.with (State.with task (.o 0) (tcmWindow + 0x1000)) (.o 1) y) (.o 2) 4096
theorem witness_region_instructions_donate :
    ∀ y ∈ [0, 1],
      let s := donor y
      let x := (s.g (.o 0)).toNat
      s.reads (.o 0) = true ∧ s.reads (.o 1) = true ∧ x % 64 = 0 ∧ x ≠ s.me.framep.toNat ∧ s.readsZ (some (.o 2)) = true ∧
      donateSize s (some (.o 2)) x = .ok 4096 ∧ ((s.g (.o 1)).toNat % 2 ^ 13 = ctxPkg s.cur ↔ y = 0) ∧
      okAnd (checkSpan translate ⟨0, false, false, false⟩ s x 4096) (fun s1 => freeToRelease s1 &&
        (let t := s1.released false (some .sy)
         t.me.pl == s.me.pl && okAnd (settle t) (fun t0 => okAnd (locateCounter translate t0 true false t.me.ownjc.toNat) (fun r =>
          okAnd (readSpan translate t.cur ⟨0, false, false, false⟩ r.1 x 4096) (fun q =>
            q.2.2.isNone && counterArcade r.2 == ctxArcade t.cur))))) = true := by decide +kernel
theorem witness_region_instructions_donate_in_tcm :
    let s := donor 0
    let t := s.released false (some .sy)
    s.inTcm (tcmWindow + 0x1000) 4096 ∧ t.inTcm (tcmWindow + 0x1000) 4096 ∧ t.ownCounter t.me.ownjc.toNat := by
  unfold State.inTcm State.ownCounter
  decide +kernel
theorem witness_region_instructions_donate_intact :
    ((donor 0).released false (some .sy)).intact (tcmWindow + 0x1000) 4096 := by
  have h : ((donor 0).released false (some .sy)).poison = [] := List.isEmpty_iff.mp (by decide +kernel)
  intro i _
  rw [h]
  rfl
/-- The own package takes the donation, or has no region that takes donations. -/
theorem witness_region_instructions_donate_answers :
    (acceptDonation (donor 0) 0 ⟨scratchBase 0 + 8, 0, 0, []⟩).2 ≠ 0 := by decide +kernel
/-! Witnesses: gang barriers, atomics, fences, barrier objects, the Carter. -/

theorem witness_gang_barriers :
    ∀ n ∈ [1, 2],
      let r := { region with expected := n }
      let s := inRegion r
      s.region 0 0x20000 = some r ∧ r.rcb = 0x20000 ∧ s.me.rcbp ≠ 0 ∧ s.regionOf s.cur = some r ∧ s.reads (.g 31) = true ∧
      r.rcb = s.me.rcbp.toNat ∧ freeToRelease s = true ∧
      (let t := s.released false (some (gangScope r none))
       gangArcade (ctxPkg t.cur) r = ctxArcade t.cur ∧ okAnd (reachGang t r) (fun w => w.cur == t.cur) = true ∧
        ((arrive t 0 r.rcb).region 0 r.rcb).map (·.phase) = some (if n = 1 then true else false)) ∧
      r.phase = (s.g (.o 0)).getLsbD 0 ∧ r.phase ≠ ((State.with s (.o 0) 1).g (.o 0)).getLsbD 0 := by decide +kernel
/-- A waiter in the arcade of rank 0, and one in another arcade, beside a context that does not wait. -/
theorem witness_gang_barriers_wake :
    ∀ b ∈ [true, false], ∀ c ∈ [0, 512],
      let v := { (inRegion region).ctx 0 with st := .wmsg, wait := .gang b none }
      let s := { inRegion region with ctxs := [(c, v), (700, v.advance)] }
      s.region 0 0x20000 = some region ∧ c ∈ s.ctxs.map (·.1) ∧ s.ctx c = v ∧ v.wait = .gang b none ∧ ctxPkg c = 0 ∧
        v.rcbp.toNat = 0x20000 ∧ v.dying = none ∧ isHalted s c = false ∧ s.stalls = [] ∧ (b = true → b ≠ region.phase) ∧
        (b = false → b = region.phase) ∧ (gangArcade 0 region = ctxArcade c ↔ c = 0) := by
  decide +kernel
/-- Where no stall's registers have been written, no stall logs. -/
theorem witness_logs_off (s : State) (h : s.stalls = []) : ∀ k, (s.stall k).tracec = 0 := by
  intro k
  rw [State.stall, h]
  rfl
/-- With order none, what an earlier release covers is visible first; with engine order the release takes it on. -/
theorem witness_gang_barriers_orders :
    let q (o : MemOrder) (e : Bool) : OrdQ := ⟨.ha, o, e, .page⟩
    let s := (inRegion region).upd (fun v => { v with covered := some .st })
    okAnd (coverFor s (gangArcade 0 region) (some (q .none false))) (fun t => t.cur == s.cur) = true ∧ freeToRelease s = true ∧
      engineOf (some (q .ar true)) = true ∧ engineOf none = false := by decide +kernel
theorem witness_gang_barriers_without_region :
    run.me.rcbp = 0 ∧ run.me.tvec ≠ 0 ∧ run.me.intrap = false ∧ run.region 0 0 = none := by decide
/-- ACAS2 of the last 16 bytes of TCM, and of cached DRAM: four registers from g28. -/
theorem witness_atomics :
    ∀ e ∈ [(tcmWindow + 2 ^ 18 - 16, false), (0x10FF0, true)],
      let s := State.with paged (.o 0) e.1
      let a : Atom := ⟨.g 28, .o 0, .g 0, 0, none, none⟩
      s.me.okG 4 (.g 28) = true ∧ AtomOp.cas2.regs = 4 ∧ s.reads (.o 0) = true ∧ s.reads (.g 0) = true ∧ atomType .cas2 none = some (16, false) ∧
        atomType .add (some .i32) = some (4, true) ∧ atomType .add (some .n64) = some (8, false) ∧
        effAddr s (.o 0) (some (.g 0)) 0 16 % 16 = 0 ∧ releaseOf none = none ∧ storeHeldBy (drain s s.cur) s.cur = none ∧
        okAnd (translateFar (atomFar a) s (effAddr s (.o 0) (some (.g 0)) 0 16) ⟨3, true, true, false⟩) (fun r =>
          !isPoisoned r.1 r.1.cur r.2.place 16 && !isRemote r.1.cur r.2.place && r.2.place.cached == e.2) = true := by decide +kernel
theorem witness_atomics_in_tcm :
    let s := State.with run (.o 0) (tcmWindow + 2 ^ 18 - 16)
    let va := effAddr s (.o 0) (some (.g 0)) 0 16
    s.inTcm va 16 ∧ va % 16 = 0 ∧ s.intact va 16 ∧ (s.released false none).cur = s.cur := by
  unfold State.inTcm State.intact
  decide +kernel
theorem witness_atomics_release :
    let s := State.with run (.o 0) tcmWindow
    let q : OrdQ := ⟨.sy, .ar, false, .page⟩
    releaseOf (some q) = some .sy ∧ okAnd (translateFar true s tcmWindow ⟨3, true, true, false⟩) (fun r => freeToRelease r.1) = true := by
  decide +kernel
theorem witness_atomics_types :
    atomType .add (some .fp32) = none ∧ atomType .fadd (some .i32) = none ∧ atomType .madd (some .i32) = none ∧
      run.reads (.o 0) = true ∧ run.me.tvec ≠ 0 ∧ run.me.intrap = false := by decide
theorem witness_atomics_values : (2 ^ 32 - 1 < 2 ^ (8 * 4)) ∧ (2 ^ 64 - 1 < 2 ^ (8 * 8)) ∧ ((4 = 4 ∨ 4 = 8) ∧ (8 = 4 ∨ 8 = 8)) := by decide
/-- AMADD of two moments, and of one whose mean is a NaN. -/
theorem witness_atomics_moments :
    (decodeMoment 0x400000003F800000).mean.isNan = false ∧ (decodeMoment 0x7FC00000).mean.isNan = true ∧
      (atomNew .madd 8 false 0x400000003F800000 0 0x3F80000040000000).new = some 0x4040000040400000 ∧
      (atomNew .madd 8 false 0x7FC00000 0 0x3F80000040000000).new = some 0x7FC00000 := by decide +kernel
theorem witness_atomics_storage :
    let p : Place := ⟨tcmBase 0, false, false, 0, 1⟩
    p.cached = false ∧ storageOf p.pa = .tcm 0 0 ∧ isHost p.pa = false ∧ isDevice p.pa = false := by decide
theorem witness_fences :
    freeToRelease run = true ∧ storeHeldBy (drain run run.cur) run.cur = none ∧
      (let s := run.upd (fun v => { v with posted := 1 })
       storeHeldBy (drain s s.cur) s.cur = none ∧ (drain s s.cur).me.posted ≠ 0) := by decide +kernel
/-- A host write that waits for its read, and a store that was lost. -/
theorem witness_fences_waiting :
    (let s := run.upd (fun v => { v with tbm := BitVec.ofNat 51 (2 ^ 50), hostAddr := some 0 })
     let d := drain s s.cur
     storeHeldBy d s.cur = none ∧ d.me.posted = 0 ∧ d.me.tbm.getLsbD 50 = true ∧ d.me.hostAddr.isSome = true) ∧
    (let s := run.upd (fun v => { v with lost := 1 })
     let d := drain s s.cur
     storeHeldBy d s.cur = none ∧ d.me.posted = 0 ∧ d.me.hostAddr = none ∧ d.me.lost ≠ 0) := by decide +kernel
/-- FLUSH and INVAL of uncached storage, of a cached line, and of a line of another package. -/
theorem witness_cache_maintenance :
    ∀ e ∈ [(tcmWindow, 1, false, false), (0x10FC0, 0, true, false), (0x20FC0, 0, false, true)],
      let s := State.with far (.o 0) e.1
      s.reads (.o 0) = true ∧ okAnd (translate s (effAddr s (.o 0) none 0 1) ⟨0, false, false, false⟩) (fun r =>
        r.2.place.mtype == e.2.1 && r.2.place.cached == e.2.2.1 && isRemote r.1.cur r.2.place == e.2.2.2 &&
          (storeHeldBy (drain r.1 r.1.cur) r.1.cur).isNone) = true := by decide +kernel
theorem witness_cache_maintenance_posted :
    let s := State.with (far.upd (fun v => { v with posted := 1 })) (.o 0) 0x20FC0
    okAnd (translate s (effAddr s (.o 0) none 0 1) ⟨0, false, false, false⟩) (fun r =>
      isRemote r.1.cur r.2.place && (drain r.1 r.1.cur).me.posted != 0) = true := by decide +kernel
theorem witness_cache_maintenance_prefetch :
    okAnd (translateNow (State.with far (.o 0) 0x10FC0) 0 0x10FC0 ⟨0, false, false, false⟩) (fun r => r.2.place.cached) = true ∧
    okAnd (translateNow run 0 (2 ^ 57) ⟨0, false, false, false⟩) (fun _ => true) = false := by decide +kernel
/-- An object named by o0, its operand in o1. -/
def objectOp : GMem := ⟨.o 1, .o 0, none, 0, none⟩
theorem witness_barrier_objects :
    let s := State.with run (.o 0) (scratchWindow + 2 ^ 21 - 16)
    (∀ b ∈ [true, false], okAnd (locateObject s objectOp b) (fun r => freeToRelease r.1 && okAnd (atBank r.1 r.2.1) (fun _ => true) &&
        okAnd (coverFor r.1 (objectArcade r.2.1) none) (fun t => okAnd (atBank t r.2.1) (fun _ => true)) &&
        objectArcade r.2.1 == ctxArcade r.1.cur && !(readObjectAt r.1 r.2.1).1.phase) = true) ∧
    storageOf (scratchBase 0 + 2 ^ 21 - 16) = .scratch 0 (2 ^ 21 - 16) ∧ (scratchBase 0 + 2 ^ 21 - 16) % 16 = 0 ∧
      (s.g (.o 1)).getLsbD 0 = false ∧ ((State.with s (.o 1) 1).g (.o 1)).getLsbD 0 = true := by decide +kernel
theorem witness_barrier_objects_own :
    let s := State.with run (.o 0) (scratchWindow + 2 ^ 21 - 16)
    s.reads (.o 1) = true ∧ s.reads (.o 0) = true ∧ s.readsZ none = true ∧ s.ownObject (effAddr s (.o 0) (none : Option GReg) 0 16) ∧
      freeToRelease s = true := by
  unfold State.ownObject
  decide +kernel
/-- BEXP within the fields and one beyond. -/
theorem witness_barrier_objects_expect :
    let s := State.with (State.with run (.o 0) (scratchWindow + 2 ^ 21 - 16)) (.o 1) (2 ^ 32 - 1)
    okAnd (locateObject s objectOp true) (fun r => decide ((readObjectAt r.1 r.2.1).1.bytes + (2 ^ 32 - 1) < 2 ^ 32) &&
      (let t := putObject r.1 r.2.1 ⟨1, 0, false, 0, 0⟩ 0 0
       decide (2 ^ 32 ≤ (readObjectAt t r.2.1).1.bytes + (2 ^ 32 - 1)))) = true := by decide +kernel
/-- A waiter in the arcade of the object, and one in another. -/
theorem witness_barrier_objects_wake :
    ∀ b ∈ [true, false], ∀ c ∈ [0, 512],
      let v := { run.ctx 0 with st := .wmsg, wait := .object (scratchBase 0) scratchWindow b (.o 1) none }
      let s := { run with ctxs := [(c, v), (700, v)] }
      c ∈ s.ctxs.map (·.1) ∧ s.ctx c = v ∧ v.wait = .object (scratchBase 0) scratchWindow b (.o 1) none ∧ v.dying = none ∧
        isHalted s c = false ∧ s.stalls = [] ∧ ((readObjectAt s (scratchBase 0)).1.phase = b ↔ b = false) ∧
        (objectArcade (scratchBase 0) = ctxArcade c ↔ c = 0) := by decide +kernel

/-- A template of 64 bytes from TCM to the scratchpad, in slot 1023 of arcade 0, and a device page that maps channel 14. -/
def templateBytes : List Byte :=
  leBytes 64 (tcmWindow + (scratchWindow + 2 ^ 21) * 2 ^ 64 + 64 * 2 ^ 128 + 2 ^ 152 + 2 ^ 168)
def aperturePage : Tlb := { page with vbase := 0x30000, pbase := 0x34000000000 + 14 * 4096, mtype := 2 }
def carter : State :=
  State.with ((putBytes run (scratchBase 0 + 2 ^ 16 + 64 * 1023) templateBytes).updStall 0 (fun k => { k with tlb := [aperturePage] })) (.o 0)
    0x30000
def image (bs : List Byte) : State := State.with (State.with (putBytes run (tcmBase 0) bs) (.o 0) tcmWindow) (.o 1) 1023
theorem witness_carter_ctset :
    ∀ e ∈ [(templateBytes, false), (leBytes 64 (2 ^ 57), true)],
      let s := image e.1
      s.reads (.o 1) = true ∧ s.reads (.o 0) = true ∧ s.readsZ none = true ∧ effAddr s (.o 0) (none : Option GReg) 0 8 % 64 = 0 ∧
      (s.g (.o 1)).toNat < 1024 ∧ carterFrozen s (ctxArcade s.cur) = false ∧
      okAnd (translate s tcmWindow ⟨0, false, false, false⟩) (fun r =>
        !isPoisoned r.1 r.1.cur r.2.place 64 && !isRemote r.1.cur r.2.place && okAnd (readPlace r.1 r.1.cur r.2.place 64 .page) (fun x =>
          x.2.2 && templateBad (leNat x.2.1) == e.2)) = true := by decide +kernel
theorem witness_carter_ctset_in_tcm :
    let s := image templateBytes
    s.inTcm tcmWindow 64 ∧ newestOverlap s.me (s.tcmPlace tcmWindow).pa 64 = none ∧ s.poison = [] ∧
      1024 ≤ ((State.with s (.o 1) 1024).g (.o 1)).toNat := by
  unfold State.inTcm
  decide +kernel
/-- An image in DRAM that the L1 lacks comes with a reply. -/
theorem witness_carter_ctset_reply :
    let s := State.with paged (.o 0) 0x10FC0
    okAnd (translate s 0x10FC0 ⟨0, false, false, false⟩) (fun r =>
      !isPoisoned r.1 r.1.cur r.2.place 64 && okAnd (readPlace r.1 r.1.cur r.2.place 64 .page) (fun x => !x.2.2)) = true := by decide +kernel
def blank : Template := ⟨0, 0, 0, 0, 0, 0, 0, 0, 0, 0, 0, 0, 0, false, false⟩
def isAccepted : Offer → Bool
  | .accepted _ _ => true
  | _ => false
def isRefused : Offer → Bool
  | .refused n => n == -1
  | _ => false
def isHeld : Offer → Bool
  | .held _ _ => true
  | _ => false
/-- COPY is accepted, refused for a slot beyond the last, and held by a full channel. -/
theorem witness_carter_copy :
    okAnd (locateAperture carter objectOp) (fun r => freeToRelease r.1 && !carterFrozen r.1 r.2.1 && r.2.1 == 0 && r.2.2.1 == 14 &&
      isAccepted (offerCopy r.1 0 14 1023) &&
      isRefused (offerCopy r.1 0 14 1024) && isHeld (offerCopy (r.1.updArcade 0 (fun a => a.updChannel 14 (fun q =>
        { q with queue := List.replicate 16 ⟨0, blank, [], [], none, 0, [], [], [], false⟩ }))) 0 14 1023)) = true := by
  decide +kernel
/-- A halted stall of the arcade freezes its Carter. -/
def frozen : State := carter.updStall 1 (fun k => { k with halted := true })
theorem witness_carter_frozen : okAnd (locateAperture frozen objectOp) (fun r => carterFrozen r.1 r.2.1) = true := by decide +kernel
/-- CWAIT for the transfer that has completed, and for the next. -/
theorem witness_carter_cwait :
    okAnd (locateAperture carter objectOp) (fun r =>
      let k := (r.1.arcade 0).channel 14
      decide ((k.watermark + 2 ^ 32 - 0) % 2 ^ 32 < 2 ^ 31) && decide (2 ^ 31 ≤ (k.watermark + 2 ^ 32 - 1) % 2 ^ 32)) = true := by
  decide +kernel
theorem witness_carter_tiles :
    let s := paged.upd (fun v => v.setTile 7 (tile 0x10FFC 3 8 1 1 1))
    let bad (d : Word128) : Tile := tileOf (run.upd (fun v => v.setTile 7 d) |>.me.tile 7)
    (7 : Idx).val < 8 ∧ okAnd (checkPin s (tileOf (s.me.tile 7))) (fun r => decide (r.1.me = s.me)) = true ∧
      (bad (tile 0 3 14 1 1 1)).fmt = .fa56 ∧ ((bad (tile 0 3 8 65 1 1)).fmt ≠ .fa56 ∧ 64 < (bad (tile 0 3 8 65 1 1)).rows) ∧
      ((bad (tile 0 2 8 1 1 1)).fmt ≠ .fa56 ∧ (bad (tile 0 2 8 1 1 1)).rows ≤ 64 ∧ (bad (tile 0 2 8 1 1 1)).space ≠ 3) ∧
      s.me.tvec ≠ 0 ∧ s.me.intrap = false := by decide +kernel
def transfer (beats : List (Nat × Nat × Nat)) : CarterJob := ⟨1, blank, [], [], none, 0, beats, [], [], false⟩
def moving (beats : List (Nat × Nat × Nat)) : State :=
  run.updArcade 0 (fun a => a.updChannel 14 (fun q => { q with queue := [transfer beats] }))
theorem witness_carter_beat :
    let s := moving [(tcmWindow, scratchWindow, 64)]
    ((s.arcade 0).channel 14).queue = [transfer [(tcmWindow, scratchWindow, 64)]] ∧ carterFrozen s 0 = false ∧ 
      nextBeat (s.arcade 0) = some (14, [14]) := by decide +kernel
/-- Channel 14 and the tile moves each get a beat of a cycle; a served channel waits for the next. -/
theorem witness_carter_cycle :
    let m : TileMove := ⟨0, [(tcmBase 0, scratchBase 0, 64)]⟩
    let a (cycle : List Nat) : Arcade := { (moving [(tcmWindow, scratchWindow, 64)]).arcade 0 with moves := [m], cycle := cycle }
    nextBeat (a []) = some (15, [15]) ∧ nextBeat (a [15]) = some (14, [15, 14]) ∧ nextBeat (a [15, 14]) = some (15, [15]) ∧
      nextBeat { a [14] with moves := [] } = some (14, [14]) := by decide +kernel
theorem witness_carter_complete :
    let s := moving []
    ((s.arcade 0).channel 14).queue = [transfer []] ∧ (transfer []).beats = [] ∧ (transfer []).bar = none ∧ (transfer []).tpl.fv = false ∧
      carterFrozen s 0 = false ∧ (∀ e ∈ s.ctxs, e.2.wait = .none) := by decide +kernel
theorem witness_carter_tile_move :
    let m : TileMove := ⟨0, [(tcmBase 0, scratchBase 0, 64)]⟩
    let s := run.updArcade 0 (fun a => { a with moves := [m] })
    (s.arcade 0).moves = [m] ∧ m.beats = [(tcmBase 0, scratchBase 0, 64)] ∧ carterFrozen s 0 = false ∧
      nextBeat (s.arcade 0) = some (15, [15]) ∧ arcadeHall (objectArcade (tcmBase 0)) = arcadeHall 0 ∧
      (∀ last ∈ [none, some 1], (⟨some 0, 0, 0, 9, [], .tile (scratchBase 0) last⟩ : Message).act = .tile (scratchBase 0) last) := by decide +kernel
/-- A follow-on whose block asks for what no MMA takes, and one that MMA takes: pair 3, bank 1 of stall 0. -/
def follow : FollowOn := ⟨15, 0x20000, false, 0, false⟩
def followed : State :=
  (putBytes held (scratchBase 0 + 0x20000) (leBytes 48 ((tile tcmWindow 2 8 1 16 16).toNat +
    (tile (tcmWindow + 2 ^ 18 - 64) 2 8 16 1 1).toNat * 2 ^ 128 + (3 * 8 + 4) * 2 ^ 256))).updArcade 0 (fun a =>
      { a with handed := [follow] })
theorem witness_carter_handoff :
    let s := run.updArcade 0 (fun a => { a with handed := [follow] })
    (s.arcade 0).handed = [follow] ∧ (s.arcade 0).passed = [] ∧ carterFrozen s 0 = false ∧
      followCommand (s.updArcade 0 (fun v => { v with handed := [] })) 0 follow = none := by decide +kernel
theorem witness_carter_handoff_taken :
    (followCommand (followed.updArcade 0 (fun v => { v with handed := [] })) 0 follow).any (fun e =>
      (e.1.arcade 0).passed == [] && decide ((queueOf (e.1.stall e.2.1) e.2.2.high).length < 4) &&
        (storeHeldBy (drain (e.1.updArcade 0 (fun v => { v with passed := [(e.2.1, e.2.2)] })) e.2.2.ctx) e.2.2.ctx).isNone) = true := by
  decide +kernel
/-! Witnesses: partitions, saves, translation, messages, hunts, deaths, pre-emption. -/

theorem witness_partition :
    ∀ e ∈ [(2, true), (3, false)],
      let s := State.with run (.o 0) e.1
      s.me.pl = true ∧ s.reads (.o 0) = true ∧ ((s.g (.o 0)).toNat ≤ 2 ↔ e.2 = true) ∧ s.cur % 64 = 0 ∧ quiescent s 0 = true ∧
        s.me.tvec ≠ 0 ∧ s.me.intrap = false := by decide
/-- PURGE of contexts 0 (its own), 63 without and with a task, and 64, which does not exist. -/
theorem witness_purge :
    run.myStall.ctxn ≤ 64 ∧ (63 < 64 ∧ 63 < run.myStall.ctxn) ∧ 64 * 0 + 0 = run.cur ∧ run.me.dying = none ∧
      64 * 0 + 63 ≠ run.cur ∧ hasTask (run.ctx 63) = false ∧
      (let s := run.updCtx 63 (fun v => { v with st := .run })
       hasTask (s.ctx 63) = true ∧ (s.ctx 63).dying = none) ∧
      (∀ q ∈ reachStalls 0 1, usersOf run (tlbMatch 0 0 0) q = [] ∧ pendingUses run (tlbMatch 0 0 0) q = false) ∧
      run.me.storeQ = [] := by decide +kernel
/-- CTXSAVE of a context into an area of TCM, its pair not asked for. -/
theorem witness_context_save :
    let s := State.with held (.o 0) tcmWindow
    let l := LiveSet.whole s.me
    s.me.pl = true ∧ s.reads (.o 0) = true ∧ (s.g (.o 0)).toNat % 64 = 0 ∧ (s.g (.o 1)).getLsbD 0 = false ∧
    okAnd (checkSpan translate ⟨5, true, false, false⟩ s tcmWindow l.areaEnd) (fun s1 =>
      okAnd (settle s1) (fun s2 => okAnd (waitBanks s2 (heldBanks s2 0)) (fun _ =>
        okAnd (saveRegs translate 0 false s2 tcmWindow l) (fun s3 =>
          okAnd (readWord translate 0 false s3 (tcmWindow + 0x38) 8) (fun r =>
            okAnd (writeWord translate 0 false r.1 (tcmWindow + 0x38) 8 (r.2 / 2 ^ 32 % 2 ^ 11 * 2 ^ 32 + r.2 / 2 ^ 8 % 2 ^ 8 * 2 ^ 8 +
              r.2 / 16 % 8 * 16 + 6 + r.2 % 2)) (fun _ => true)))))) = true := by decide +kernel
/-- The same with the pair. -/
theorem witness_context_save_pair :
    let s := State.with (State.with held (.o 0) tcmWindow) (.o 1) 1
    let l := LiveSet.whole s.me
    (s.g (.o 1)).getLsbD 0 = true ∧ s.held 0 = some 3 ∧
    okAnd (checkSpan translate ⟨5, true, false, false⟩ s tcmWindow (l.pairAt + 57344)) (fun s1 =>
      okAnd (settle s1) (fun s2 => okAnd (waitBanks s2 (heldBanks s2 0)) (fun _ => true))) = true := by decide +kernel
theorem witness_context_save_in_tcm :
    let s := State.with run (.o 0) tcmWindow
    let l := LiveSet.whole s.me
    s.inTcm tcmWindow l.areaEnd ∧ s.inTcm tcmWindow 128 ∧ s.me.gsize ≤ 128 ∧ s.me.vsize ≤ 64 ∧ s.me.storeQ = [] ∧
      (let n := leNat (homeBytes (word s 0x38 6) 0 ((s.tcmPlace tcmWindow).pa + 0x38) 8)
       n.testBit 1 = true ∧ n.testBit 2 = true ∧ n.testBit 3 = false) := by
  unfold State.inTcm
  decide +kernel
/-- CTXLOAD of a frame that holds nothing, registers, registers and a pair. -/
theorem witness_context_load :
    ∀ w ∈ [0, 6, 14],
      let s := State.with (word run 0x38 w) (.o 0) tcmWindow
      okAnd (settle s) (fun s1 => okAnd (readHeader translate 0 false s1 tcmWindow) (fun r =>
        let l := LiveSet.whole r.1.me
        r.2.fflags == w && okAnd (waitBanks r.1 (heldBanks r.1 0)) (fun _ =>
          okAnd (checkSpan translate ⟨5, false, false, false⟩ r.1 tcmWindow (if w = 14 then l.pairAt + 57344 else l.areaEnd)) (fun s4 =>
            okAnd (restoreRegs translate 0 false true s4 tcmWindow l) (fun s5 =>
              w != 14 || okAnd (loadHeldPair s5 (tcmWindow + l.pairAt)) (fun _ => true)))))) = true := by decide +kernel
/-- A root table at 0 and a 1 GiB leaf below it: the walk that context 0 waits for ends at the leaf. -/
theorem witness_page_walk :
    let r : WalkRequest := ⟨0, 0x10000, 0, false⟩
    let s := ((putBytes (putBytes run 0 (leBytes 8 0x1001)) 0x1000 (leBytes 8 0x17)).upd (fun v => { v with
      st := .wmem, wait := .walk, missed := some (0x10000, 0, false), ptbr := 9 })).updHall 0 (fun h => { h with walks := [r] })
    (s.hall 0).walks = [r] ∧ (s.ctx r.ctx).wait = .walk ∧ (s.ctx r.ctx).dying = none ∧
      (s.ctx r.ctx).missed = some (r.va, r.kind, r.user) ∧
      (match walkLeaf (s.updHall 0 (fun x => { x with walks := [] })) 0 (s.ctx 0).ptbr (s.ctx 0).keyt r.va ⟨0, false, false, false⟩ with
       | .ok (t, l) => l.level == 2 && (t.stall 0).tracec == 0
       | .error _ => false) = true := by decide +kernel
/-- The same walk with no table below the root. -/
theorem witness_page_walk_fault :
    let r : WalkRequest := ⟨0, 0x10000, 0, false⟩
    let s := (run.upd (fun v => { v with st := .wmem, wait := .walk, missed := some (0x10000, 0, false) })).updHall 0 (fun h =>
      { h with walks := [r] })
    (s.hall 0).walks = [r] ∧ (s.ctx 0).wait = .walk ∧ (s.hall 1).walks = [] ∧
      okAnd (walkLeaf (s.updHall 0 (fun x => { x with walks := [] })) 0 (s.ctx 0).ptbr (s.ctx 0).keyt r.va ⟨0, false, false, false⟩)
        (fun _ => true) = false := by decide +kernel
theorem witness_evictions_of_lines :
    isPinned run 0 0 0 = false ∧
      (let s := run.updArcade 0 (fun a => { a with pins := [⟨0, 0, 1, [(0, 0)]⟩] })
       isPinned s 0 0 0 = true) := by decide +kernel
theorem witness_host_snoop : isDram (tcmBase 0 / 128 * 128) = false ∧ isDram 0 = true := by decide +kernel
theorem witness_home_recall : 2047 < 2048 ∧ 2 ^ 50 - 1 < 2 ^ 50 ∧ carterOwner run 0 2047 (2 ^ 50 - 1) = none := by decide
theorem witness_network_message_delivery :
    let m : Message := ⟨some 0, 0, 0, 1, [], .event (.take 0 1)⟩
    let s := run.updArcade 0 (fun a => { a with inbox := [m] })
    (s.arcade 0).inbox = [m] ∧ heldMessage s m = false ∧ m.act = .event (.take 0 1) ∧
      heldMessage (s.updStall 0 (fun k => { k with halted := true })) m = true ∧ (63 < 64) := by decide +kernel

/-- Context 1 is idle and bound to a running region of arcade 0 that binds two contexts. -/
def hunted : Region := { region with words := [0, 0, 1], bound := [(0, 0), (1, 0)], live := 0 }
def hunting (h : Option Hunt) : State := (inRegion hunted).updCtx 1 (fun v => { v with rcbp := 0x20000, hunt := h })
/-- An entry of context 0's deque with its frame and counter. -/
def entry : Entry := ⟨0x1000, tcmWindow, 0, 0, false⟩
def hunt (level : Nat) (asked : Bool) (got : Option (Entry × Nat × Scope × Nat)) (kept : Option Entry) (moving : Bool) : Hunt :=
  ⟨0x20000, 0, 0, 0, [(level, 0)], asked, got, kept, moving, 0, none⟩
theorem witness_hunts_round :
    canHunt (hunting none) 1 = true ∧ canHunt run 1 = false ∧ ((hunting none).stall 0).halted = false ∧
      (hunting none).regionOf 1 = some hunted ∧ (1 ∈ hunters (hunting none) 0) ∧ ((hunting none).stall 0).wake = [] ∧
      ((hunting none).ctx 1).hunt = none ∧ (((hunting none).updStall 0 (fun k => { k with halted := true })).stall 0).halted = true := by
  decide +kernel
/-- A fifth hunting context of a stall has no hunt (R241); a take that comes too late finds another probe, or no hunter. -/
theorem witness_hunts_displaced :
    let r : Region := { hunted with bound := (List.range 6).map (fun i => (i, 0)) }
    let s := (List.range 6).foldl (fun t i => t.updCtx i (fun v => { v with rcbp := 0x20000, st := .idle, hunt := some (hunt 1 true none none false) }))
      (inRegion r)
    canHunt s 5 = true ∧ (s.stall 0).halted = false ∧ 5 ∉ hunters s 0 ∧ 0 ∈ hunters s 0 ∧ (s.ctx 5).hunt = some (hunt 1 true none none false) ∧
      (hunt 1 false none none false).asked = false ∧ (hunt 1 true none none false).victims = [(1, 0)] ∧ ctxStall 5 ≠ 1 ∧ ctxStall 5 = 0 := by
  decide +kernel
/-- The next probe: of another stall, of the Barrow window, of nobody, or of a region that the context has left. -/
theorem witness_hunts_probe :
    (∀ l ∈ [2, 6], stillHunting (hunting (some (hunt l false none none false))) 1 (hunt l false none none false) = true) ∧
    stillHunting (hunting (some { hunt 2 false none none false with victims := [] })) 1 { hunt 2 false none none false with victims := [] } =
      true ∧ stillHunting run 1 (hunt 2 false none none false) = false := by decide +kernel
theorem witness_hunts_take :
    let h := hunt 1 true none none false
    let s := (hunting (some h)).upd (fun v => { v with deque := [entry] })
    (s.ctx 1).hunt = some h ∧ h.asked = true ∧ h.got = none ∧ h.victims = [(1, 0)] ∧ (s.stall 0).halted = false ∧
      (examined s 0 1 1 0).find? (mayTake s h 1) = some 0 ∧ (s.ctx 0).deque = [entry] ∧ storeHeldBy (drain s 0) 0 = none ∧
      (examined (hunting (some h)) 0 1 1 0).find? (mayTake (hunting (some h)) h 1) = none := by decide +kernel
/-- The entry's counter is counted up in its own arcade at once, or needs a message to another. -/
theorem witness_hunts_take_counter :
    let s (at' : Nat) : State := putBytes (hunting (some (hunt 1 true none none false))) (tcmBase 0 + 0x10) (leBytes 8 at')
    okAnd (jincEntry (.take 0 1) (s (scratchWindow + 8)) 0 entry) (fun _ => true) = true ∧
    (entry.spilled = false ∧ okAnd (ownCounterOf (s (scratchWindow + 8)) 0 entry.frame) (fun _ => true) = true) := by decide +kernel
theorem witness_hunts_answers :
    (let h := hunt 1 true (some (entry, 1, .st, 0)) none false
     let s := hunting (some h)
     (s.ctx 1).hunt = some h ∧ stillHunting s 1 h = true ∧ entry.nt = 0) ∧
    (let h := hunt 1 true (some (entry, 1, .st, 0)) none true
     let s := hunting (some h)
     h.moving = true ∧ carterFrozen s (ctxArcade 1) = false ∧ stillHunting (finishMove s 1 0 entry) 1 h = true ∧
       carterFrozen (s.updStall 1 (fun k => { k with halted := true })) (ctxArcade 1) = true) ∧
    (let h := hunt 1 true none none false
     stillHunting (hunting (some h)) 1 h = true ∧ h.got = none) := by decide +kernel
/-- An entry of another arcade names a tile in TCM, whose place the thief allocates. -/
theorem witness_hunts_answers_tiles :
    let e : Entry := { entry with nt := 1 }
    let s := putBytes ((hunting none).updPkg 0 (fun p => { p with regions := [{ hunted with quota := [(0, 64)] }] })) (tcmBase 0 + 0x40)
      (leBytes 16 (tile scratchWindow 1 8 1 1 1).toNat)
    (allocTiles (acquireCaches s 1 .ha) 1 e).isSome = true ∧ e.nt ≠ 0 := by decide +kernel
/-- The overflow queue of the region lies in TCM, with room, or full; or the region is gone. -/
def queued (tail : Nat) (r : Region) (s : State) : State :=
  word (word (s.updPkg 0 (fun p => { p with regions := [{ r with words := [0, 0, 1, 0, 0, 0, 0, 0, 0, 0, 0, 0, 0, tcmWindow + 0x3000] }] })) 0x3010 64)
    0x3008 tail
theorem witness_hunts_give_back :
    let h := hunt 1 false none (some entry) false
    (giveBack (queued 64 hunted (hunting (some h))) 1 h entry).2 = false ∧ (giveBack (queued 63 hunted (hunting (some h))) 1 h entry).2 = true ∧
      stillHunting (giveBack (queued 63 hunted (hunting (some h))) 1 h entry).1 1 h = true ∧
      (giveBack run 1 h entry).2 = true ∧ stillHunting (giveBack run 1 h entry).1 1 h = false := by decide +kernel
theorem witness_hunts_returns :
    ∀ n ∈ [63, 64],
      let s := (queued n hunted (hunting none)).updArcade 0 (fun a => { a with returns := [(entry, 0x20000)] })
      (s.arcade 0).returns = [(entry, 0x20000)] ∧ (s.region (0 / 64) 0x20000).isSome = true ∧ s.region 0 0 = none ∧
        (returnEntry (s.updArcade 0 (fun a => { a with returns := [] })) 0 0x20000 entry).isSome = decide (n = 63) := by decide +kernel
/-- The donation window of package 0: closed, empty, or with an entry; and a take that has its entry. -/
def donating (head tail : Nat) (h : Hunt) : State :=
  (hunting (some h)).updPkg 0 (fun p => { p with brwen := true, brwhead := head, brwtail := tail })
theorem no_pool (s : State) (pkg : Nat) (r : Region) (n : Nat) (h : poolSize r < n) : findFrame s pkg r n = none := by
  unfold findFrame
  rw [List.find?_eq_none]
  intro a _ hf
  simp only [poolFits, Bool.and_eq_true, decide_eq_true_eq] at hf
  omega
theorem witness_hunts_barrow :
    let h := hunt 6 true none none false
    stillHunting (donating 0 0 h) 1 h = true ∧ ((donating 0 0 h).pkg 0).brwhead = ((donating 0 0 h).pkg 0).brwtail ∧
      stillHunting (donating 0 1 h) 1 h = true ∧ ((donating 0 1 h).pkg 0).brwhead ≠ ((donating 0 1 h).pkg 0).brwtail ∧
      ((donating 0 1 h).pkg 0).brwen = true ∧ ((hunting (some h)).pkg 0).brwen = false := by decide +kernel
/-- An entry of 128 bytes: the region has no pool that takes it. -/
theorem witness_hunts_barrow_no_frame (s : State) : allocFrame (translateFor 1) s 1 false false 0 hunted 0 128 = .ok none := by
  unfold allocFrame
  rw [no_pool s 0 hunted 128 (by decide)]
  rfl
theorem witness_hunts_barrow_entry :
    let s := putBytes (donating 0 1 (hunt 6 true none none false)) 16 (leBytes 2 128)
    (barrowEntry s 0).2.bytes.length = 128 := by decide +kernel
def donation : DonationRequest := ⟨scratchBase 0 + 8, 0, 0, List.replicate 128 0⟩
theorem witness_hunts_barrow_taken :
    let f : Frame := ⟨tcmWindow, 128, 0x20000, scratchBase 0 + 8, false⟩
    let h : Hunt := { hunt 6 true none none false with donated := some (donation, f) }
    stillHunting (donating 1 1 h) 1 h = true ∧ (donating 1 1 h).region 0 h.rcb = some hunted ∧
      okAnd (startDonated (donating 1 1 h) 1 hunted donation f) (fun _ => true) = true ∧
      (let s := (donating 1 1 h).updCtx 1 (fun v => { v with st := .run })
       stillHunting s 1 h = false ∧ okAnd (queueDonated s 1 h hunted donation f) (fun _ => true) = true) := by decide +kernel
theorem witness_hunts_resume :
    (let s := run.upd (fun v => { v with holding := some tcmWindow })
     (s.ctx 0).holding = some tcmWindow) ∧ (run.ctx 0).holding = none ∧ (run.ctx 0).wait = .none ∧
    (let s := run.upd (fun v => { v with st := .wmsg, wait := .pair tcmWindow 0x1000 })
     (s.ctx 0).wait = .pair tcmWindow 0x1000 ∧ (s.ctx 0).dying = none ∧ (freePairOf (s.stall 0)).isSome = true ∧
      okAnd (restorePair s 0 tcmWindow 0x1000) (fun _ => true) = true) := by decide +kernel

/-- The death of a task without a record. -/
def dying (d : Death) : State := run.upd (fun v => { v with dying := some d })
def death (stage : Nat) (atTend : Bool) : Death :=
  { quietDeath (run.ctx 0) with quiet := false, atTend := atTend, stage := stage }
theorem witness_deaths :
    let d := quietDeath (run.ctx 0)
    ((dying d).ctx 0).dying = some d ∧ d.quiet = true ∧ d.stage = 0 ∧ run.me.dying = none ∧
      banksBusy (takeDown (dying d) 0) 0 (heldBanks (takeDown (dying d) 0) 0) = false ∧
      ((purgeTask (takeDown (dying d) 0) 0).ctx 0).dying.map (·.quiet) = some true := by decide +kernel
/-- A death at TEND, one that goes on to the parent's notice, and one whose banks a command uses. -/
theorem witness_deaths_others :
    (∀ b ∈ [true, false], let d := death 1 b
      ((purgeTask (dying d) 0).ctx 0).dying.map (·.atTend) = some b ∧ banksBusy (dying d) 0 (heldBanks (dying d) 0) = false) ∧
    (let s := (working command).upd (fun v => { v with dying := some (death 1 false) })
     banksBusy s 0 (heldBanks s 0) = true) := by decide +kernel
/-- The notice finds the parent's continuation at the deque's tail, its counter in the own package, or in another. -/
theorem witness_deaths_notice :
    let d := death 3 false
    let s := task.upd (fun v => { v with dying := some d })
    (let t := s.upd (fun v => { v with deque := [⟨0x1000, tcmWindow + 128, 0, 0, false⟩] })
     (parentAtTail (t.ctx 0)).isSome = true ∧ okAnd (casualtyAtTail t 0) (fun _ => true) = true) ∧
    (parentAtTail (s.ctx 0) = none ∧ remoteCounter (s.ctx 0).parjc = none ∧
      okAnd (locateCounter (translateFor 0) s true false (s.ctx 0).parjc.toNat) (fun r =>
        okAnd (atCounter (.event (.taskDeath 0)) (releaseNow r.1 0 (counterScope 0 r.2)) 0 r.2) (fun t =>
          !counterHeld t r.2 .jdead)) = true) ∧
    (let t := s.upd (fun v => { v with parjc := BitVec.ofNat 64 (2 ^ 63 + 2 ^ 43 + scratchBase 0) })
     (remoteCounter (t.ctx 0).parjc).isSome = true ∧ ((releaseNow t 0 .sy).ctx 0).posted = 0) := by decide +kernel
/-- A purge that meets the notice of a death; a host write that the notice of a remote parent waits for; the record of a death at TEND. -/
theorem witness_deaths_purged :
    (∀ n ∈ [2, 3], let d : Death := { death n false with quiet := true }
      ((dying d).ctx 0).dying = some d ∧ 2 ≤ d.stage ∧ d.quiet = true) ∧
    (let s := task.upd (fun v => { v with
        dying := some (death 3 false), parjc := BitVec.ofNat 64 (2 ^ 63 + 2 ^ 43 + scratchBase 0), tbm := BitVec.ofNat 51 (2 ^ 50), hostAddr := some 0 })
     parentAtTail (s.ctx 0) = none ∧ (remoteCounter (s.ctx 0).parjc).isSome = true ∧ ((drain s 0).ctx 0).owesHost = true) := by
  decide +kernel
theorem witness_preemption_requests :
    (run.ctx 0).st ≠ .idle ∧ (run.ctx 1).st = .idle ∧ (run.ctx 1).rcbp = 0 ∧
      ((hunting none).ctx 1).st = .idle ∧ ((hunting none).ctx 1).rcbp ≠ 0 ∧ isHalted (hunting none) 1 = false ∧
      isHalted ((hunting none).updStall 0 (fun k => { k with halted := true })) 1 = true := by decide +kernel
def due : Request := ⟨0, true, false, false, 0⟩
theorem witness_preemption_deadline :
    (let s := run.upd (fun v => { v with request := some due })
     due ∈ (s.ctx 0).request.toList ++ (s.ctx 0).also ∧ due.deadline = true ∧ due.passed = false ∧ isHalted s 0 = false) ∧
    isHalted (run.updStall 0 (fun k => { k with halted := true })) 0 = true ∧ (run.ctx 0).request.toList ++ (run.ctx 0).also = [] := by
  decide +kernel
/-- A task that waits in WMSG, its frame as large as `size`. -/
def waiting (size : Nat) : State :=
  (framed size).upd (fun v => { v with
    st := .wmsg, wait := .yield, request := some ⟨0, false, false, false, 0⟩ })
theorem witness_evictions :
    ∀ e ∈ [(0xB40, true), (0xB00, false)],
      let s := waiting e.1
      let need := evictNeed (LiveSet.whole (s.ctx 0)) (savesPair s 0)
      (s.ctx 0).dying = none ∧ (s.ctx 0).request ≠ none ∧ isHalted s 0 = false ∧ (s.ctx 0).st = .wmsg ∧
        wakeKind (s.ctx 0).wait = some 5 ∧ (s.ctx 0).liveb = 0 ∧ (need ≤ frameSize s 0 tcmWindow - 0x80 ↔ e.2 = true) ∧
        (s.stall 0).wake.length < 256 ∧ banksBusy s 0 (heldBanks s 0) = false ∧ storeHeldBy (drain s 0) 0 = none ∧
        ((releaseNow s 0 .sy).ctx 0).posted = 0 ∧
        (e.2 = true → okAnd (saveAndFree (releaseNow s 0 .sy) 0 5 none) (fun _ => true) = true) := by decide +kernel
/-- The host write of the task waits for its read. -/
theorem witness_evictions_host :
    let s := (waiting 0xB40).upd (fun v => { v with tbm := BitVec.ofNat 51 (2 ^ 50), hostAddr := some 0 })
    ((drain s 0).ctx 0).owesHost = true ∧ storeHeldBy (drain s 0) 0 = none ∧ banksBusy s 0 (heldBanks s 0) = false := by decide +kernel
theorem witness_evictions_withdrawn :
    let s := (waiting 128).upd (fun v => { v with request := none })
    (s.ctx 0).dying = none ∧ (s.ctx 0).request = none ∧ (s.ctx 0).wait = .yield ∧ (run.ctx 0).wait ≠ .yield ∧
      wakeKind (run.ctx 0).wait = none := by decide
def woken : WakeEntry := ⟨tcmWindow, 0x20000, 0, 0, 0, .yield, true, 2, [], 0, none, none⟩
theorem witness_evicted_tasks :
    let s := (hunting none).updStall 0 (fun k => { k with wake := [woken] })
    (s.ctx 1).st = .idle ∧ (s.ctx 1).rcbp ≠ 0 ∧
      (s.stall 0).wake.find? (fun w => w.ready && w.rcbp == (s.ctx 1).rcbp.toNat) = some woken ∧
      ((hunting none).stall 0).wake.find? (fun w => w.ready && w.rcbp == 0x20000) = none := by decide +kernel
/-- The saved area of an evicted task in TCM is read back. -/
theorem witness_evicted_tasks_restored :
    let s := word (hunting none) 0x38 6
    woken.loss = none ∧ okAnd (readHeader (translateFor 1) 1 false s woken.frame) (fun r =>
      let f := FrameFlags.of r.2.fflags
      let h := r.2
      okAnd (trailerAt (r.1.updCtx 1 (fun v => v.bear h.rpc h.tag h.ptag woken.frame h.pframe h.ownjc h.parjc h.fmtw h.sclp f.cflags f.nt
          f.root)) 1 h.rpc f) (fun q => okAnd (restoreTrailer q.1 1 (woken.frame + q.2)) (fun s4 =>
        okAnd (restoreArea s4 1 woken.frame h.rpc f (bitsOf h.rpc 56 1 * 2 + woken.len) false) (fun _ => true)))) = true := by
  decide +kernel
/-! Witnesses: the launch unit and the Crier. -/

/-- A region as `launchable` describes it, waiting, loading or running. -/
def launching (st : Nat) (bound : List (Nat × Word)) : Region :=
  { region with
    st := st, bound := bound, live := 0
    words := [0, 0x3FFF, 1, 0, 0, 1 + 2 ^ 8 + 8 * 2 ^ 16 + 4 * 2 ^ 24, 0, 0x0888, 0, 0, 0, 0, tcmWindow + 0x2000, tcmWindow + 0x3000,
      tcmWindow + 0x10000 + 1, 0, 128] }
def launched (st : Nat) (bound : List (Nat × Word)) : State :=
  launchable.updPkg 0 (fun p => { p with booted := true, regions := [launching st bound], waitlist := if st = 1 then [0x20000] else [] })
theorem witness_regions_waitlist :
    (let s := launched 1 []
     (s.pkg 0).booted = true ∧ (s.pkg 0).waitlist = [0x20000] ∧ s.region 0 0x20000 = some (launching 1 []) ∧ (launching 1 []).held = false ∧
      (s.pkg 0).regions.countP (fun q => q.st == 2 || q.st == 3) < 256 ∧ canBind s 0 (launching 1 []) = true) ∧
    (let s := (List.range 64).foldl (fun t i => t.updCtx i (fun v => { v with st := .run })) (launched 1 [])
     canBind s 0 (launching 1 []) = false) ∧
    (run.pkg 0).waitlist = [] ∧ (run.pkg 0).booted = false ∧ run.region 0 0 = none ∧
    ({ launching 1 [] with held := true }).held = true ∧ 0 ∈ (launching 1 []).rect ∧ (launching 1 []).parent = 0 := by decide +kernel
theorem witness_regions_load :
    let r := launching 2 [(0, 0)]
    let s := launched 2 [(0, 0)]
    s.region 0 0x20000 = some r ∧ okAnd (readNdo (regionTranslator r 0) (pkgCtx 0) s r.image) (fun e =>
      nextLoad r e.2 == some 0 && nextLoad { r with loaded := [0] } e.2 == none) = true ∧
    { r with loaded := [0] }.loadedEnough = true ∧ r.loadedEnough = false ∧ (launching 1 []).st ≠ 2 ∧ (launching 1 []).st ≠ 3 := by
  decide +kernel
/-- No root frame is to be had, for the pool is smaller than one. -/
theorem witness_regions_release :
    let r := { launching 2 [(0, 0)] with words := (launching 2 [(0, 0)]).words.set 14 tcmWindow, loaded := [0] }
    let s := (launched 2 []).updPkg 0 (fun p => { p with regions := [r] })
    s.region 0 0x20000 = some r ∧ r.st = 2 ∧ r.loadedEnough = true ∧ r.roots = 1 ∧ poolSize r < roundFrame r.rootsz ∧
      okAnd (readNdo (regionTranslator r 0) (pkgCtx 0) s r.image) (fun _ => true) = true := by
  decide +kernel
theorem witness_regions_release_none (s : State) (r : Region) (h : poolSize r < roundFrame r.rootsz) (hr : r.roots = 1) :
    rootFrames s 0 r (List.range r.roots) = none := by
  rw [rootFrames, hr]
  have ha : ∀ ak, allocFrame (regionTranslator r 0) s (pkgCtx 0) false false 0 r ak (roundFrame r.rootsz) = .ok none := by
    intro ak
    unfold allocFrame
    rw [no_pool s 0 r _ h]
    split <;> rfl
  simp [List.range_succ, ha]
theorem witness_regions_end :
    (let r := launching 3 []
     r.live = 0 ∧ r.abort = false ∧ r.st = 3 ∧ r.left = 0 ∧ (launched 3 []).region 0 0x20000 = some r ∧
      r.ending = none ∧ releasable (launched 3 []) 0 r = true) ∧
    (let r := { launching 3 [(0, 0)] with words := (launching 3 []).words ++ [0, 0, 0, 0x8000] }
     endScope (launched 3 []) 0 r = .sy ∧ releasable ((launched 3 []).upd (fun v => { v with posted := 1 })) 0 r = false ∧
       releasable ((launched 3 []).upd (fun v => { v with hostAddr := some 0 })) 0 r = false ∧
       releasable (launched 3 []) 0 r = true) ∧
    ({ launching 3 [] with ending := some 0 }).ending = some 0 ∧ ({ launching 3 [] with ending := some 4 }).donejc = 0 ∧
    ({ launching 2 [] with abort := true }).abort = true ∧
    (¬((launching 2 []).live = 0 ∧ ((launching 2 []).abort = true ∨ ((launching 2 []).st = 3 ∧ (launching 2 []).left = 0)))) := by
  decide +kernel

/-- A queue of the Crier with its descriptor, one segment and its free ring in TCM, and one packet. -/
def crier (packet : List Nat) (depth : Nat) : State :=
  let s := (run.updPkg 0 (fun p => { p with crqt := BitVec.ofNat 64 (tcmBase 0 + 0x4000) })).updQueue 0 0 (fun k =>
    { k with nest := List.replicate depth (tcmWindow + 0x5000, 1) })
  let descriptor := [(0, tcmWindow + 0x5000), (1, 16), (4, 1), (5, 0x100), (6, tcmWindow + 0x6000), (7, 16)]
  packet.zipIdx.foldl (fun t e => word t (0x5000 + 8 * e.2) e.1) (descriptor.foldl (fun t e => word t (0x4000 + 8 * e.1) e.2) s)
theorem witness_crier_packets :
    ∀ k ∈ [0, 1, 2, 3, 4, 5, 6, 7, 255],
      let s := crier [k, tcmWindow + 0x7000, 1, 0] 0
      turned s 0 0 = .packet k false [k, tcmWindow + 0x7000, 1, 0, 0, 0, 0, 0] ∧ (s.queue 0 0).launches = [] := by decide +kernel
/-- Signals to a channel's aperture, to the Crier, to no translation, and misaligned (R258, R266). -/
theorem witness_crier_signals :
    let v := queueView (crier [] 4) 0 0
    (∀ e ∈ [(0x34000000000, 1), (0x37000000000, 2)],
      let tr : Translator := fun s _ _ => .ok (s, ⟨⟨e.1, false, false, 0, 2⟩, 0⟩)
      okAnd (tr run 0 (devAcc true false)) (fun r => match storageOf r.2.place.pa with
        | .aperture _ _ _ => e.2 == 1
        | .crier _ => e.2 == 2
        | _ => false) = true) ∧
    okAnd (queueTranslator v 0 run (2 ^ 60) (devAcc true false)) (fun _ => true) = false ∧ 4 % 8 ≠ 0 := by decide +kernel
theorem witness_crier_idle : turned run 0 0 = .idle ∧ turned run 0 255 = .idle := by decide +kernel
/-- A queue whose segment does not hold the read position halts; one that has launched waits for its launches. -/
theorem witness_crier_halted :
    turned (word (crier [0] 0) 0x4008 0) 0 0 = .halt 1 ∧
    (let s := (crier [6] 0).updQueue 0 0 (fun k => { k with launches := [0x1000] })
     (s.queue 0 0).launches ≠ [] ∧ turned s 0 0 = .packet 6 false [6, 0, 0, 0, 0, 0, 0, 0]) ∧
    (let s := (crier [2 ^ 8] 0).updQueue 0 0 (fun k => { k with launches := [0x1000] })
     (s.queue 0 0).launches ≠ [] ∧ turned s 0 0 = .packet 0 true [2 ^ 8, 0, 0, 0, 0, 0, 0, 0]) := by decide +kernel
/-- A WAIT that holds and one that does not; an INDIRECT four deep; a LINK inside a buffer and at the ring's edge. -/
theorem witness_crier_wait :
    let s := crier [3, tcmWindow + 0x7000, 1, 0] 0
    let v := queueView s 0 0
    okAnd (readObject (queueTranslator v 0) (pkgCtx 0) s (tcmWindow + 0x7000) 8) (fun e => e.2 == 0) = true ∧
    (let t := word s 0x7000 1
     okAnd (readObject (queueTranslator v 0) (pkgCtx 0) t (tcmWindow + 0x7000) 8) (fun e => e.2 == 1) = true) ∧
    (tcmWindow + 0x7000) % 8 = 0 ∧ 0 % 4 ≠ 3 := by decide +kernel
theorem witness_crier_nesting :
    ((crier [4, tcmWindow + 0x7000, 1] 4).queue 0 0).nest.length = 4 ∧ turned (crier [4, tcmWindow + 0x7000, 1] 4) 0 0 ≠ .idle ∧
    (let s := crier [5, tcmWindow + 0x7000, 2 ^ 20] 0
     let v := queueView s 0 0
     (s.queue 0 0).nest.length = 0 ∧ (tcmWindow + 0x7000) % 64 = 0 ∧ (v.ftail + 2 ^ 64 - v.fhead) % 2 ^ 64 ≠ v.fcap ∧
      (makeSignal (queueTranslator v 0) (pkgCtx 0) s (v.free + 8 * (v.ftail % v.fcap)) v.seg 0).isSome = true) := by decide +kernel
theorem witness_crier_distributor :
    let s := crier [1, tcmWindow + 0x1000] 0
    (s.pkg 0).queues = [(0, ⟨[], []⟩)] ∧ (s.pkg 0).waitlist.length < 64 ∧ launchTurn s 0 0 = some true ∧ (run.pkg 0).queues = [] ∧
      (255 < 256) ∧ ¬256 ≤ 255 := by decide +kernel

/-! Witnesses: the platform. -/

/-- A halted context 0 whose Inspector selects register class `n` at index `i`. -/
def inspected (n i : Nat) : State :=
  (run.upd (fun v => { v with st := .halt, back := .run })).updArcade 0 (fun a => { a with isel := BitVec.ofNat 24 (i * 2 ^ 12 + n * 2 ^ 9) })
theorem witness_platform_inspector :
    (7 < 8) ∧ haltEn (run.stall (arcadeStall 63 7)) = false ∧ (run.ctx 0).st ≠ .halt ∧ run.me.wait ≠ .visit ∧ run.me.saved = none ∧
    (∀ e ∈ [(0, 31), (1, 8), (2, 2), (3, 31), (4, 15), (5, 15), (6, 0)],
      let s := inspected e.1 e.2
      let sel := (s.arcade 0).isel
      let c := 64 * arcadeStall 0 (sel.toNat / 2 ^ 6 % 8) + sel.toNat % 2 ^ 6
      c = 0 ∧ (s.ctx c).st = .halt ∧ (s.ctx c).back = .run ∧ (s.ctx c).wait = .none ∧ sel.toNat / 2 ^ 9 % 8 = e.1 ∧
        sel.toNat / 2 ^ 12 = e.2 ∧ e.2 < (s.ctx c).gsize) := by decide +kernel
theorem witness_platform_groups :
    let s := run.updStall (arcadeStall 0 7) (fun k => { k with haltg := BitVec.ofNat 10 (2 ^ 8 + 5) })
    haltEn (s.stall (arcadeStall 0 7)) = true := by decide
theorem witness_platform_registers :
    (7 < 8) ∧ (1 : Word).getLsbD 0 = true ∧ (0 : Word).getLsbD 0 = false ∧ (Carve.reset).pending = false ∧
      (((run.updHall 0 (fun h => { h with carve := [(7, ⟨0, false, false, true⟩)] })).hall 0).carveOf 7).pending = true ∧ (3 < 4) ∧
      (255 < 256) := by decide
/-- A region that may carve one way, and one that may carve none. -/
theorem witness_platform_carve :
    mayCarve (inRegion region) 0 7 0x200 = false ∧
      mayCarve (inRegion { region with words := List.replicate 6 0 ++ [8 * 2 ^ 32] }) 0 7 0x200 = true := by decide +kernel
theorem witness_platform_writes :
    (∀ n ∈ [1, 2, 3, 4, 5, 6], (mailboxCommand (run.pkg 0) 0 n).isSome = true) ∧
      storageOf (0 * 2 ^ 43 + 0x30000000000) = .hallRegs 0 0 := by decide +kernel
/-- The hash of no bytes is the published one: A69F73CC … 281DCD26 (FIPS 202). -/
theorem test_sha3_of_nothing : (sha3 []).foldl (fun n b => n * 256 + b.toNat) 0 =
    0xA69F73CCA23A9AC5C8B567DC185A756E97C982164FE25859E0D1DCC1475C80A615B2123AF1F5F94C11E3E9402C3AC558F500199D95B6D3E301758586281DCD26 := by
  decide +kernel
theorem witness_platform_boot :
    let i (step : Nat) : BootImage := ⟨step, 0, 1, true⟩
    let k : Package := { run.pkg 0 with m0 := 0, m1 := 0, m2 := 0, m3 := 0, svns := [] }
    (∀ j ∈ [i 1, i 2, i 3, i 4], j.signed = true ∧ k.minSvn j.step ≤ j.svn) ∧ bootNextStep 0 1 = true ∧ bootNextStep 1 0 = false ∧
      (⟨0, 0, 1, false⟩ : BootImage).signed = false ∧ (1 ≤ 2047 ∧ 2047 ≤ 2047) ∧
      (1000 ≤ 2200 ∧ 2200 ≤ 2200) := by decide
/-- Accesses through BAR2: each kind, the last bytes of the window, and a line that a Carter holds. -/
theorem witness_platform_host :
    hdmSize (.read 1) = some 1 ∧ hdmSize (.write [0]) = some 1 ∧ hdmSize (.fetchAdd 8 1) = some 8 ∧ hdmSize (.swap 4 1) = some 4 ∧
      hdmSize (.cas 16 0 1) = some 16 ∧ hdmSize (.swap 2 1) = none ∧ 2 ^ 39 - 8 + 8 ≤ 2 ^ 39 ∧ 8191 < 8192 ∧
      rangeHeldBy run 0 (0 * 2 ^ 43 + (2 ^ 39 - 8)) 8 = none ∧
      (let s := run.updArcade 0 (fun a => a.updChannel 14 (fun q => { q with queue := [{ transfer [] with lines := [(0, 0)] }] }))
       rangeHeldBy s 0 (0 * 2 ^ 43 + 0) 8 ≠ none) := by decide +kernel

/-! Witnesses: the fabric. -/

/-- A fragment of stream `st` standing in hall 0 of package `at'`. -/
def fragment (st at' frag : Nat) : Packet :=
  { stream := st, seq := 1, stripe := 0, frag := frag, k := 1, m := 1, f := 32, fsz := 0, pcls := 0, res0 := 0, length := 8, tag := 0,
    body := .sack 0 0 0, data := [0], send := 1, classes := 1, pkg := at', port := none, hop := 0, detoured := false, hall := 0 }
/-- One from package 0 to hall 0 of package 1. -/
def packet (at' frag : Nat) : Packet := fragment (streamKey 0 4 0) at' frag
def onTheWay (l : List Packet) : State := { run with packets := l }
theorem witness_fabric_packets :
    (∀ p ∈ [packet 1 1, packet 0 1], (onTheWay [p]).packets[0]? = some p) ∧ (onTheWay []).packets[0]? = none ∧
    (packet 1 1).inside = false ∧ nextDirection run (packet 1 1) = none ∧ (packet 1 1).frag < (packet 1 1).k + (packet 1 1).m ∧
      (packet 1 1).stripe < stripeCount (packet 1 1).length (packet 1 1).k (packet 1 1).f ∧ (packet 1 2).k + (packet 1 2).m ≤ (packet 1 2).frag ∧
      (packet 1 1).res0 = 0 ∧ (packet 1 1).fsz ≠ 3 ∧
      nextDirection run (packet 0 1) = some (0, false) ∧ reachable run (packet 0 1) = true ∧ (hopPort run (packet 0 1) 0).isSome = true ∧
      reachable run (fragment (streamKey 0 32 0) 0 1) = false := by decide +kernel
/-- A fragment between two halls of one package: on its way, and at its destination. -/
theorem witness_fabric_packets_inside :
    let p := fragment (streamKey 0 1 0) 0 1
    p.inside = true ∧ nextHall p = some 2 ∧ nextHall { p with hall := 1 } = none := by decide +kernel
/-- The link's counter is exhausted, its far port has no buffer, or the packet can go. -/
theorem witness_fabric_packets_hop :
    let q := (hopPort run (packet 0 1) 0).getD 0
    nextCounter ({ run.port 0 q with txCount := 2 ^ 64 - 1 }) (packet 0 1).flits = none ∧
      nextCounter (run.port 0 q) (packet 0 1).flits = some (run.port 0 q) ∧ neighbour run 0 0 = 1 ∧
      buffersNeeded (packet 0 1) 0 ≤ freeBuffers run 1 (farPort q) 0 ∧
      freeBuffers (onTheWay (List.replicate 8 { packet 1 1 with port := some (farPort q) })) 1 (farPort q) 0 < buffersNeeded (packet 0 1) 0 := by
  decide +kernel
/-- The far port takes what the near port sealed under its key, and nothing that is older than what it took. -/
theorem witness_fabric_packets_sealed (r : Port) (p : Packet) (id : Nat) (h : p.bad = false) :
    (acceptPacket { r with rxMin := 0 } p id r.rxKep 5 (sealPacket p id r.rxKey r.rxKep 5)).isSome = true ∧
      acceptPacket { r with rxMin := 6 } p id r.rxKep 5 (sealPacket p id r.rxKey r.rxKep 5) = none := by
  simp [acceptPacket, openPacket, sealPacket, gcmOpen, gcmSeal, h]
theorem witness_fabric_packets_sound : (packet 0 1).bad = false := by decide +kernel
/-- A fragment's slot: open, with the fragment already there, none, or one too far ahead. -/
theorem witness_fabric_fragments :
    let p := packet 1 1
    let x : Slot := ⟨streamKey 0 4 0, 1, 0, 1, 1, 32, []⟩
    let s := run.updHall 4 (fun h => { h with slots := [x] })
    streamDst p.stream = 4 ∧ settledSeq (run.stream p.stream) p.seq = false ∧
      (s.hall 4).slots.find? (fun x => x.stream == p.stream && x.seq == p.seq && x.stripe == p.stripe) = some x ∧
      (x.frags.any (fun e => e.1 == p.frag)) = false ∧ (({ x with frags := [(1, [])] }).frags.any (fun e => e.1 == p.frag)) = true ∧
      (run.hall 4).slots.length < 1024 ∧ beyondWindow run p.stream p.seq = false ∧
      beyondWindow run p.stream 258 = true ∧ x.k ≤ (x.frags ++ [(p.frag, p.data)]).length := by decide +kernel
theorem witness_fabric_slots :
    let x : Slot := ⟨0, 1, 0, 1, 1, 0, []⟩
    ((run.updHall 0 (fun h => { h with slots := [x] })).hall 0).slots[0]? = some x ∧ (run.hall 0).slots[0]? = none := by decide +kernel
def arriving : Arriving := ⟨⟨1, 0, .sack 0 0 0, []⟩, [(0, [0])], 1, 1, 1⟩
def sent : Sent := ⟨⟨1, 0, .access 0 0 [], [0]⟩, 1, 1, 1, 0⟩
theorem witness_fabric_streams :
    (let st : Stream := { Stream.reset with arriving := [arriving] }
     messageReady st = some arriving ∧ messageHeld run arriving.msg = none ∧ settledSeq st 1 = false ∧
       (st.arriving.find? (fun a => a.msg.seq == 1)).any (fun a => a.stripes.any (fun x => x.1 == 0)) = true) ∧
      messageReady Stream.reset = none ∧
      Stream.reset.waiting = [] ∧ Stream.reset.unsent = [] ∧ Stream.reset.sent = [] ∧
      (let st : Stream := { Stream.reset with unsent := [1] }
       st.unsent ≠ [] ∧ ∀ m ∈ st.unsent, m / 64 * 64 = 0) ∧
    settledSeq Stream.reset 0 = true ∧ settledSeq Stream.reset 1 = false := by decide +kernel
/-- A message between packages sent once or too often, and one inside a package, for the sixteenth time. -/
theorem witness_fabric_streams_resent :
    let k := streamKey 0 4 0
    let s (n : Nat) : State := run.updStream k (fun st => { st with sent := [{ sent with sends := n }] })
    let retry := ((run.hall (streamSrc k)).crateOf (streamClass k)).retry
    ((s 1).stream k).sent.find? (fun y => y.msg.seq == 1) = some { sent with sends := 1 } ∧
      (hallPkg (streamSrc k) == hallPkg (streamDst k) || sent.msg.body.isControl) = false ∧ 1 ≤ retry ∧ retry < retry + 1 ∧
      (hallPkg (streamSrc (streamKey 0 1 0)) == hallPkg (streamDst (streamKey 0 1 0))) = true := by decide +kernel
/-- A message that a line taken by a Carter holds back. -/
theorem witness_fabric_held :
    let j : CarterJob := ⟨1, blank, [], [], none, 0, [], [(0, 0)], [], false⟩
    let s := run.updArcade 0 (fun a => a.updChannel 0 (fun q => { q with queue := [j] }))
    messageHeld s ⟨1, 0, .access 0 0 [], leBytes 8 0 ++ leBytes 8 8⟩ ≠ none ∧
      messageHeld run ⟨1, 0, .access 0 0 [], leBytes 8 0 ++ leBytes 8 8⟩ = none := by decide +kernel
/-- A port that works, one that is not there, one whose counter is exhausted, and one with a packet to send. -/
theorem witness_fabric_ports :
    (run.port 0 0).state ≠ 3 ∧ (run.port 0 0).keyexh = false ∧ (run.port 0 28).state = 3 ∧ nextOnPort run 0 0 = none ∧
      (let s := onTheWay [packet 0 1]
       let q := (hopPort run (packet 0 1) 0).getD 0
       nextOnPort s 0 q = some 0 ∧ s.packets[0]? = some (packet 0 1) ∧ nextCounter (s.port 0 q) (packet 0 1).flits ≠ none) ∧
      ((run.updPort 0 0 (fun v => { v with state := 2, keyexh := true })).port 0 0).keyexh = true ∧
      ((run.updPort 0 0 (fun v => { v with state := 1 })).port 0 0).state = 1 ∧
      ({ run.port 0 0 with pending := some 5 }).pending = some 5 ∧ (run.port 0 0).pending = none := by decide +kernel
theorem witness_fabric_donations :
    (run.pkg 0).brwen = false ∧ (let p := { Package.reset with brwen := true, brwtail := 16 };
      p.brwen = true ∧ p.brwtail - p.brwhead = p.brwcap) ∧
    (let p := { Package.reset with brwen := true, brwtail := 15 };
      p.brwen = true ∧ p.brwtail - p.brwhead ≠ p.brwcap) ∧ (run.ctx 0).hunt = none := by decide
/-! Witnesses: slices. -/

def descriptor (tstart : Nat) : SliceDescriptor := ⟨7, tstart, 10000, [⟨0, 0x20000, 0x30000⟩]⟩
def slice (tstart phase : Nat) : Slice := ⟨descriptor tstart, 0, phase, [], [], [], [], [], []⟩
def sliced (tstart phase : Nat) : State :=
  (inRegion { region with bound := [] }).updPkg 0 (fun p => { p with slices := [slice tstart phase] })
theorem witness_slices :
    (10000 ≤ (descriptor 0).grace ∧ (descriptor 0).grace ≤ 1000000000 ∧ 1 ≤ (descriptor 0).entries.length ∧
      (descriptor 0).entries.length ≤ 8192) ∧ run.slice 0 7 = none ∧ ¬10000 ≤ ({ descriptor 0 with grace := 9999 } : SliceDescriptor).grace ∧
    (∀ p ∈ [1, 2, 3], (sliced 0 p).slice 0 7 = some (slice 0 p) ∧ (slice 0 p).coordinator = 0 ∧ (slice 0 p).phase = p) ∧
    ((descriptor 0).entries.map (·.pkg)).dedup = [0] ∧ 0 ∉ (slice 0 1).ready ∧ 0 ∉ (slice 0 1).refused ∧ 0 ∉ (slice 0 3).evicted ∧
      0 ∉ (slice 0 3).late ∧ coordinated (sliced 0 1) 7 = some (slice 0 1) ∧
      entryOf (descriptor 0) 0 = some ⟨0, 0x20000, 0x30000⟩ ∧ (sliced 0 1).region 0 0x20000 = some { region with bound := [] } ∧
      (sliced 0 1).region 0 0x30000 = none ∧ (slice 0 1).waiting = [] ∧ (slice 0 1).rebind = [] := by decide +kernel
/-- A start time that TIME has reached, and one that it never reaches. -/
theorem witness_slices_time (s : State) :
    (descriptor 0).tstart ≤ s.timeOf 0 ∧ s.timeOf 0 + 100000 < (descriptor (2 ^ 64 + 100000)).tstart ∧
      s.timeOf 0 < (descriptor (2 ^ 64)).tstart + (descriptor (2 ^ 64)).grace := by
  have h : s.timeOf 0 < 2 ^ 64 := BitVec.isLt _
  refine ⟨Nat.zero_le _, ?_, ?_⟩ <;> simp only [descriptor] <;> omega

/-- The incoming region waits, and can be bound; both regions are named. -/
theorem witness_slices_incoming :
    let r := { launching 1 [] with rcb := 0x20000 }
    let s := (sliced 0 1).updPkg 0 (fun p => { p with regions := [r, { region with rcb := 0x30000, bound := [] }] })
    s.region 0 0x20000 = some r ∧ r.st = 1 ∧ (s.region 0 0x30000).isSome = true ∧ canBind s 0 r = true ∧
      (s.slice 0 7).isSome = true ∧ (coordinated run 7).isNone = true ∧ entryOf (descriptor 0) 1 = none := by decide +kernel
/-- A context that the slice asked for, and one that has left the outgoing region. -/
theorem witness_slices_contexts :
    (let s := run.upd (fun v => { v with request := some ⟨1, true, false, false, 7⟩ })
     ((s.ctx 0).request.toList ++ (s.ctx 0).also).any (fun q => q.source == 1 && q.slid == 7) = true) ∧
    ((run.ctx 0).request.toList ++ (run.ctx 0).also).any (fun q => q.source == 1 && q.slid == 7) = false ∧
    (sliced 0 1).region 0 (0x20000 : Word).toNat = some { region with bound := [] } ∧ (run.ctx 1).st = .idle ∧ (run.ctx 1).rcbp ≠ 0x20000 ∧
      (run.ctx 0).st ≠ .idle := by decide +kernel
/-! Witnesses: steps. -/

/-- ADD o1, o2 at the last words of TCM. -/
def placed : State :=
  let i : Instr := .add ⟨.o 1, .o 2, some (.g 3)⟩
  { (putBytes run (tcmBase 0 + 2 ^ 18 - 4) ((encode i).flatMap (fun w => leBytes 2 w.toNat))).upd (fun v => { v with
      pc := BitVec.ofNat 57 (tcmWindow + 2 ^ 18 - 4) }) with sched := [.issue 0] }
theorem witness_step_runs_decoded :
    let u : State := { placed with tick := placed.tick + 1, sched := [], cur := 0 }
    let pc := u.me.pc.toNat
    placed.sched = [.issue 0] ∧ 0 < ctxLimit ∧ canIssue placed 0 = true ∧ u.me.preemptDue = false ∧ u.me.stepping = false ∧
      isMidway placed 0 = false ∧ u.myStall.texts = [] ∧ (Instr.add ⟨.o 1, .o 2, some (.g 3)⟩).wf = true ∧
      (Instr.add ⟨.o 1, .o 2, some (.g 3)⟩).parts.isSome = true ∧
      (encode (.add ⟨.o 1, .o 2, some (.g 3)⟩)).length = 2 ∧ u.inTcm pc 4 ∧ u.intact pc 4 ∧
      homeBytes placed 0 (u.tcmPlace pc).pa 4 = [0xC0, 0xFA, 0x90, 0x00] ∧
      okAnd (fetch u) (fun r =>
        match r.2 with
        | .ok w => w.ps == [0xFAC0] && w.base == 0x0090
        | .error _ => false) = true := by
  unfold State.inTcm State.intact
  decide +kernel
/-- A base word of an unassigned major does not decode; a fetch beyond the address space traps. -/
theorem witness_step_illegal :
    okAnd (decodeRaw ⟨[], 0xF000⟩) (fun _ => true) = false ∧
      okAnd (fetch (placed.upd (fun v => { v with pc := BitVec.ofNat 57 0x20000 }))) (fun _ => true) = false := by decide +kernel
/-- A context that cannot issue, one whose deadline has passed, and one that the Inspector steps. -/
theorem witness_step_issues :
    canIssue (run.upd (fun v => { v with st := .wmem })) 0 = false ∧
    (let s := run.upd (fun v => { v with request := some ⟨0, true, true, false, 0⟩ })
     canIssue s 0 = true ∧ (s.ctx 0).preemptDue = true ∧ isMidway s 0 = false) ∧
    (let s := run.upd (fun v => { v with st := .halt, stepping := true })
     (s.ctx 0).st = .halt ∧ (s.ctx 0).stepping = true ∧ hasIssued run 0 = true) := by decide +kernel
theorem witness_step_turns :
    (let s := { run with due := [.storePerform 0] }
     s.sched = [] ∧ s.tick % 2 = 0 ∧ (nextReady { (s.upd (fun v => { v with st := .idle })) with tick := 1 }).isNone = true) ∧
    run.sched = [] ∧ run.due = [] ∧ (nextReady { run with tick := 1 }).map (fun e => e.1) = some 0 := by decide +kernel
theorem witness_decode_encode :
    (Instr.movi ⟨.g 100, BitVec.intMin 64⟩).wf = false ∧ (Instr.movi ⟨.g 100, -1⟩).wf = true ∧
      (Instr.movi ⟨.g 100, -1⟩).parts.isSome = true := by decide +kernel
theorem witness_step_keeps_memory_form :
    placed.memoryWf ∧ State.reset.memoryWf :=
  ⟨(by decide +kernel : Memory.wf placed.mem = true), reset_memory_wf⟩

/-- Equality of long lists by halves, so that no comparison is deep. -/
def same : Nat → List (Nat × Nat) → List (Nat × Nat) → Bool
  | 0, l, m => l == m
  | n + 1, l, m => same n (l.take (2 ^ (n + 5))) (m.take (2 ^ (n + 5))) && same n (l.drop (2 ^ (n + 5))) (m.drop (2 ^ (n + 5)))
theorem same_eq (n : Nat) : ∀ l m, same n l m = true → l = m := by
  induction n with
  | zero => intro l m h; simpa [same] using h
  | succ n ih =>
    intro l m h
    rw [same, Bool.and_eq_true] at h
    rw [← List.take_append_drop (2 ^ (n + 5)) l, ih _ _ h.1, ih _ _ h.2, List.take_append_drop]
def rootRegion : Region := { launching 2 [(0, 0)] with words := (launching 2 [(0, 0)]).words.set 16 65536, loaded := [0] }
def rootState : State :=
  ((launched 2 []).updPkg 0 (fun p => { p with regions := [rootRegion] })).updArcade 0
    (fun a => { a with slots := (List.range 8191).map (fun i => (i, 0)) })
theorem okAnd_elim {ε α : Type} (r : Except ε α) (p : α → Bool) (h : okAnd r p = true) : ∃ a, r = .ok a ∧ p a = true := by
  cases r with
  | error e => exact absurd h (by simp [okAnd])
  | ok a => exact ⟨a, rfl, h⟩
/-- What the object's read leaves: the slots, the empty pool, and a header that can be written at the pool's base. -/
theorem rootState_read : okAnd (readNdo (regionTranslator rootRegion 0) (pkgCtx 0) rootState rootRegion.image) (fun e =>
    same 8 (e.1.arcade 0).slots ((List.range 8191).map (fun i => (i, 0))) && (framesNear e.1 0 rootRegion).isEmpty &&
      okAnd (writeSpan (regionTranslator rootRegion 0) (pkgCtx 0) (devAcc true false) e.1 (tcmWindow + 0x10000)
        (leBytes 16 0 ++ leBytes 8 (rootRegion.spmap + 0 % 64 * 2 ^ 22 + 8 * 8191) ++ leBytes 104 0)) (fun _ => true)) = true := by
  decide +kernel
theorem witness_regions_release_framed :
    rootState.region 0 0x20000 = some rootRegion ∧ rootRegion.st = 2 ∧ rootRegion.loadedEnough = true ∧
    ∃ s1 x s2 fs, readNdo (regionTranslator rootRegion 0) (pkgCtx 0) rootState rootRegion.image = .ok (s1, x) ∧
      rootFrames s1 0 rootRegion (List.range rootRegion.roots) = some (s2, fs) := by
  refine ⟨by decide +kernel, by decide +kernel, by decide +kernel, ?_⟩
  obtain ⟨⟨s1, x⟩, hr, h⟩ := okAnd_elim _ _ rootState_read
  simp only [Bool.and_eq_true] at h
  obtain ⟨⟨hs, hf⟩, hw⟩ := h
  obtain ⟨w, hw, -⟩ := okAnd_elim _ _ hw
  have hn : roundFrame rootRegion.rootsz = 65536 := by decide +kernel
  have hk : rootRegion.roots = 1 := by decide +kernel
  have ha : 64 * 0 + rootRegion.rect.getD (0 / 8) 0 = 0 := by decide +kernel
  have halloc : ∃ t f, allocFrame (regionTranslator rootRegion 0) s1 (pkgCtx 0) false false 0 rootRegion 0 65536 = .ok (some (t, f)) := by
    unfold allocFrame
    rw [whole_pool s1 rootRegion 65536 (tcmWindow + 0x10000) (by decide) (by decide +kernel) (by decide +kernel) (List.isEmpty_iff.mp hf),
      last_slot s1 (same_eq _ _ _ hs)]
    simp only [hw, bind, Except.bind]
    exact ⟨_, _, rfl⟩
  obtain ⟨t, f, hal⟩ := halloc
  refine ⟨s1, x, t, [f], hr, ?_⟩
  rw [hk, rootFrames]
  simp only [List.range_one, List.foldlM_cons, List.foldlM_nil, hn, ha, hal]
  rfl

end Sys2Proof.Tests
end

-- Every step keeps the canonical form of memory (O60)
section
/-!
Every step keeps the canonical form of memory. Only `putBytes`, `claimUnit` and `clearWay` write `State.mem`, and the laws of the
store say that each keeps its form; every other operation of the model is made of them. There is one lemma per operation of the model,
in the order of the definitions: from a state whose memory has its form, what the operation answers has it too. An operation that takes
another as a parameter (what to do after a release, at a line, at a death) asks it of the parameter.
-/

set_option Elab.async false

namespace Sys2Proof.Machine

variable {s : State}

/-! ### What every proof below uses -/

theorem List.foldl_memoryWf {α : Type} {f : State → α → State} (hf : ∀ t a, t.memoryWf → (f t a).memoryWf) (l : List α) {s : State} (h :
    s.memoryWf) : (l.foldl f s).memoryWf := by
  induction l generalizing s with
  | nil => exact h
  | cons a r ih => exact ih (hf s a h)

theorem Except.exists_of_map {ε α β : Type} {x : Except ε α} {f : α → β} {b : β} (e : x.map f = .ok b) :
    ∃ a, x = .ok a ∧ b = f a := by
  cases x with
  | error y => cases e
  | ok a => exact ⟨a, rfl, (Except.ok.inj e).symm⟩

theorem Except.exists_of_bind {ε α β : Type} {x : Except ε α} {f : α → Except ε β} {b : β} (e : (x >>= f) = .ok b) :
    ∃ a, x = .ok a ∧ f a = .ok b := by
  cases x with
  | error y => cases e
  | ok a => exact ⟨a, rfl, e⟩

theorem Except.throw_eq {ε α : Type} (x : ε) : (throw x : Except ε α) = .error x := rfl

theorem Except.pure_eq {ε α : Type} (a : α) : (pure a : Except ε α) = .ok a := rfl

theorem List.foldl_fst_memoryWf {α β : Type} {f : State × β → α → State × β} (hf : ∀ t a, t.1.memoryWf → (f t a).1.memoryWf)
    (l : List α) {p : State × β} (h : p.1.memoryWf) : (l.foldl f p).1.memoryWf := by
  induction l generalizing p with
  | nil => exact h
  | cons a r ih => exact ih (hf p a h)

theorem List.foldlM_memoryWf {α ε : Type} {f : State → α → Except ε State} (hf : ∀ t a u, t.memoryWf → f t a = .ok u → u.memoryWf)
    {l : List α} {s t : State} (h : s.memoryWf) (e : l.foldlM f s = .ok t) : t.memoryWf := by
  induction l generalizing s with
  | nil => cases e; exact h
  | cons a r ih =>
    rw [List.foldlM_cons] at e
    cases ha : f s a with
    | error x => rw [ha] at e; cases e
    | ok u => rw [ha] at e; exact ih (hf s a u h ha) e

theorem List.foldlM_fst_memoryWf {α β ε : Type} {f : State × β → α → Except ε (State × β)}
    (hf : ∀ t a u, t.1.memoryWf → f t a = .ok u → u.1.memoryWf)
    {l : List α} {p q : State × β} (h : p.1.memoryWf) (e : l.foldlM f p = .ok q) : q.1.memoryWf := by
  induction l generalizing p with
  | nil => cases e; exact h
  | cons a r ih =>
    rw [List.foldlM_cons] at e
    cases ha : f p a with
    | error x => rw [ha] at e; cases e
    | ok u => rw [ha] at e; exact ih (hf p a u h ha) e

theorem List.foldlM_option_memoryWf {α : Type} {f : State → α → Option State} (hf : ∀ t a u, t.memoryWf → f t a = some u → u.memoryWf)
    {l : List α} {s t : State} (h : s.memoryWf) (e : l.foldlM f s = some t) : t.memoryWf := by
  induction l generalizing s with
  | nil => cases e; exact h
  | cons a r ih =>
    rw [List.foldlM_cons] at e
    cases ha : f s a with
    | none => rw [ha] at e; cases e
    | some u => rw [ha] at e; exact ih (hf s a u h ha) e

theorem List.foldlM_option_fst_memoryWf {α β : Type} {f : State × β → α → Option (State × β)}
    (hf : ∀ t a u, t.1.memoryWf → f t a = some u → u.1.memoryWf)
    {l : List α} {p q : State × β} (h : p.1.memoryWf) (e : l.foldlM f p = some q) : q.1.memoryWf := by
  induction l generalizing p with
  | nil => cases e; exact h
  | cons a r ih =>
    rw [List.foldlM_cons] at e
    cases ha : f p a with
    | none => rw [ha] at e; cases e
    | some u => rw [ha] at e; exact ih (hf p a u h ha) e

def Translator.KeepsForm (tr : Translator) : Prop := ∀ s va a t, s.memoryWf → tr s va a = .ok t → t.1.memoryWf

theorem Option.getD_memoryWf {o : Option State} (ho : ∀ t, o = some t → t.memoryWf) (h : s.memoryWf) : (o.getD s).memoryWf := by
  cases o with
  | none => exact h
  | some t => exact ho t rfl

theorem Except.ok_of_toOption {ε α : Type} {x : Except ε α} {a : α} (e : x.toOption = some a) : x = .ok a := by
  cases x with
  | error y => cases e
  | ok b => exact congrArg _ (Option.some.inj e)

theorem Except.ok_of_guard {ε α : Type} {p : Prop} [Decidable p] {x : ε} {k : Unit → Except ε α} {a : α}
    (e : (if p then (throw x : Except ε Unit) >>= k else k ()) = .ok a) : k () = .ok a := by
  split at e
  · cases e
  · exact e

theorem Except.ok_of_mapError {ε δ α : Type} {x : Except ε α} {f : ε → δ} {a : α} (e : x.mapError f = .ok a) : x = .ok a := by
  cases x with
  | error y => cases e
  | ok b => exact congrArg _ (Except.ok.inj e)

theorem forall_elim_induction {α : Type} {motive : α → Prop} (mk : ∀ a, motive a) (a : α) : motive a := mk a

theorem State.memoryWf_of_fst {β : Type} {p : State × β} {u b} (e : p = (u, b)) (h : p.1.memoryWf) : u.memoryWf := by
  rw [e] at h
  exact h

/-! ### The operations of Machine/Ops.lean -/

theorem State.setCtx_memoryWf {c v} (h : s.memoryWf) : (State.setCtx s c v).memoryWf := by
  unfold State.setCtx
  grind [State.memoryWf]

theorem State.updCtx_memoryWf {c f} (h : s.memoryWf) : (State.updCtx s c f).memoryWf := by
  unfold State.updCtx
  grind [State.memoryWf, State.setCtx_memoryWf]

theorem State.upd_memoryWf {f} (h : s.memoryWf) : (State.upd s f).memoryWf := by
  unfold State.upd
  grind [State.memoryWf, State.updCtx_memoryWf]

theorem State.setStall_memoryWf {k v} (h : s.memoryWf) : (State.setStall s k v).memoryWf := by
  unfold State.setStall
  grind [State.memoryWf]

theorem State.updStall_memoryWf {k f} (h : s.memoryWf) : (State.updStall s k f).memoryWf := by
  unfold State.updStall
  grind [State.memoryWf, State.setStall_memoryWf]

theorem State.updMyStall_memoryWf {f} (h : s.memoryWf) : (State.updMyStall s f).memoryWf := by
  unfold State.updMyStall
  grind [State.memoryWf, State.updStall_memoryWf]

theorem State.updArcade_memoryWf {a f} (h : s.memoryWf) : (State.updArcade s a f).memoryWf := by
  unfold State.updArcade
  grind [State.memoryWf]

theorem State.updHall_memoryWf {hk f} (h : s.memoryWf) : (State.updHall s hk f).memoryWf := by
  unfold State.updHall
  grind [State.memoryWf]

theorem State.updPkg_memoryWf {p f} (h : s.memoryWf) : (State.updPkg s p f).memoryWf := by
  unfold State.updPkg
  grind [State.memoryWf]

theorem State.updStream_memoryWf {k f} (h : s.memoryWf) : (State.updStream s k f).memoryWf := by
  unfold State.updStream
  grind [State.memoryWf]

theorem State.updPort_memoryWf {p q f} (h : s.memoryWf) : (State.updPort s p q f).memoryWf := by
  unfold State.updPort
  grind [State.memoryWf, State.updPkg_memoryWf]

theorem State.cause_memoryWf {ev} (h : s.memoryWf) : (State.cause s ev).memoryWf := by
  unfold State.cause
  grind [State.memoryWf]

theorem State.causeOnce_memoryWf {ev} (h : s.memoryWf) : (State.causeOnce s ev).memoryWf := by
  unfold State.causeOnce
  grind [State.memoryWf, State.cause_memoryWf]

theorem State.next_memoryWf {ev} (h : s.memoryWf) : (State.next s ev).memoryWf := by
  unfold State.next
  grind [State.memoryWf]

theorem State.putG_memoryWf {c r w} (h : s.memoryWf) : (State.putG s c r w).memoryWf := by
  unfold State.putG
  grind [State.memoryWf, State.updCtx_memoryWf]

theorem State.writeG_memoryWf {c r w} (h : s.memoryWf) : (State.writeG s c r w).memoryWf := by
  unfold State.writeG
  grind [State.memoryWf, State.updCtx_memoryWf, State.putG_memoryWf]

theorem State.writeV_memoryWf {c i w} (h : s.memoryWf) : (State.writeV s c i w).memoryWf := by
  unfold State.writeV
  grind [State.memoryWf]

theorem State.raise_memoryWf {c f} (h : s.memoryWf) : (State.raise s c f).memoryWf := by
  unfold State.raise
  grind [State.memoryWf, State.updCtx_memoryWf]

theorem State.advance_memoryWf (h : s.memoryWf) : (State.advance s).memoryWf := by
  unfold State.advance
  grind [State.memoryWf, State.upd_memoryWf]

theorem State.stay_memoryWf (h : s.memoryWf) : (State.stay s).memoryWf := by
  unfold State.stay
  grind [State.memoryWf, State.updMyStall_memoryWf, State.upd_memoryWf]

theorem State.goto_memoryWf {x} (h : s.memoryWf) : (State.goto s x).memoryWf := by
  unfold State.goto
  grind [State.memoryWf, State.upd_memoryWf]

theorem State.beginDeath_memoryWf {c d} (h : s.memoryWf) : (State.beginDeath s c d).memoryWf := by
  unfold State.beginDeath
  grind [State.memoryWf, State.next_memoryWf, State.updCtx_memoryWf]

theorem State.trap_memoryWf {c x} (h : s.memoryWf) : (State.trap s c x).memoryWf := by
  unfold State.trap
  grind [State.memoryWf, State.updCtx_memoryWf, State.beginDeath_memoryWf]

/-! ### The operations of Machine/Csr.lean -/

theorem clearBank_memoryWf {k bank} (h : s.memoryWf) : (clearBank s k bank).memoryWf := by
  unfold clearBank
  grind [State.memoryWf]

theorem regate_memoryWf {k} (h : s.memoryWf) : (regate s k).memoryWf := by
  unfold regate
  grind [State.memoryWf, List.foldl_memoryWf, List.foldl_fst_memoryWf, State.updStall_memoryWf, clearBank_memoryWf]

theorem writeCsr_memoryWf {c r w t} (h : s.memoryWf) (e : writeCsr s c r w = some t) : t.memoryWf := by
  unfold writeCsr at e
  grind [State.memoryWf, → Except.exists_of_bind, Except.pure_eq, Except.throw_eq, State.updCtx_memoryWf, State.updStall_memoryWf,
    regate_memoryWf]

/-! ### The operations of Machine/Memory.lean -/

theorem putBytes_memoryWf {a b} (h : s.memoryWf) : (putBytes s a b).memoryWf := putBytes_wf _ _ h

theorem writeHome_memoryWf {a b c} (h : s.memoryWf) : (writeHome s a b c).memoryWf := writeHome_wf _ _ _ h

theorem markHome_memoryWf {key pa} (h : s.memoryWf) : (markHome s key pa).memoryWf := by
  unfold markHome
  grind [State.memoryWf]

theorem writeBackL2_memoryWf {hall key line} (h : s.memoryWf) : (writeBackL2 s hall key line).memoryWf := by
  unfold writeBackL2
  grind [State.memoryWf, List.foldl_memoryWf, List.foldl_fst_memoryWf, writeHome_memoryWf, markHome_memoryWf]

theorem dropL2_memoryWf {hall key line} (h : s.memoryWf) : (dropL2 s hall key line).memoryWf := by
  unfold dropL2
  grind [State.memoryWf, writeBackL2_memoryWf]

theorem placeL2_memoryWf {hall key line v} (h : s.memoryWf) : (placeL2 s hall key line v).1.memoryWf := by
  unfold placeL2
  grind [State.memoryWf, dropL2_memoryWf]

theorem fetchL2_memoryWf {hall p keep} (h : s.memoryWf) : (fetchL2 s hall p keep).1.memoryWf := by
  unfold fetchL2
  grind [State.memoryWf, placeL2_memoryWf]

theorem hallRead_memoryWf {hall p n keep} (h : s.memoryWf) : (hallRead s hall p n keep).1.memoryWf := by
  unfold hallRead
  grind [State.memoryWf, fetchL2_memoryWf]

theorem hallWrite_memoryWf {hall p bs keep} (h : s.memoryWf) : (hallWrite s hall p bs keep).memoryWf := by
  unfold hallWrite
  grind [State.memoryWf, writeHome_memoryWf, fetchL2_memoryWf]

theorem markHall_memoryWf {hall key pa} (h : s.memoryWf) : (markHall s hall key pa).memoryWf := by
  unfold markHall
  grind [State.memoryWf, markHome_memoryWf]

theorem writeBackLine_memoryWf {k key line} (h : s.memoryWf) : (writeBackLine s k key line).memoryWf := by
  unfold writeBackLine
  grind [State.memoryWf, List.foldl_memoryWf, List.foldl_fst_memoryWf, hallWrite_memoryWf, markHall_memoryWf]

theorem dropLine_memoryWf {k key line} (h : s.memoryWf) : (dropLine s k key line).memoryWf := by
  unfold dropLine
  grind [State.memoryWf]

theorem recallLine_memoryWf {key line k} (h : s.memoryWf) : (recallLine s key line k).memoryWf := by
  unfold recallLine
  grind [State.memoryWf, dropLine_memoryWf, writeBackLine_memoryWf]

theorem placeL1_memoryWf {k key line l} (h : s.memoryWf) : (placeL1 s k key line l).memoryWf := by
  unfold placeL1
  grind [State.memoryWf, recallLine_memoryWf]

theorem ownLine_memoryWf {k p keep} (h : s.memoryWf) : (ownLine s k p keep).memoryWf := by
  unfold ownLine
  grind [State.memoryWf, List.foldl_memoryWf, List.foldl_fst_memoryWf, Option.getD_memoryWf, recallLine_memoryWf, dropLine_memoryWf,
    hallRead_memoryWf, placeL1_memoryWf]

theorem dropShared_memoryWf {k key line} (h : s.memoryWf) : (dropShared s k key line).memoryWf := by
  unfold dropShared
  grind [State.memoryWf, List.foldl_memoryWf, List.foldl_fst_memoryWf, dropLine_memoryWf]

theorem storeL1_memoryWf {c p bs keep through} (h : s.memoryWf) : (storeL1 s c p bs keep through).memoryWf := by
  unfold storeL1
  grind [State.memoryWf, dropShared_memoryWf, ownLine_memoryWf, hallWrite_memoryWf]

theorem storeNoAlloc_memoryWf {c p bs} (h : s.memoryWf) : (storeNoAlloc s c p bs).memoryWf := by
  unfold storeNoAlloc
  grind [State.memoryWf, List.foldl_memoryWf, List.foldl_fst_memoryWf, hallWrite_memoryWf]

theorem performStore_memoryWf {c p bs policy} (h : s.memoryWf) : (performStore s c p bs policy).memoryWf := by
  unfold performStore
  grind [State.memoryWf, storeL1_memoryWf, storeNoAlloc_memoryWf, writeHome_memoryWf]

theorem readLine_memoryWf {k p l} (h : s.memoryWf) : (readLine s k p l).1.memoryWf := by
  unfold readLine
  grind [State.memoryWf, hallRead_memoryWf]

theorem readHeld_memoryWf {k p} (h : s.memoryWf) : (readHeld s k p).1.memoryWf := by
  unfold readHeld
  grind [State.memoryWf, readLine_memoryWf]

theorem loadPlace_memoryWf {c p n pol} (h : s.memoryWf) : (loadPlace s c p n pol).1.memoryWf := by
  unfold loadPlace
  cases supplier s (ctxStall c) p <;> dsimp only [Option.map] <;> (repeat' split) <;>
    grind [State.memoryWf, placeL1_memoryWf, readHeld_memoryWf, hallRead_memoryWf, readLine_memoryWf]

theorem arcadeRead_memoryWf {ak p n} (h : s.memoryWf) : (arcadeRead s ak p n).1.memoryWf := by
  unfold arcadeRead
  cases ownerIn s ak p.key (p.pa / 64) <;> grind [readHeld_memoryWf, hallRead_memoryWf]

theorem writeBackTagged_memoryWf {c} (h : s.memoryWf) : (writeBackTagged s c).memoryWf := by
  unfold writeBackTagged
  grind [State.memoryWf, List.foldl_memoryWf, List.foldl_fst_memoryWf, State.updCtx_memoryWf, writeBackLine_memoryWf]

theorem writeBackVisitors_memoryWf {hall tbm} (h : s.memoryWf) : (writeBackVisitors s hall tbm).memoryWf := by
  unfold writeBackVisitors
  grind [State.memoryWf, List.foldl_memoryWf, List.foldl_fst_memoryWf, writeBackL2_memoryWf]

theorem releaseCaches_memoryWf {c scope} (h : s.memoryWf) : (releaseCaches s c scope).memoryWf := by
  unfold releaseCaches
  grind [State.memoryWf, writeBackTagged_memoryWf, writeBackVisitors_memoryWf, State.updCtx_memoryWf]

theorem coverCaches_memoryWf {c scope} (h : s.memoryWf) : (coverCaches s c scope).memoryWf := by
  unfold coverCaches
  grind [State.memoryWf, writeBackTagged_memoryWf, writeBackVisitors_memoryWf, State.updCtx_memoryWf]

theorem bumpL1_memoryWf {k} (h : s.memoryWf) : (bumpL1 s k).memoryWf := by
  unfold bumpL1
  grind [State.memoryWf, State.updStall_memoryWf]

theorem bumpL2_memoryWf {hk} (h : s.memoryWf) : (bumpL2 s hk).memoryWf := by
  unfold bumpL2
  grind [State.memoryWf, State.updHall_memoryWf]

theorem acquireCaches_memoryWf {c scope} (h : s.memoryWf) : (acquireCaches s c scope).memoryWf := by
  unfold acquireCaches
  grind [State.memoryWf, bumpL1_memoryWf, bumpL2_memoryWf]

/-! ### The operations of Machine/Coding.lean -/

theorem transmit_memoryWf {key x} (h : s.memoryWf) : (transmit s key x).memoryWf := by
  unfold transmit
  grind [State.memoryWf, List.foldl_memoryWf, List.foldl_fst_memoryWf, State.cause_memoryWf]

theorem encodeMessage_memoryWf {key tag body bytes} (h : s.memoryWf) : (encodeMessage s key tag body bytes).memoryWf := by
  unfold encodeMessage
  grind [State.memoryWf, transmit_memoryWf, State.updStream_memoryWf]

theorem restick_memoryWf {b f} (h : s.memoryWf) : (restick s b f).memoryWf := by
  unfold restick
  grind [State.memoryWf, State.updCtx_memoryWf]

theorem offerMessage_memoryWf {key tag body bytes} (h : s.memoryWf) : (offerMessage s key tag body bytes).memoryWf := by
  unfold offerMessage
  grind [State.memoryWf, restick_memoryWf, State.updStream_memoryWf, encodeMessage_memoryWf]

theorem sendMessage_memoryWf {src dst cls tag body bytes} (h : s.memoryWf) : (sendMessage s src dst cls tag body bytes).memoryWf := by
  unfold sendMessage
  grind [State.memoryWf, offerMessage_memoryWf]

/-! ### The operations of Machine/Regions.lean -/

theorem State.updRegion_memoryWf {pkg rcb f} (h : s.memoryWf) : (State.updRegion s pkg rcb f).memoryWf := by
  unfold State.updRegion
  grind [State.memoryWf, State.updPkg_memoryWf]

/-! ### The operations of Machine/Translate.lean -/

theorem readTable_memoryWf {hall pa n} (h : s.memoryWf) : (readTable s hall pa n).1.memoryWf := by
  unfold readTable
  grind [State.memoryWf, hallRead_memoryWf]

def walkLevel (s : State) (hall va rbits : Nat) (a : Acc) (lvl base : Nat) (down : State → Nat → Except Trap (State × Nat × Nat)) :
    Except Trap (State × Nat × Nat) :=
  let idx := if lvl = 3 then va / 2 ^ 39 % 2 ^ rbits else va / 2 ^ (12 + 9 * lvl) % 512
  let pa := base + 8 * idx
  if !paAssigned s (hallPkg hall) pa then .error (a.page va lvl 6)
  else if uncarved s pa then .error (a.prot va lvl 8)
  else if hallBad s hall (tablePlace hall pa) 8 then .error (a.ecc va true)
  else
    let (s', e) := readTable s hall pa 8
    if !bitOf e 0 then .error (a.page va lvl 2)
    else if entryRes0 e lvl then .error (a.page va lvl 3)
    else if bitOf e 1 then (if lvl = 3 then .error (a.page va lvl 4) else .ok (s', e, lvl))
    else down s' (bitsOf e 55 12 * 4096)

theorem walkFrom_succ (s hall va rbits a n base) : walkFrom s hall va rbits a (n + 1) base =
   walkLevel s hall va rbits a (n + 1) base (fun t b => walkFrom t hall va rbits a n b) := rfl

theorem walkFrom_zero (s hall va rbits a base) : walkFrom s hall va rbits a 0 base =
   walkLevel s hall va rbits a 0 base (fun _ _ => .error (a.page va 0 4)) := rfl

theorem walkFrom_memoryWf {hall va rbits a lvl base t} (h : s.memoryWf) (e : walkFrom s hall va rbits a lvl base = .ok t) : t.1.memoryWf
    := by
  induction lvl generalizing s base with
  | zero => rw [walkFrom_zero, walkLevel] at e; grind [readTable_memoryWf]
  | succ n ih => rw [walkFrom_succ, walkLevel] at e; grind [readTable_memoryWf]

theorem walk_memoryWf {hall ptbr va a t} (h : s.memoryWf) (e : walk s hall ptbr va a = .ok t) : t.1.memoryWf := by
  unfold walk at e
  grind [State.memoryWf, → Except.exists_of_bind, Except.pure_eq, Except.throw_eq, → walkFrom_memoryWf]

theorem readKeySlot_memoryWf {c ptbr keyt ksel} (h : s.memoryWf) : (readKeySlot s c ptbr keyt ksel).1.memoryWf := by
  unfold readKeySlot
  grind [State.memoryWf, → Except.exists_of_bind, Except.pure_eq, Except.throw_eq, readTable_memoryWf, → walk_memoryWf]

theorem walkLeaf_memoryWf {c ptbr keyt va a t} (h : s.memoryWf) (e : walkLeaf s c ptbr keyt va a = .ok t) : t.1.memoryWf := by
  unfold walkLeaf at e
  grind [State.memoryWf, → Except.exists_of_bind, Except.pure_eq, Except.throw_eq, → walk_memoryWf, readKeySlot_memoryWf]

theorem touchTlb_memoryWf {c x} (h : s.memoryWf) : (touchTlb s c x).memoryWf := by
  unfold touchTlb
  grind [State.memoryWf, State.setStall_memoryWf]

theorem translateFar_memoryWf {far va a t} (h : s.memoryWf) (e : translateFar far s va a = .ok t) : t.1.memoryWf := by
  unfold translateFar at e
  grind [State.memoryWf, → Except.exists_of_bind, Except.pure_eq, Except.throw_eq, touchTlb_memoryWf]

theorem translate_memoryWf {a1 a2} {t} (h : s.memoryWf) (e : (translate s a1 a2) = .ok t) : t.1.memoryWf := by
  unfold translate at e; grind [translateFar_memoryWf]

theorem translate_keepsForm : Translator.KeepsForm translate := fun _ _ _ _ h e => translate_memoryWf h e

theorem translateNow_memoryWf {c va a t} (h : s.memoryWf) (e : translateNow s c va a = .ok t) : t.1.memoryWf := by
  unfold translateNow at e
  grind [State.memoryWf, → Except.exists_of_bind, Except.pure_eq, Except.throw_eq, → Except.exists_of_map, touchTlb_memoryWf,
    → walkLeaf_memoryWf, State.updStall_memoryWf]

/-! ### The operations of Machine/Registers.lean -/

theorem inspectWrite_memoryWf {ak x} (h : s.memoryWf) : (inspectWrite s ak x).memoryWf := by
  unfold inspectWrite
  grind [Option.getD_memoryWf, Option.bind_eq_some_iff, State.putG_memoryWf, → writeCsr_memoryWf, State.writeV_memoryWf,
      State.updCtx_memoryWf]

theorem resetDigest_memoryWf {ak} (h : s.memoryWf) : (resetDigest s ak).memoryWf := by
  unfold resetDigest
  grind [State.memoryWf, State.updArcade_memoryWf]

theorem writeInspector_memoryWf {ak r n} (h : s.memoryWf) : (writeInspector s ak r n).memoryWf := by
  unfold writeInspector
  grind [State.memoryWf, State.updArcade_memoryWf, State.cause_memoryWf, inspectWrite_memoryWf, resetDigest_memoryWf]

theorem emptyWay_memoryWf {hk way} (h : s.memoryWf) : (emptyWay s hk way).memoryWf := by
  unfold emptyWay
  grind [State.memoryWf, List.foldl_memoryWf, List.foldl_fst_memoryWf, dropL2_memoryWf]

theorem clearWay_memoryWf {hk k} (h : s.memoryWf) : (clearWay s hk k).memoryWf := Store.canonical_filter _ h

theorem setCarve_memoryWf {hk k v} (h : s.memoryWf) : (setCarve s hk k v).memoryWf := by
  unfold setCarve
  grind [State.memoryWf, State.updHall_memoryWf]

theorem writeCarve_memoryWf {hk k n} (h : s.memoryWf) : (writeCarve s hk k n).memoryWf := by
  unfold writeCarve
  grind [State.memoryWf, setCarve_memoryWf, State.cause_memoryWf, emptyWay_memoryWf, clearWay_memoryWf]

theorem writeCrate_memoryWf {hk c n} (h : s.memoryWf) : (writeCrate s hk c n).memoryWf := by
  unfold writeCrate
  grind [State.memoryWf, State.updHall_memoryWf]

theorem writeHallReg_memoryWf {hk off n} (h : s.memoryWf) : (writeHallReg s hk off n).memoryWf := by
  unfold writeHallReg
  grind [State.memoryWf, State.updPkg_memoryWf, writeCarve_memoryWf, State.updHall_memoryWf, writeInspector_memoryWf,
    writeCrate_memoryWf]

theorem writeHallRegBytes_memoryWf {hk off bs} (h : s.memoryWf) : (writeHallRegBytes s hk off bs).memoryWf := by
  unfold writeHallRegBytes
  grind [State.memoryWf, writeHallReg_memoryWf]

/-! ### The operations of Machine/Templates.lean -/

theorem setTemplate_memoryWf {ak slot bs} (h : s.memoryWf) : (setTemplate s ak slot bs).1.memoryWf := by
  unfold setTemplate
  grind [State.memoryWf, putBytes_memoryWf]

/-! ### The operations of Machine/Access.lean -/

theorem postStore_memoryWf {c p stores payload} (h : s.memoryWf) : (postStore s c p stores payload).memoryWf := by
  unfold postStore
  grind [State.memoryWf, sendMessage_memoryWf, State.updCtx_memoryWf]

theorem postBlock_memoryWf {c qs} (h : s.memoryWf) : (postBlock s c qs).memoryWf := by
  unfold postBlock
  grind [State.memoryWf, postStore_memoryWf]

theorem performAt_memoryWf {c q} (h : s.memoryWf) : (performAt s c q).memoryWf := by
  unfold performAt
  grind [State.memoryWf, postStore_memoryWf, writeHallRegBytes_memoryWf, performStore_memoryWf, State.updCtx_memoryWf,
    writeHome_memoryWf]

theorem performOldest_memoryWf {c} (h : s.memoryWf) : (performOldest s c).memoryWf := by
  unfold performOldest
  grind [State.memoryWf, postBlock_memoryWf, State.updCtx_memoryWf, performAt_memoryWf]

theorem drainFrom_memoryWf {n c} (h : s.memoryWf) : (drainFrom n s c).memoryWf := by
  induction n generalizing s with
  | zero => exact h
  | succ n ih => exact ih (performOldest_memoryWf h)

theorem drain_memoryWf {c} (h : s.memoryWf) : (drain s c).memoryWf := by
  unfold drain
  grind [State.memoryWf, drainFrom_memoryWf]

theorem settled_memoryWf {c t} (h : s.memoryWf) (e : settled s c = .ok t) : t.memoryWf := by
  unfold settled at e
  grind [State.memoryWf, → Except.exists_of_bind, Except.pure_eq, Except.throw_eq, drain_memoryWf]

theorem settledLoad_memoryWf {c t} (h : s.memoryWf) (e : settledLoad s c = .ok t) : t.memoryWf := by
  unfold settledLoad at e
  grind [State.memoryWf, → Except.exists_of_bind, Except.pure_eq, Except.throw_eq, drain_memoryWf]

theorem roomFor_memoryWf {c n near t} (h : s.memoryWf) (e : roomFor s c n near = .ok t) : t.memoryWf := by
  unfold roomFor at e
  grind [State.memoryWf, → List.foldlM_memoryWf, → List.foldlM_fst_memoryWf, → Except.exists_of_bind, Except.pure_eq, Except.throw_eq,
    → settled_memoryWf]

theorem makeRoom_memoryWf {c p} (h : s.memoryWf) : (makeRoom s c p).memoryWf := by
  unfold makeRoom
  grind [State.memoryWf, List.foldl_memoryWf, List.foldl_fst_memoryWf, performOldest_memoryWf, drain_memoryWf]

theorem pushStore_memoryWf {c q} (h : s.memoryWf) : (pushStore s c q).memoryWf := by
  unfold pushStore
  grind [State.memoryWf, State.cause_memoryWf, State.updCtx_memoryWf, makeRoom_memoryWf]

theorem pushBlock_memoryWf {c qs} (h : s.memoryWf) : (pushBlock s c qs).memoryWf := by
  unfold pushBlock
  grind [State.memoryWf, State.updCtx_memoryWf, postBlock_memoryWf, drain_memoryWf, State.cause_memoryWf]

theorem engineRelease_memoryWf {c scope} (h : s.memoryWf) : (engineRelease s c scope).memoryWf := by
  unfold engineRelease
  grind [State.memoryWf, List.foldl_memoryWf, List.foldl_fst_memoryWf, bumpL2_memoryWf]

theorem releaseAt_memoryWf {c scope eng} (h : s.memoryWf) : (releaseAt s c scope eng).memoryWf := by
  unfold releaseAt
  grind [State.memoryWf, releaseCaches_memoryWf, engineRelease_memoryWf]

theorem withReleaseOf_memoryWf {r n sc} {rest : State → Except Stop State} {t} (hr : ∀ u t, u.memoryWf → rest u = .ok t → t.memoryWf) (h
    : s.memoryWf) (e : withReleaseOf r n s sc rest = .ok t) : t.memoryWf := by
  unfold withReleaseOf at e; grind [State.memoryWf, → Except.exists_of_bind, Except.pure_eq, Except.throw_eq, settled_memoryWf,
      State.trap_memoryWf, State.upd_memoryWf, releaseAt_memoryWf]

theorem withRelease_memoryWf {sc n} {rest : State → Except Stop State} {t} (hr : ∀ u t, u.memoryWf → rest u = .ok t → t.memoryWf) (h :
    s.memoryWf) (e : withRelease s sc n rest = .ok t) : t.memoryWf := withReleaseOf_memoryWf hr h e

theorem withQuietRelease_memoryWf {sc} {rest : State → Except Stop State} {t} (hr : ∀ u t, u.memoryWf → rest u = .ok t → t.memoryWf) (h
    : s.memoryWf) (e : withQuietRelease s sc rest = .ok t) : t.memoryWf := withReleaseOf_memoryWf hr h e

theorem releaseThen_memoryWf {sc n} {rest : State → Except Stop State} {t} (hr : ∀ u t, u.memoryWf → rest u = .ok t → t.memoryWf) (h :
    s.memoryWf) (e : releaseThen s sc n rest = .ok t) : t.memoryWf := withReleaseOf_memoryWf hr h e

theorem askHost_memoryWf {c} (h : s.memoryWf) : (askHost s c).memoryWf := by
  unfold askHost
  grind [State.memoryWf, State.cause_memoryWf, State.updCtx_memoryWf]

theorem narrowRelease_memoryWf {c scope} (h : s.memoryWf) : (narrowRelease s c scope).memoryWf := by
  unfold narrowRelease
  grind [State.memoryWf, State.updCtx_memoryWf]

theorem covering_memoryWf {scope t} (h : s.memoryWf) (e : covering s scope = .ok t) : t.memoryWf := by
  unfold covering at e
  grind [State.memoryWf, → Except.exists_of_bind, Except.pure_eq, Except.throw_eq, → settled_memoryWf, coverCaches_memoryWf]

theorem releaseNow_memoryWf {c scope} (h : s.memoryWf) : (releaseNow s c scope).memoryWf := by
  unfold releaseNow
  grind [State.memoryWf, releaseCaches_memoryWf, drain_memoryWf]

theorem performThrough_memoryWf {c q} (h : s.memoryWf) : (performThrough s c q).memoryWf := by
  unfold performThrough
  grind [State.memoryWf, performAt_memoryWf, storeNoAlloc_memoryWf, storeL1_memoryWf, writeBackL2_memoryWf]

theorem forwarded_memoryWf {c p n t} (h : s.memoryWf) (e : forwarded s c p n = .ok t) : t.1.memoryWf := by
  unfold forwarded at e
  grind [State.memoryWf, → Except.exists_of_bind, Except.pure_eq, Except.throw_eq, → Except.exists_of_map, → settledLoad_memoryWf]

theorem readStorage_memoryWf {c p n policy} (h : s.memoryWf) : (readStorage s c p n policy).1.memoryWf := by
  unfold readStorage
  grind [State.memoryWf, loadPlace_memoryWf]

theorem readPlace_memoryWf {c p n policy t} (h : s.memoryWf) (e : readPlace s c p n policy = .ok t) : t.1.memoryWf := by
  unfold readPlace at e
  grind [State.memoryWf, → Except.exists_of_bind, Except.pure_eq, Except.throw_eq, → forwarded_memoryWf, readStorage_memoryWf]

theorem readNow_memoryWf {c p n} (h : s.memoryWf) : (readNow s c p n).1.memoryWf := by
  unfold readNow
  grind [State.memoryWf, readStorage_memoryWf, drain_memoryWf]

theorem writeDest_memoryWf {c d bs} (h : s.memoryWf) : (writeDest s c d bs).memoryWf := by
  unfold writeDest
  grind [State.memoryWf, State.writeG_memoryWf, State.putG_memoryWf, State.updCtx_memoryWf, State.writeV_memoryWf, setTemplate_memoryWf]

/-! ### The operations of Machine/Network.lean -/

theorem toInbox_memoryWf {ak m} (h : s.memoryWf) : (toInbox s ak m).memoryWf := by
  unfold toInbox
  grind [State.memoryWf, State.cause_memoryWf, State.updArcade_memoryWf]

theorem sendTo_memoryWf {src dst m} (h : s.memoryWf) : (sendTo s src dst m).memoryWf := by
  unfold sendTo
  grind [State.memoryWf, toInbox_memoryWf, sendMessage_memoryWf]

theorem postMessage_memoryWf {src dst stallTo tag stall kind act} (h : s.memoryWf) : (postMessage s src dst stallTo tag stall kind
    act).memoryWf := by
  unfold postMessage
  grind [State.memoryWf, State.cause_memoryWf, sendTo_memoryWf]

theorem takeVisit_memoryWf {who ak t} (h : s.memoryWf) (e : takeVisit s who ak = some t) : t.memoryWf := by
  unfold takeVisit at e
  grind [State.memoryWf, → Except.exists_of_bind, Except.pure_eq, Except.throw_eq]

theorem dropVisits_memoryWf {who} (h : s.memoryWf) : (dropVisits s who).memoryWf := by
  unfold dropVisits
  grind [State.memoryWf]

theorem coverVisit_memoryWf {who c ak t} (h : s.memoryWf) (e : coverVisit who s c ak = .ok t) : t.memoryWf := by
  unfold coverVisit at e
  grind [State.memoryWf, → Except.exists_of_bind, Except.pure_eq, Except.throw_eq, → covering_memoryWf]

theorem coverFor_memoryWf {ak ord t} (h : s.memoryWf) (e : coverFor s ak ord = .ok t) : t.memoryWf := by
  unfold coverFor at e
  grind [State.memoryWf, → Except.exists_of_bind, Except.pure_eq, Except.throw_eq, → covering_memoryWf]

theorem visit_memoryWf {who c ak kind t} (h : s.memoryWf) (e : visit who s c ak kind = .ok t) : t.memoryWf := by
  unfold visit at e
  grind [State.memoryWf, → Except.exists_of_bind, Except.pure_eq, Except.throw_eq, → coverVisit_memoryWf, → takeVisit_memoryWf]

theorem sendVisit_memoryWf {who c ak kind} (h : s.memoryWf) : (sendVisit who s c ak kind).memoryWf := by
  unfold sendVisit
  grind [State.memoryWf, sendTo_memoryWf]

theorem arriveVisit_memoryWf {ak who} (h : s.memoryWf) : (arriveVisit s ak who).memoryWf := by
  unfold arriveVisit
  grind [State.memoryWf, State.updCtx_memoryWf]

theorem finishEvent_memoryWf {v c r o} (h : s.memoryWf) (hr : ∀ t, r = .ok t → t.memoryWf) (ho : o.memoryWf) : (finishEvent v c s r
    o).memoryWf := by
  unfold finishEvent; grind [List.foldl_memoryWf, State.causeOnce_memoryWf, dropVisits_memoryWf, sendVisit_memoryWf]

theorem discardAt_memoryWf {ak tag src} (h : s.memoryWf) : (discardAt s ak tag src).memoryWf := by
  unfold discardAt
  grind [State.memoryWf, State.updArcade_memoryWf]

theorem unpost_memoryWf {m} (h : s.memoryWf) : (unpost s m).memoryWf := by
  unfold unpost
  grind [State.memoryWf, State.updCtx_memoryWf]

theorem discardWaiting_memoryWf {key tag} (h : s.memoryWf) : (discardWaiting s key tag).memoryWf := by
  unfold discardWaiting
  grind [State.memoryWf, List.foldl_memoryWf, List.foldl_fst_memoryWf, State.updStream_memoryWf, restick_memoryWf, unpost_memoryWf]

theorem discardTag_memoryWf {p tag src} (h : s.memoryWf) : (discardTag s p tag src).memoryWf := by
  unfold discardTag
  grind [State.memoryWf, List.foldl_memoryWf, List.foldl_fst_memoryWf, discardAt_memoryWf, discardWaiting_memoryWf]

theorem execDiscard_memoryWf {pkg tag t} (h : s.memoryWf) (e : execDiscard pkg tag s = .next t) : t.memoryWf := by
  unfold execDiscard at e
  grind [State.memoryWf, discardTag_memoryWf]

/-! ### The operations of Machine/Trace.lean -/

theorem logWrite_memoryWf {c p bs} (h : s.memoryWf) : (logWrite s c p bs).memoryWf := by
  unfold logWrite
  grind [State.memoryWf, writeHome_memoryWf, performThrough_memoryWf]

theorem logRead_memoryWf {c p n} (h : s.memoryWf) : (logRead s c p n).1.memoryWf := by
  unfold logRead
  grind [State.memoryWf, loadPlace_memoryWf]

theorem logRecord_memoryWf {c record} (h : s.memoryWf) : (logRecord s c record).memoryWf := by
  unfold logRecord
  grind [State.memoryWf, → Except.exists_of_bind, Except.pure_eq, Except.throw_eq, → translateNow_memoryWf, logRead_memoryWf,
    logWrite_memoryWf]

theorem logTimed_memoryWf {c record} (h : s.memoryWf) : (logTimed s c record).memoryWf := by
  unfold logTimed
  grind [State.memoryWf, logRecord_memoryWf, State.updCtx_memoryWf]

theorem logState_memoryWf {c st} (h : s.memoryWf) : (logState s c st).memoryWf := by
  unfold logState
  grind [State.memoryWf, logTimed_memoryWf]

theorem enter_memoryWf {c st} (h : s.memoryWf) : (enter s c st).memoryWf := by
  unfold enter
  grind [State.memoryWf, State.updCtx_memoryWf, logState_memoryWf]

theorem wake_memoryWf {c} (h : s.memoryWf) : (wake s c).memoryWf := by
  unfold wake
  grind [State.memoryWf, enter_memoryWf, State.updCtx_memoryWf]

theorem block_memoryWf {c st w} (h : s.memoryWf) : (block s c st w).memoryWf := by
  unfold block
  grind [State.memoryWf, enter_memoryWf, State.updCtx_memoryWf, State.cause_memoryWf]

theorem wakeWhere_memoryWf {f} (h : s.memoryWf) : (wakeWhere s f).memoryWf := by
  unfold wakeWhere
  grind [State.memoryWf, List.foldl_memoryWf, List.foldl_fst_memoryWf, wake_memoryWf]

theorem wakeLine_memoryWf {ak key line} (h : s.memoryWf) : (wakeLine s ak key line).memoryWf := by
  unfold wakeLine
  grind [State.memoryWf, wakeWhere_memoryWf]

theorem wakeSlots_memoryWf {ak f} (h : s.memoryWf) : (wakeSlots s ak f).memoryWf := by
  unfold wakeSlots
  grind [State.memoryWf, wakeWhere_memoryWf]

theorem missWalk_memoryWf {va kind user} (h : s.memoryWf) : (missWalk s va kind user).memoryWf := by
  unfold missWalk
  grind [State.memoryWf, block_memoryWf, State.upd_memoryWf, State.cause_memoryWf, State.updHall_memoryWf]

theorem finish_memoryWf {r t} (h : s.memoryWf) (hr : ∀ t, r = .ok t → t.memoryWf) (e : finish s r = .next t) : t.memoryWf := by
  unfold finish at e; grind [List.foldl_memoryWf, State.causeOnce_memoryWf, State.stay_memoryWf, State.trap_memoryWf, missWalk_memoryWf,
      block_memoryWf, sendVisit_memoryWf, State.upd_memoryWf]

/-! ### The operations of Machine/Issue.lean -/

theorem fetchWord_memoryWf {va t} (h : s.memoryWf) (e : fetchWord s va = .ok t) : t.1.memoryWf := by
  unfold fetchWord at e
  grind [State.memoryWf, → Except.exists_of_bind, Except.pure_eq, Except.throw_eq, → translate_memoryWf, translate_keepsForm,
    loadPlace_memoryWf]

theorem fetchFrom_memoryWf {n va ps t} (h : s.memoryWf) (e : fetchFrom n s va ps = .ok t) : t.1.memoryWf := by
  induction n generalizing s va ps with
  | zero => cases e; exact h
  | succ n ih => rw [fetchFrom] at e; grind [→ fetchWord_memoryWf]

theorem fetch_memoryWf {t} (h : s.memoryWf) (e : fetch s = .ok t) : t.1.memoryWf := by
  unfold fetch at e
  grind [State.memoryWf, → Except.exists_of_bind, Except.pure_eq, Except.throw_eq, → fetchFrom_memoryWf]

theorem beginIssue_memoryWf {r} (h : s.memoryWf) : (beginIssue s r).memoryWf := by
  unfold beginIssue
  grind [State.memoryWf, State.upd_memoryWf, State.updMyStall_memoryWf]

theorem nextIssue_memoryWf {ready t} (h : s.memoryWf) (e : nextIssue ready s = some t) : t.2.2.memoryWf := by
  unfold nextIssue at e
  grind [State.memoryWf, → Except.exists_of_bind, Except.pure_eq, Except.throw_eq, State.updStall_memoryWf]

theorem takePreempt_memoryWf {c} (h : s.memoryWf) : (takePreempt s c).memoryWf := by
  unfold takePreempt
  grind [State.memoryWf, State.trap_memoryWf, State.updCtx_memoryWf]

/-! ### The operations of Machine/Operands.lean -/

theorem State.complete_memoryWf {x w f} (h : s.memoryWf) : (State.complete s x w f).memoryWf := by
  unfold State.complete
  grind [State.memoryWf, State.advance_memoryWf, State.raise_memoryWf, State.writeG_memoryWf]

theorem runGBin_memoryWf {f a t} (h : s.memoryWf) (e : runGBin f a s = .next t) : t.memoryWf := by
  unfold runGBin at e
  grind [State.memoryWf, → Except.exists_of_bind, Except.pure_eq, Except.throw_eq, finish_memoryWf, State.complete_memoryWf]

theorem runGUn_memoryWf {f a t} (h : s.memoryWf) (e : runGUn f a s = .next t) : t.memoryWf := by
  unfold runGUn at e
  grind [State.memoryWf, → Except.exists_of_bind, Except.pure_eq, Except.throw_eq, finish_memoryWf, State.complete_memoryWf]

theorem runGTri_memoryWf {f a t} (h : s.memoryWf) (e : runGTri f a s = .next t) : t.memoryWf := by
  unfold runGTri at e
  grind [State.memoryWf, → Except.exists_of_bind, Except.pure_eq, Except.throw_eq, finish_memoryWf, State.complete_memoryWf]

/-! ### The operations of Machine/LoadStore.lean -/

theorem requestRemote_memoryWf {va p payload d acq t} (h : s.memoryWf) (e : requestRemote s va p payload d acq = .ok t) : t.memoryWf :=
    by
  unfold requestRemote at e
  grind [State.memoryWf, → Except.exists_of_bind, Except.pure_eq, Except.throw_eq, → settledLoad_memoryWf, block_memoryWf,
    sendMessage_memoryWf]

theorem reply_memoryWf {d bs now flags} (h : s.memoryWf) : (reply s d bs now flags).memoryWf := by
  unfold reply
  grind [State.memoryWf, State.advance_memoryWf, State.raise_memoryWf, writeDest_memoryWf, State.cause_memoryWf, block_memoryWf]

theorem acquireAt_memoryWf {c a} (h : s.memoryWf) : (acquireAt s c a).memoryWf := by
  unfold acquireAt
  grind [State.memoryWf, acquireCaches_memoryWf]

theorem acquireOf_memoryWf {q} (h : s.memoryWf) : (acquireOf s q).memoryWf := by
  unfold acquireOf
  grind [State.memoryWf, acquireAt_memoryWf]

theorem startLoad_memoryWf {va p n d ord t} (h : s.memoryWf) (e : startLoad s va p n d ord = .ok t) : t.memoryWf := by
  unfold startLoad at e
  grind [State.memoryWf, → Except.exists_of_bind, Except.pure_eq, Except.throw_eq, → requestRemote_memoryWf, → readPlace_memoryWf,
    acquireOf_memoryWf, reply_memoryWf]

theorem runLoad_memoryWf {n pair d a t} (h : s.memoryWf) (e : runLoad n pair d a s = .next t) : t.memoryWf := by
  unfold runLoad at e
  grind [State.memoryWf, → Except.exists_of_bind, Except.pure_eq, Except.throw_eq, finish_memoryWf, → translate_memoryWf,
    translate_keepsForm, → startLoad_memoryWf]

theorem postAndHold_memoryWf {q} (h : s.memoryWf) : (postAndHold s q).memoryWf := by
  unfold postAndHold
  grind [State.memoryWf, performAt_memoryWf, State.upd_memoryWf]

theorem issueStore_memoryWf {va p bs q t} (h : s.memoryWf) (e : issueStore s va p bs q = .ok t) : t.memoryWf := by
  unfold issueStore at e
  grind [State.memoryWf, → Except.exists_of_bind, Except.pure_eq, Except.throw_eq, → Except.exists_of_map, Option.getD_memoryWf,
    State.advance_memoryWf, pushStore_memoryWf, → roomFor_memoryWf, → withRelease_memoryWf, postAndHold_memoryWf, State.upd_memoryWf,
    performThrough_memoryWf, narrowRelease_memoryWf]

theorem runStore_memoryWf {n pair a t} (h : s.memoryWf) (e : runStore n pair a s = .next t) : t.memoryWf := by
  unfold runStore at e
  grind [State.memoryWf, → Except.exists_of_bind, Except.pure_eq, Except.throw_eq, finish_memoryWf, → translate_memoryWf,
    translate_keepsForm, → issueStore_memoryWf]

theorem execLoadReply_memoryWf {ctx t} (h : s.memoryWf) (e : execLoadReply ctx s = .next t) : t.memoryWf := by
  unfold execLoadReply at e
  grind [State.memoryWf, State.updCtx_memoryWf, wake_memoryWf, State.raise_memoryWf, writeDest_memoryWf]

theorem execStorePerform_memoryWf {ctx t} (h : s.memoryWf) (e : execStorePerform ctx s = .next t) : t.memoryWf := by
  unfold execStorePerform at e
  grind [State.memoryWf, State.cause_memoryWf, performOldest_memoryWf]

theorem execPageWalk_memoryWf {hall t} (h : s.memoryWf) (e : execPageWalk hall s = .next t) : t.memoryWf := by
  unfold execPageWalk at e
  grind [State.memoryWf, List.foldl_memoryWf, List.foldl_fst_memoryWf, → Except.exists_of_bind, Except.pure_eq, Except.throw_eq,
    State.updHall_memoryWf, → walkLeaf_memoryWf, State.trap_memoryWf, wake_memoryWf, State.updStall_memoryWf, State.updCtx_memoryWf]

/-! ### The operations of Machine/IntUnit.lean -/

theorem execMovi_memoryWf {a t} (h : s.memoryWf) (e : execMovi a s = .next t) : t.memoryWf := by
  unfold execMovi at e
  grind [State.memoryWf, → Except.exists_of_bind, Except.pure_eq, Except.throw_eq, finish_memoryWf, State.complete_memoryWf]

theorem execAddi_memoryWf {a t} (h : s.memoryWf) (e : execAddi a s = .next t) : t.memoryWf := by
  unfold execAddi at e
  grind [State.memoryWf, → Except.exists_of_bind, Except.pure_eq, Except.throw_eq, finish_memoryWf, State.complete_memoryWf]

theorem runShift_memoryWf {f a t} (h : s.memoryWf) (e : runShift f a s = .next t) : t.memoryWf := by
  unfold runShift at e
  grind [State.memoryWf, → Except.exists_of_bind, Except.pure_eq, Except.throw_eq, finish_memoryWf, State.complete_memoryWf]

theorem runLea_memoryWf {scale a t} (h : s.memoryWf) (e : runLea scale a s = .next t) : t.memoryWf := by
  unfold runLea at e
  grind [State.memoryWf, → Except.exists_of_bind, Except.pure_eq, Except.throw_eq, finish_memoryWf, State.complete_memoryWf]

theorem execBfi_memoryWf {a t} (h : s.memoryWf) (e : execBfi a s = .next t) : t.memoryWf := by
  unfold execBfi at e
  grind [State.memoryWf, → Except.exists_of_bind, Except.pure_eq, Except.throw_eq, finish_memoryWf, State.complete_memoryWf]

/-! ### The operations of Machine/Elements.lean -/

theorem State.completeV_memoryWf {x r} (h : s.memoryWf) : (State.completeV s x r).memoryWf := by
  unfold State.completeV
  grind [State.memoryWf, State.advance_memoryWf, State.raise_memoryWf, State.writeV_memoryWf]

/-! ### The operations of Machine/Moment.lean -/

theorem State.completeM_memoryWf {x q f extra} (h : s.memoryWf) : (State.completeM s x q f extra).memoryWf := by
  unfold State.completeM
  grind [State.memoryWf, State.completeV_memoryWf]

theorem State.completePlain_memoryWf {x q f} (h : s.memoryWf) : (State.completePlain s x q f).memoryWf := by
  unfold State.completePlain
  grind [State.memoryWf, State.completeV_memoryWf]

theorem runMBin_memoryWf {f a t} (h : s.memoryWf) (e : runMBin f a s = .next t) : t.memoryWf := by
  unfold runMBin at e
  grind [State.memoryWf, → Except.exists_of_bind, Except.pure_eq, Except.throw_eq, finish_memoryWf, State.completeM_memoryWf]

theorem runMTri_memoryWf {f a t} (h : s.memoryWf) (e : runMTri f a s = .next t) : t.memoryWf := by
  unfold runMTri at e
  grind [State.memoryWf, → Except.exists_of_bind, Except.pure_eq, Except.throw_eq, finish_memoryWf, State.completeM_memoryWf]

theorem runMUn_memoryWf {f a t} (h : s.memoryWf) (e : runMUn f a s = .next t) : t.memoryWf := by
  unfold runMUn at e
  grind [State.memoryWf, → Except.exists_of_bind, Except.pure_eq, Except.throw_eq, finish_memoryWf, State.completeM_memoryWf]

theorem execMmk_memoryWf {a t} (h : s.memoryWf) (e : execMmk a s = .next t) : t.memoryWf := by
  unfold execMmk at e
  grind [State.memoryWf, → Except.exists_of_bind, Except.pure_eq, Except.throw_eq, finish_memoryWf, State.completeM_memoryWf]

theorem runMPlain_memoryWf {f a t} (h : s.memoryWf) (e : runMPlain f a s = .next t) : t.memoryWf := by
  unfold runMPlain at e
  grind [State.memoryWf, → Except.exists_of_bind, Except.pure_eq, Except.throw_eq, finish_memoryWf, State.completePlain_memoryWf]

theorem execMcol_memoryWf {a t} (h : s.memoryWf) (e : execMcol a s = .next t) : t.memoryWf := by
  unfold execMcol at e
  grind [State.memoryWf, → Except.exists_of_bind, Except.pure_eq, Except.throw_eq, → Except.exists_of_map, finish_memoryWf,
    State.completePlain_memoryWf]

theorem execMsum_memoryWf {a t} (h : s.memoryWf) (e : execMsum a s = .next t) : t.memoryWf := by
  unfold execMsum at e
  grind [State.memoryWf, → Except.exists_of_bind, Except.pure_eq, Except.throw_eq, → Except.exists_of_map, Option.getD_memoryWf,
    finish_memoryWf, State.complete_memoryWf]

theorem execMchk_memoryWf {a t} (h : s.memoryWf) (e : execMchk a s = .next t) : t.memoryWf := by
  unfold execMchk at e
  grind [State.memoryWf, → Except.exists_of_bind, Except.pure_eq, Except.throw_eq, finish_memoryWf, State.complete_memoryWf]

/-! ### The operations of Machine/Atomics.lean -/

theorem recallHall_memoryWf {hall key line} (h : s.memoryWf) : (recallHall s hall key line).memoryWf := by
  unfold recallHall
  grind [State.memoryWf, List.foldl_memoryWf, List.foldl_fst_memoryWf, recallLine_memoryWf]

theorem dropArcade_memoryWf {ak key line} (h : s.memoryWf) : (dropArcade s ak key line).memoryWf := by
  unfold dropArcade
  grind [State.memoryWf, List.foldl_memoryWf, List.foldl_fst_memoryWf, dropLine_memoryWf]

theorem dropVisitor_memoryWf {hall key line} (h : s.memoryWf) : (dropVisitor s hall key line).memoryWf := by
  unfold dropVisitor
  grind [State.memoryWf, dropL2_memoryWf]

theorem atomHome_memoryWf {p n f} (h : s.memoryWf) : (atomHome s p n f).1.memoryWf := by
  unfold atomHome
  grind [State.memoryWf, writeHome_memoryWf]

theorem recallHost_memoryWf {pkg key line} (h : s.memoryWf) : (recallHost s pkg key line).memoryWf := by
  unfold recallHost
  grind [State.memoryWf, List.foldl_memoryWf, List.foldl_fst_memoryWf, recallHall_memoryWf, dropL2_memoryWf]

theorem atomLocal_memoryWf {c p scope n f} (h : s.memoryWf) : (atomLocal s c p scope n f).1.memoryWf := by
  unfold atomLocal
  grind [State.memoryWf, Option.getD_memoryWf, atomHome_memoryWf, recallHost_memoryWf, State.updCtx_memoryWf, loadPlace_memoryWf,
    ownLine_memoryWf, storeL1_memoryWf, dropArcade_memoryWf, recallHall_memoryWf, hallRead_memoryWf, hallWrite_memoryWf,
    dropVisitor_memoryWf]

theorem performAtom_memoryWf {op n signed a va p t} (h : s.memoryWf) (e : performAtom op n signed a va p s = .ok t) : t.memoryWf := by
  unfold performAtom at e
  grind [State.memoryWf, → Except.exists_of_bind, Except.pure_eq, Except.throw_eq, → Except.exists_of_map, Option.getD_memoryWf,
    → settledLoad_memoryWf, State.upd_memoryWf, → requestRemote_memoryWf, atomLocal_memoryWf, acquireOf_memoryWf, reply_memoryWf]

theorem runAtom_memoryWf {op a t} (h : s.memoryWf) (e : runAtom op a s = .next t) : t.memoryWf := by
  refine finish_memoryWf h (fun u eu => ?_) e
  obtain ⟨_, -, eu⟩ := Except.exists_of_bind eu
  obtain ⟨_, -, eu⟩ := Except.exists_of_bind eu
  obtain ⟨_, -, eu⟩ := Except.exists_of_bind eu
  grind [→ Except.exists_of_bind, Except.pure_eq, Except.throw_eq, → translateFar_memoryWf, → performAtom_memoryWf, → withRelease_memoryWf]

/-! ### The operations of Machine/VectorUnit.lean -/

theorem runVBin_memoryWf {op ok a t} (h : s.memoryWf) (e : runVBin op ok a s = .next t) : t.memoryWf := by
  unfold runVBin at e
  grind [State.memoryWf, → Except.exists_of_bind, Except.pure_eq, Except.throw_eq, finish_memoryWf, State.completeV_memoryWf]

theorem runVUn_memoryWf {ok f a t} (h : s.memoryWf) (e : runVUn ok f a s = .next t) : t.memoryWf := by
  unfold runVUn at e
  grind [State.memoryWf, → Except.exists_of_bind, Except.pure_eq, Except.throw_eq, finish_memoryWf, State.completeV_memoryWf]

theorem State.completeP_memoryWf {x w} (h : s.memoryWf) : (State.completeP s x w).memoryWf := by
  unfold State.completeP
  grind [State.memoryWf, State.advance_memoryWf, State.upd_memoryWf]

theorem runVCmp_memoryWf {k a t} (h : s.memoryWf) (e : runVCmp k a s = .next t) : t.memoryWf := by
  unfold runVCmp at e
  grind [State.memoryWf, → Except.exists_of_bind, Except.pure_eq, Except.throw_eq, finish_memoryWf, State.completeP_memoryWf]

theorem runPBin_memoryWf {f a t} (h : s.memoryWf) (e : runPBin f a s = .next t) : t.memoryWf := by
  unfold runPBin at e
  grind [State.memoryWf, → Except.exists_of_bind, Except.pure_eq, Except.throw_eq, finish_memoryWf, State.completeP_memoryWf]

theorem execPnot_memoryWf {a t} (h : s.memoryWf) (e : execPnot a s = .next t) : t.memoryWf := by
  unfold execPnot at e
  grind [State.memoryWf, → Except.exists_of_bind, Except.pure_eq, Except.throw_eq, finish_memoryWf, State.completeP_memoryWf]

theorem execPset_memoryWf {a t} (h : s.memoryWf) (e : execPset a s = .next t) : t.memoryWf := by
  unfold execPset at e
  grind [State.memoryWf, → Except.exists_of_bind, Except.pure_eq, Except.throw_eq, finish_memoryWf, State.completeP_memoryWf]

theorem runPCount_memoryWf {f a t} (h : s.memoryWf) (e : runPCount f a s = .next t) : t.memoryWf := by
  unfold runPCount at e
  grind [State.memoryWf, → Except.exists_of_bind, Except.pure_eq, Except.throw_eq, finish_memoryWf, State.complete_memoryWf]

theorem runVRed_memoryWf {op a t} (h : s.memoryWf) (e : runVRed op a s = .next t) : t.memoryWf := by
  unfold runVRed at e
  grind [State.memoryWf, → Except.exists_of_bind, Except.pure_eq, Except.throw_eq, → Except.exists_of_map, Option.getD_memoryWf,
    finish_memoryWf, State.complete_memoryWf]

theorem execVext_memoryWf {a t} (h : s.memoryWf) (e : execVext a s = .next t) : t.memoryWf := by
  unfold execVext at e
  grind [State.memoryWf, → Except.exists_of_bind, Except.pure_eq, Except.throw_eq, Option.getD_memoryWf, finish_memoryWf,
    State.complete_memoryWf]

theorem execVbcst_memoryWf {a t} (h : s.memoryWf) (e : execVbcst a s = .next t) : t.memoryWf := by
  unfold execVbcst at e
  grind [State.memoryWf, → Except.exists_of_bind, Except.pure_eq, Except.throw_eq, finish_memoryWf, State.completeV_memoryWf]

theorem execVsel_memoryWf {a t} (h : s.memoryWf) (e : execVsel a s = .next t) : t.memoryWf := by
  unfold execVsel at e
  grind [State.memoryWf, → Except.exists_of_bind, Except.pure_eq, Except.throw_eq, finish_memoryWf, State.completeV_memoryWf]

theorem execVperm_memoryWf {a t} (h : s.memoryWf) (e : execVperm a s = .next t) : t.memoryWf := by
  unfold execVperm at e
  grind [State.memoryWf, → Except.exists_of_bind, Except.pure_eq, Except.throw_eq, finish_memoryWf, State.completeV_memoryWf]

theorem execVslide_memoryWf {a t} (h : s.memoryWf) (e : execVslide a s = .next t) : t.memoryWf := by
  unfold execVslide at e
  grind [State.memoryWf, → Except.exists_of_bind, Except.pure_eq, Except.throw_eq, finish_memoryWf, State.completeV_memoryWf]

theorem execVcvt_memoryWf {a t} (h : s.memoryWf) (e : execVcvt a s = .next t) : t.memoryWf := by
  unfold execVcvt at e
  grind [State.memoryWf, → Except.exists_of_bind, Except.pure_eq, Except.throw_eq, finish_memoryWf, State.completeV_memoryWf]

theorem runPack_memoryWf {pack a} (h : s.memoryWf) : (runPack pack a s).memoryWf := by
  unfold runPack
  grind [State.memoryWf, List.foldl_memoryWf, List.foldl_fst_memoryWf, State.completeV_memoryWf]

theorem execVpack_memoryWf {a t} (h : s.memoryWf) (e : execVpack a s = .next t) : t.memoryWf := by
  unfold execVpack at e
  grind [State.memoryWf, → Except.exists_of_bind, Except.pure_eq, Except.throw_eq, finish_memoryWf, runPack_memoryWf]

theorem execVqds_memoryWf {a t} (h : s.memoryWf) (e : execVqds a s = .next t) : t.memoryWf := by
  unfold execVqds at e
  grind [State.memoryWf, → Except.exists_of_bind, Except.pure_eq, Except.throw_eq, finish_memoryWf, runPack_memoryWf]

theorem execVunpk_memoryWf {a t} (h : s.memoryWf) (e : execVunpk a s = .next t) : t.memoryWf := by
  unfold execVunpk at e
  grind [State.memoryWf, → Except.exists_of_bind, Except.pure_eq, Except.throw_eq, finish_memoryWf, State.completeV_memoryWf]

theorem runVFun_memoryWf {f a t} (h : s.memoryWf) (e : runVFun f a s = .next t) : t.memoryWf := by
  unfold runVFun at e
  grind [State.memoryWf, runVUn_memoryWf]

theorem execVsett_memoryWf {a t} (h : s.memoryWf) (e : execVsett a s = .next t) : t.memoryWf := by
  unfold execVsett at e
  grind [State.memoryWf, → Except.exists_of_bind, Except.pure_eq, Except.throw_eq, finish_memoryWf, State.upd_memoryWf,
    State.complete_memoryWf]

theorem execVlen_memoryWf {a t} (h : s.memoryWf) (e : execVlen a s = .next t) : t.memoryWf := by
  unfold execVlen at e
  grind [State.memoryWf, → Except.exists_of_bind, Except.pure_eq, Except.throw_eq, finish_memoryWf, State.complete_memoryWf]

theorem execViota_memoryWf {a t} (h : s.memoryWf) (e : execViota a s = .next t) : t.memoryWf := by
  unfold execViota at e
  grind [State.memoryWf, → Except.exists_of_bind, Except.pure_eq, Except.throw_eq, finish_memoryWf, State.completeV_memoryWf]

/-! ### The operations of Machine/VectorMemory.lean -/

theorem checkElems_memoryWf {size acc l t} (h : s.memoryWf) (e : checkElems size acc s l = .ok t) : t.1.memoryWf := by
  induction l generalizing s t with
  | nil => cases e; exact h
  | cons x r ih => rw [checkElems] at e; grind [→ Except.exists_of_bind, Except.pure_eq, Except.throw_eq, → translate_memoryWf]

theorem requestBlock_memoryWf {c es b} (h : s.memoryWf) : (requestBlock c es s b).1.memoryWf := by
  unfold requestBlock
  grind [State.memoryWf, sendMessage_memoryWf]

theorem readElems_memoryWf {c size pol l t} (h : s.memoryWf) (e : readElems c size pol s l = .ok t) : t.1.memoryWf := by
  induction l generalizing s t with
  | nil => cases e; exact h
  | cons x r ih => rw [readElems] at e; grind [→ Except.exists_of_bind, Except.pure_eq, Except.throw_eq, → readPlace_memoryWf]

theorem loadElems_memoryWf {x size es ord t} (h : s.memoryWf) (e : loadElems s x size es ord = .ok t) : t.memoryWf := by
  unfold loadElems at e
  grind [State.memoryWf, List.foldl_memoryWf, List.foldl_fst_memoryWf, → Except.exists_of_bind, Except.pure_eq, Except.throw_eq,
    → Except.exists_of_map, → readElems_memoryWf, acquireOf_memoryWf, reply_memoryWf, → settledLoad_memoryWf, requestBlock_memoryWf,
    block_memoryWf]

theorem runVLoad_memoryWf {x y z imm ord f q off t} (h : s.memoryWf) (e : runVLoad x y z imm ord f q off s = .next t) : t.memoryWf := by
  unfold runVLoad at e
  grind [State.memoryWf, → Except.exists_of_bind, Except.pure_eq, Except.throw_eq, finish_memoryWf, → checkElems_memoryWf,
    State.advance_memoryWf, acquireOf_memoryWf, → loadElems_memoryWf]

theorem issueElems_memoryWf {v size es q t} (h : s.memoryWf) (e : issueElems s v size es q = .ok t) : t.memoryWf := by
  unfold issueElems at e
  grind [State.memoryWf, List.foldl_memoryWf, List.foldl_fst_memoryWf, → Except.exists_of_bind, Except.pure_eq, Except.throw_eq,
    → Except.exists_of_map, Option.getD_memoryWf, pushBlock_memoryWf, pushStore_memoryWf, State.advance_memoryWf, → roomFor_memoryWf,
    → withRelease_memoryWf, State.upd_memoryWf, performThrough_memoryWf, drain_memoryWf, narrowRelease_memoryWf]

theorem runVStore_memoryWf {x y z imm ord f q off t} (h : s.memoryWf) (e : runVStore x y z imm ord f q off s = .next t) : t.memoryWf :=
    by
  unfold runVStore at e
  grind [State.memoryWf, → Except.exists_of_bind, Except.pure_eq, Except.throw_eq, finish_memoryWf, → checkElems_memoryWf,
    → issueElems_memoryWf]

theorem execVldb_memoryWf {a t} (h : s.memoryWf) (e : execVldb a s = .next t) : t.memoryWf := by
  unfold execVldb at e
  grind [State.memoryWf, → Except.exists_of_bind, Except.pure_eq, Except.throw_eq, → Except.exists_of_map, finish_memoryWf,
    → checkElems_memoryWf, State.advance_memoryWf, acquireOf_memoryWf, → loadElems_memoryWf, → startLoad_memoryWf]

/-! ### The operations of Machine/MatrixUnit.lean -/

theorem translateFor_memoryWf {c a__internal_hyg0 a__internal_hyg0' t} (h : s.memoryWf) (e : translateFor c s a__internal_hyg0
    a__internal_hyg0' = .ok t) : t.1.memoryWf := by
  unfold translateFor at e
  grind [State.memoryWf, → Except.exists_of_bind, Except.pure_eq, Except.throw_eq, → translateNow_memoryWf]

theorem translateFor_keepsForm {c} : Translator.KeepsForm (translateFor c) :=
  fun _ _ _ _ h e => translateFor_memoryWf h e

theorem checkAddrs_memoryWf {tr c a ts l t} (ht : Translator.KeepsForm tr) (h : s.memoryWf) (e : checkAddrs tr c a s ts l = .ok t) :
    t.1.memoryWf := by
  induction l generalizing s ts with
  | nil => cases e; exact h
  | cons va r ih => unfold checkAddrs at e; grind [Translator.KeepsForm]

theorem checkTiles_memoryWf {tr c w us t} (ht : Translator.KeepsForm tr) (h : s.memoryWf) (e : checkTiles tr s c w us = .ok t) :
    t.1.memoryWf := by
  unfold checkTiles at e
  split at e
  · cases e
  · exact List.foldlM_fst_memoryWf (fun _ _ _ hp eq => checkAddrs_memoryWf ht hp eq) (p := (s, _)) h e

theorem freePair_memoryWf {k pair} (h : s.memoryWf) : (freePair s k pair).memoryWf := by
  unfold freePair
  grind [State.memoryWf, State.cause_memoryWf, State.updStall_memoryWf]

theorem execAacq_memoryWf {a t} (h : s.memoryWf) (e : execAacq a s = .next t) : t.memoryWf := by
  unfold execAacq at e
  grind [State.memoryWf, → Except.exists_of_bind, Except.pure_eq, Except.throw_eq, finish_memoryWf, State.complete_memoryWf,
    State.updStall_memoryWf]

theorem execArel_memoryWf {t} (h : s.memoryWf) (e : execArel s = .next t) : t.memoryWf := by
  unfold execArel at e
  grind [State.memoryWf, → Except.exists_of_bind, Except.pure_eq, Except.throw_eq, finish_memoryWf, State.advance_memoryWf,
    freePair_memoryWf]

theorem execAzero_memoryWf {a t} (h : s.memoryWf) (e : execAzero a s = .next t) : t.memoryWf := by
  unfold execAzero at e
  grind [State.memoryWf, → Except.exists_of_bind, Except.pure_eq, Except.throw_eq, finish_memoryWf, State.advance_memoryWf,
    State.updMyStall_memoryWf]

theorem execAscale_memoryWf {a t} (h : s.memoryWf) (e : execAscale a s = .next t) : t.memoryWf := by
  unfold execAscale at e
  grind [State.memoryWf, → Except.exists_of_bind, Except.pure_eq, Except.throw_eq, finish_memoryWf, State.advance_memoryWf,
    State.updMyStall_memoryWf]

theorem execArowv_memoryWf {a t} (h : s.memoryWf) (e : execArowv a s = .next t) : t.memoryWf := by
  unfold execArowv at e
  grind [State.memoryWf, List.foldl_memoryWf, List.foldl_fst_memoryWf, → Except.exists_of_bind, Except.pure_eq, Except.throw_eq,
    → Except.exists_of_map, Option.getD_memoryWf, finish_memoryWf, State.completeV_memoryWf]

theorem execAvrow_memoryWf {a t} (h : s.memoryWf) (e : execAvrow a s = .next t) : t.memoryWf := by
  unfold execAvrow at e
  grind [State.memoryWf, List.foldl_memoryWf, List.foldl_fst_memoryWf, → Except.exists_of_bind, Except.pure_eq, Except.throw_eq,
    → Except.exists_of_map, Option.getD_memoryWf, finish_memoryWf, State.updMyStall_memoryWf, State.advance_memoryWf,
    State.raise_memoryWf]

theorem checkTransfer_memoryWf {va stride a t} (h : s.memoryWf) (e : checkTransfer s va stride a = .ok t) : t.1.memoryWf := by
  unfold checkTransfer at e
  grind [State.memoryWf, → Except.exists_of_bind, Except.pure_eq, Except.throw_eq, → checkAddrs_memoryWf, → translate_memoryWf,
    translate_keepsForm]

theorem engineRead_memoryWf {c ts l2 va n} (h : s.memoryWf) : (engineRead s c ts l2 va n).1.memoryWf := by
  unfold engineRead
  grind [State.memoryWf, readNow_memoryWf, arcadeRead_memoryWf, loadPlace_memoryWf]

theorem readValues_memoryWf {tick c ts l2 n early vas} (h : s.memoryWf) : (readValues tick c ts l2 n early s vas).1.memoryWf := by
  unfold readValues
  grind [State.memoryWf, List.foldl_memoryWf, List.foldl_fst_memoryWf, Option.getD_memoryWf, engineRead_memoryWf]

theorem storeWords_memoryWf {c ts rel policy l} (h : s.memoryWf) : (storeWords s c ts rel policy l).memoryWf := by
  unfold storeWords
  grind [State.memoryWf, List.foldl_memoryWf, List.foldl_fst_memoryWf, Option.getD_memoryWf, performThrough_memoryWf,
    performAt_memoryWf, State.updCtx_memoryWf]

theorem runBankStore_memoryWf {va stride ord words flags t} (h : s.memoryWf) (e : runBankStore s va stride ord words flags = .ok t) :
    t.memoryWf := by
  unfold runBankStore at e
  grind [State.memoryWf, → Except.exists_of_bind, Except.pure_eq, Except.throw_eq, → checkTransfer_memoryWf, → settled_memoryWf,
    State.advance_memoryWf, State.raise_memoryWf, storeWords_memoryWf, → withRelease_memoryWf, State.upd_memoryWf]

theorem runBankLoad_memoryWf {x ord t} (h : s.memoryWf) (e : runBankLoad s x ord = .ok t) : t.memoryWf := by
  unfold runBankLoad at e
  have hr : ∀ k c ts b n p l u, u.memoryWf → (readValues k c ts b n p u l).1.memoryWf := fun _ _ _ _ _ _ _ _ => readValues_memoryWf
  revert e hr
  induction readValues using forall_elim_induction with | mk rv
  intro e hr
  grind [State.memoryWf, → Except.exists_of_bind, Except.pure_eq, Except.throw_eq, → checkTransfer_memoryWf, → settledLoad_memoryWf,
    acquireOf_memoryWf, State.advance_memoryWf, State.cause_memoryWf, State.updMyStall_memoryWf]

theorem execAload_memoryWf {a t} (h : s.memoryWf) (e : execAload a s = .next t) : t.memoryWf := by
  unfold execAload at e
  grind [State.memoryWf, → Except.exists_of_bind, Except.pure_eq, Except.throw_eq, finish_memoryWf, → runBankLoad_memoryWf]

theorem execAstore_memoryWf {a t} (h : s.memoryWf) (e : execAstore a s = .next t) : t.memoryWf := by
  unfold execAstore at e
  grind [State.memoryWf, → Except.exists_of_bind, Except.pure_eq, Except.throw_eq, → Except.exists_of_map, finish_memoryWf,
    → runBankStore_memoryWf]

theorem execMastm_memoryWf {a t} (h : s.memoryWf) (e : execMastm a s = .next t) : t.memoryWf := by
  unfold execMastm at e
  grind [State.memoryWf, List.foldl_memoryWf, List.foldl_fst_memoryWf, → Except.exists_of_bind, Except.pure_eq, Except.throw_eq,
    → Except.exists_of_map, finish_memoryWf, → runBankStore_memoryWf]

theorem execMaldm_memoryWf {a t} (h : s.memoryWf) (e : execMaldm a s = .next t) : t.memoryWf := by
  unfold execMaldm at e
  grind [State.memoryWf, → Except.exists_of_bind, Except.pure_eq, Except.throw_eq, finish_memoryWf, → runBankLoad_memoryWf]

theorem execTset_memoryWf {a t} (h : s.memoryWf) (e : execTset a s = .next t) : t.memoryWf := by
  unfold execTset at e
  grind [State.memoryWf, → Except.exists_of_bind, Except.pure_eq, Except.throw_eq, finish_memoryWf, State.advance_memoryWf,
    State.upd_memoryWf]

theorem execTget_memoryWf {a t} (h : s.memoryWf) (e : execTget a s = .next t) : t.memoryWf := by
  unfold execTget at e
  grind [State.memoryWf, → Except.exists_of_bind, Except.pure_eq, Except.throw_eq, finish_memoryWf, State.putG_memoryWf,
    State.advance_memoryWf, State.upd_memoryWf]

theorem execTadv_memoryWf {a t} (h : s.memoryWf) (e : execTadv a s = .next t) : t.memoryWf := by
  unfold execTadv at e
  grind [State.memoryWf, → Except.exists_of_bind, Except.pure_eq, Except.throw_eq, finish_memoryWf, State.advance_memoryWf,
    State.upd_memoryWf]

theorem execTshape_memoryWf {a t} (h : s.memoryWf) (e : execTshape a s = .next t) : t.memoryWf := by
  unfold execTshape at e
  grind [State.memoryWf, → Except.exists_of_bind, Except.pure_eq, Except.throw_eq, finish_memoryWf, State.advance_memoryWf,
    State.upd_memoryWf]

theorem checkMma_memoryWf {tr mmam c pair bank a b sclp t} (ht : Translator.KeepsForm tr) (h : s.memoryWf) (e : checkMma tr mmam s c
    pair bank a b sclp = .ok t) : t.1.memoryWf := by
  unfold checkMma at e
  grind [State.memoryWf, → Except.exists_of_bind, Except.pure_eq, Except.throw_eq, → checkTiles_memoryWf, Translator.KeepsForm]

theorem enterQueue_memoryWf {k x} (h : s.memoryWf) : (enterQueue s k x).memoryWf := by
  unfold enterQueue
  grind [State.memoryWf, State.cause_memoryWf, State.updStall_memoryWf]

theorem acceptCmd_memoryWf {x t} (h : s.memoryWf) (e : acceptCmd s x = .ok t) : t.memoryWf := by
  unfold acceptCmd at e
  grind [State.memoryWf, → Except.exists_of_bind, Except.pure_eq, Except.throw_eq, → Except.exists_of_map, enterQueue_memoryWf,
    → settled_memoryWf]

theorem runMma_memoryWf {zero high a t} (h : s.memoryWf) (e : runMma zero high a s = .next t) : t.memoryWf := by
  unfold runMma at e
  grind [State.memoryWf, → Except.exists_of_bind, Except.pure_eq, Except.throw_eq, finish_memoryWf, → checkMma_memoryWf,
    → translate_memoryWf, translate_keepsForm, → acceptCmd_memoryWf, State.advance_memoryWf]

theorem execMmam_memoryWf {a t} (h : s.memoryWf) (e : execMmam a s = .next t) : t.memoryWf := by
  unfold execMmam at e
  grind [State.memoryWf, → Except.exists_of_bind, Except.pure_eq, Except.throw_eq, finish_memoryWf, → checkMma_memoryWf,
    → translate_memoryWf, translate_keepsForm, → acceptCmd_memoryWf, State.advance_memoryWf]

theorem execMwait_memoryWf {a t} (h : s.memoryWf) (e : execMwait a s = .next t) : t.memoryWf := by
  unfold execMwait at e
  grind [State.memoryWf, → Except.exists_of_bind, Except.pure_eq, Except.throw_eq, finish_memoryWf, State.advance_memoryWf]

theorem execMstat_memoryWf {a t} (h : s.memoryWf) (e : execMstat a s = .next t) : t.memoryWf := by
  unfold execMstat at e
  grind [State.memoryWf, → Except.exists_of_bind, Except.pure_eq, Except.throw_eq, finish_memoryWf, State.complete_memoryWf]

theorem acceptSolver_memoryWf {us mk t} (h : s.memoryWf) (e : acceptSolver s us mk = .ok t) : t.memoryWf := by
  unfold acceptSolver at e
  grind [State.memoryWf, → Except.exists_of_bind, Except.pure_eq, Except.throw_eq, → Except.exists_of_map, → checkTiles_memoryWf,
    → translate_memoryWf, translate_keepsForm, → acceptCmd_memoryWf, State.upd_memoryWf, State.advance_memoryWf]

theorem execMchol_memoryWf {a t} (h : s.memoryWf) (e : execMchol a s = .next t) : t.memoryWf := by
  unfold execMchol at e
  grind [State.memoryWf, → Except.exists_of_bind, Except.pure_eq, Except.throw_eq, finish_memoryWf, → acceptSolver_memoryWf]

theorem runTriangle_memoryWf {kind a t} (h : s.memoryWf) (e : runTriangle kind a s = .next t) : t.memoryWf := by
  unfold runTriangle at e
  grind [State.memoryWf, → Except.exists_of_bind, Except.pure_eq, Except.throw_eq, finish_memoryWf, → acceptSolver_memoryWf]

theorem execMrfn_memoryWf {a t} (h : s.memoryWf) (e : execMrfn a s = .next t) : t.memoryWf := by
  unfold execMrfn at e
  grind [State.memoryWf, → Except.exists_of_bind, Except.pure_eq, Except.throw_eq, finish_memoryWf, → acceptSolver_memoryWf]

/-! ### The operations of Machine/Counters.lean -/

theorem devRead_memoryWf {c p n} (h : s.memoryWf) : (devRead s c p n).1.memoryWf := by
  unfold devRead
  grind [State.memoryWf, atomLocal_memoryWf]

theorem devWrite_memoryWf {c p bs} (h : s.memoryWf) : (devWrite s c p bs).memoryWf := by
  unfold devWrite
  grind [State.memoryWf, writeHallRegBytes_memoryWf, writeHome_memoryWf, atomLocal_memoryWf]

theorem checkSpan_memoryWf {tr a va n t} (ht : Translator.KeepsForm tr) (h : s.memoryWf) (e : checkSpan tr a s va n = .ok t) :
    t.memoryWf := by
  unfold checkSpan at e
  grind [State.memoryWf, → List.foldlM_memoryWf, → List.foldlM_fst_memoryWf, → Except.exists_of_bind, Except.pure_eq, Except.throw_eq,
    Translator.KeepsForm]

theorem readSpan_memoryWf {tr c a va n t} (ht : Translator.KeepsForm tr) (h : s.memoryWf) (e : readSpan tr c a s va n = .ok t) :
    t.1.memoryWf := by
  refine List.foldlM_fst_memoryWf (fun p x q hp eq => ?_) (p := (s, _, _)) h e
  grind [Translator.KeepsForm, → Except.exists_of_bind, Except.pure_eq, devRead_memoryWf]

theorem writeSpan_memoryWf {tr c a va bs t} (ht : Translator.KeepsForm tr) (h : s.memoryWf) (e : writeSpan tr c a s va bs = .ok t) :
    t.memoryWf := by
  unfold writeSpan at e
  grind [State.memoryWf, → List.foldlM_memoryWf, → List.foldlM_fst_memoryWf, → Except.exists_of_bind, Except.pure_eq, Except.throw_eq,
    devWrite_memoryWf, Translator.KeepsForm]

theorem readWord_memoryWf {tr c user va n t} (ht : Translator.KeepsForm tr) (h : s.memoryWf) (e : readWord tr c user s va n = .ok t) :
    t.1.memoryWf := by
  unfold readWord at e
  grind [State.memoryWf, → Except.exists_of_bind, Except.pure_eq, Except.throw_eq, → readSpan_memoryWf, Translator.KeepsForm]

theorem writeWord_memoryWf {tr c user va n x t} (ht : Translator.KeepsForm tr) (h : s.memoryWf) (e : writeWord tr c user s va n x = .ok
    t) : t.memoryWf := by
  unfold writeWord at e
  grind [State.memoryWf, → Except.exists_of_bind, Except.pure_eq, Except.throw_eq, → writeSpan_memoryWf, Translator.KeepsForm]

theorem settle_memoryWf {t} (h : s.memoryWf) (e : settle s = .ok t) : t.memoryWf := by
  unfold settle at e
  grind [State.memoryWf, → Except.exists_of_bind, Except.pure_eq, Except.throw_eq, → settled_memoryWf]

theorem translateAs_memoryWf {c ptbr keyt va a t} (h : s.memoryWf) (e : translateAs s c ptbr keyt va a = .ok t) : t.1.memoryWf := by
  unfold translateAs at e
  grind [State.memoryWf, → Except.exists_of_bind, Except.pure_eq, Except.throw_eq, → Except.exists_of_map, → walkLeaf_memoryWf]

theorem regionTranslator_memoryWf {r pkg a__internal_hyg0 a__internal_hyg0' t} (h : s.memoryWf) (e : regionTranslator r pkg s
    a__internal_hyg0 a__internal_hyg0' = .ok t) : t.1.memoryWf := by
  unfold regionTranslator at e
  grind [State.memoryWf, → Except.exists_of_bind, Except.pure_eq, Except.throw_eq, → translateAs_memoryWf]

theorem regionTranslator_keepsForm {r pkg} : Translator.KeepsForm (regionTranslator r pkg) :=
  fun _ _ _ _ h e => regionTranslator_memoryWf h e

theorem counterOp_memoryWf {pa op} (h : s.memoryWf) : (counterOp s pa op).1.memoryWf := by
  unfold counterOp
  grind [State.memoryWf, putBytes_memoryWf]

theorem atCounter_memoryWf {who c pa t} (h : s.memoryWf) (e : atCounter who s c pa = .ok t) : t.memoryWf := by
  unfold atCounter at e
  grind [State.memoryWf, → Except.exists_of_bind, Except.pure_eq, Except.throw_eq, → visit_memoryWf, sendTo_memoryWf,
    State.updCtx_memoryWf]

theorem putReply_memoryWf {pa x w} (h : s.memoryWf) : (putReply s pa x w).memoryWf := by
  unfold putReply
  grind [State.memoryWf, State.writeG_memoryWf, State.upd_memoryWf]

theorem arriveReply_memoryWf {c sent} (h : s.memoryWf) : (arriveReply s c sent).memoryWf := by
  unfold arriveReply
  grind [State.memoryWf, State.updCtx_memoryWf, State.writeG_memoryWf]

theorem turnOp_memoryWf {who c pa op t} (h : s.memoryWf) (e : turnOp who s c pa op = .ok t) : t.1.memoryWf := by
  unfold turnOp at e
  grind [State.memoryWf, → Except.exists_of_bind, Except.pure_eq, Except.throw_eq, → atCounter_memoryWf, counterOp_memoryWf]

theorem contextOp_memoryWf {c pa op t} (h : s.memoryWf) (e : contextOp s c pa op = .ok t) : t.1.memoryWf := by
  unfold contextOp at e
  grind [State.memoryWf, → Except.exists_of_bind, Except.pure_eq, Except.throw_eq, → turnOp_memoryWf]

theorem eventOp_memoryWf {ev c pa op t} (h : s.memoryWf) (e : eventOp ev s c pa op = .ok t) : t.1.memoryWf := by
  unfold eventOp at e
  grind [State.memoryWf, → Except.exists_of_bind, Except.pure_eq, Except.throw_eq, → turnOp_memoryWf]

theorem contextDec_memoryWf {c pa op t} (h : s.memoryWf) (e : contextDec s c pa op = .ok t) : t.1.memoryWf := by
  unfold contextDec at e
  grind [State.memoryWf, → Except.exists_of_bind, Except.pure_eq, Except.throw_eq, → atCounter_memoryWf, counterOp_memoryWf]

theorem locateCounter_memoryWf {tr writes user va t} (ht : Translator.KeepsForm tr) (h : s.memoryWf) (e : locateCounter tr s writes user
    va = .ok t) : t.1.memoryWf := by
  unfold locateCounter at e
  grind [State.memoryWf, → Except.exists_of_bind, Except.pure_eq, Except.throw_eq, Translator.KeepsForm]

theorem suspendAt_memoryWf {pa ev rcb} (h : s.memoryWf) : (suspendAt s pa ev rcb).memoryWf := by
  unfold suspendAt
  grind [State.memoryWf, State.updArcade_memoryWf]

theorem unsuspend_memoryWf {pa} (h : s.memoryWf) : (unsuspend s pa).1.memoryWf := by
  unfold unsuspend
  grind [State.memoryWf, State.updArcade_memoryWf]

theorem allocFrame_memoryWf {tr c user falloc pkg r ak n t} (ht : Translator.KeepsForm tr) (h : s.memoryWf) (e : allocFrame tr s c user
    falloc pkg r ak n = .ok (some t)) : t.1.memoryWf := by
  unfold allocFrame at e
  grind [State.memoryWf, → Except.exists_of_bind, Except.pure_eq, Except.throw_eq, → writeSpan_memoryWf, putBytes_memoryWf,
    State.updArcade_memoryWf, State.updPkg_memoryWf, Translator.KeepsForm]

theorem releaseSlot_memoryWf {pa} (h : s.memoryWf) : (releaseSlot s pa).memoryWf := by
  unfold releaseSlot
  grind [State.memoryWf, State.updArcade_memoryWf]

theorem releaseWith_memoryWf {pkg f pa} (h : s.memoryWf) : (releaseWith s pkg f pa).memoryWf := by
  unfold releaseWith
  grind [State.memoryWf, releaseSlot_memoryWf, State.updPkg_memoryWf]

theorem releaseFrame_memoryWf {pkg f} (h : s.memoryWf) : (releaseFrame s pkg f).memoryWf := by
  unfold releaseFrame
  grind [State.memoryWf, releaseWith_memoryWf]

theorem releaseByCounter_memoryWf {pa} (h : s.memoryWf) : (releaseByCounter s pa).memoryWf := by
  unfold releaseByCounter
  grind [State.memoryWf, releaseFrame_memoryWf]

theorem readQueue_memoryWf {tr c user ovq t} (ht : Translator.KeepsForm tr) (h : s.memoryWf) (e : readQueue tr c user s ovq = .ok t) :
    t.1.memoryWf := by
  unfold readQueue at e
  grind [State.memoryWf, → Except.exists_of_bind, Except.pure_eq, Except.throw_eq, → readSpan_memoryWf, Translator.KeepsForm]

theorem pushEntries_memoryWf {tr c user o q es t} (ht : Translator.KeepsForm tr) (h : s.memoryWf) (e : pushEntries tr c user s o q es =
    .ok t) : t.memoryWf := by
  obtain ⟨u, eu, e⟩ := Except.exists_of_bind e
  exact writeWord_memoryWf ht (List.foldlM_memoryWf (fun _ _ _ hu => writeSpan_memoryWf ht hu) h eu) e

theorem returnEntry_memoryWf {pkg rcb ev t} (h : s.memoryWf) (e : returnEntry s pkg rcb ev = some t) : t.memoryWf := by
  unfold returnEntry at e
  grind [State.memoryWf, → Except.exists_of_bind, Except.pure_eq, Except.throw_eq, → Except.ok_of_toOption, → regionTranslator_memoryWf,
    regionTranslator_keepsForm, → readQueue_memoryWf, → pushEntries_memoryWf]

theorem handOver_memoryWf {ak ev rcb} (h : s.memoryWf) : (handOver s ak ev rcb).memoryWf := by
  unfold handOver
  grind [State.memoryWf, → returnEntry_memoryWf, State.cause_memoryWf, State.updArcade_memoryWf]

theorem settleCounter_memoryWf {pa r} (h : s.memoryWf) : (settleCounter s pa r).memoryWf := by
  unfold settleCounter
  grind [State.memoryWf, unsuspend_memoryWf, handOver_memoryWf, releaseByCounter_memoryWf]

theorem bankOp_memoryWf {pa op} (h : s.memoryWf) : (bankOp s pa op).memoryWf := by
  unfold bankOp
  grind [State.memoryWf, counterOp_memoryWf, settleCounter_memoryWf]

theorem counterEvent_memoryWf {pa op again t} (h : s.memoryWf) (e : counterEvent s pa op again = .next t) : t.memoryWf := by
  unfold counterEvent at e
  grind [State.memoryWf, State.cause_memoryWf, bankOp_memoryWf]

theorem execCounterReoffer_memoryWf {arcade t} (h : s.memoryWf) (e : execCounterReoffer arcade s = .next t) : t.memoryWf := by
  unfold execCounterReoffer at e
  grind [State.memoryWf, State.updArcade_memoryWf, → returnEntry_memoryWf, State.cause_memoryWf]

/-! ### The operations of Machine/SaveArea.lean -/

theorem readLive_memoryWf {tr c va n t} (ht : Translator.KeepsForm tr) (h : s.memoryWf) (e : readLive tr c s va n = .ok t) :
    t.1.memoryWf := by
  unfold readLive at e
  grind [State.memoryWf, → Except.exists_of_bind, Except.pure_eq, Except.throw_eq, → readSpan_memoryWf, Translator.KeepsForm]

theorem findFrom_memoryWf {tr c l pc n lo hi t} (ht : Translator.KeepsForm tr) (h : s.memoryWf) (e : findFrom tr c l pc n s lo hi = .ok
    t) : t.1.memoryWf := by
  induction n generalizing s lo hi with
  | zero => cases e; exact h
  | succ n ih => rw [findFrom] at e; grind [→ Except.exists_of_bind, → readLive_memoryWf]

theorem findLive_memoryWf {tr c pc t} (ht : Translator.KeepsForm tr) (h : s.memoryWf) (e : findLive tr s c pc = .ok t) : t.1.memoryWf :=
    by
  unfold findLive at e
  grind [State.memoryWf, → Except.exists_of_bind, Except.pure_eq, Except.throw_eq, → readLive_memoryWf, → findFrom_memoryWf,
    Translator.KeepsForm]

theorem saveEntry_memoryWf {c pc} (h : s.memoryWf) : (saveEntry s c pc).1.memoryWf := by
  unfold saveEntry
  split
  · exact h
  · cases ef : (findLive (translateFor c) s c pc).toOption with
    | none => exact h
    | some p => exact findLive_memoryWf translateFor_keepsForm h (Except.ok_of_toOption ef)

theorem restoreItem_memoryWf {c lat n a__internal_hyg0} (h : s.memoryWf) : (restoreItem s c lat n a__internal_hyg0).memoryWf := by
  unfold restoreItem
  grind [State.memoryWf, State.putG_memoryWf, State.updCtx_memoryWf, State.writeV_memoryWf]

theorem saveRegs_memoryWf {tr c user frame l t} (ht : Translator.KeepsForm tr) (h : s.memoryWf) (e : saveRegs tr c user s frame l = .ok
    t) : t.memoryWf := by
  unfold saveRegs at e
  grind [State.memoryWf, → List.foldlM_memoryWf, → List.foldlM_fst_memoryWf, → Except.exists_of_bind, Except.pure_eq, Except.throw_eq,
    → writeSpan_memoryWf, Translator.KeepsForm]

theorem restoreRegs_memoryWf {tr c user lat frame l t} (ht : Translator.KeepsForm tr) (h : s.memoryWf) (e : restoreRegs tr c user lat s
    frame l = .ok t) : t.memoryWf := by
  unfold restoreRegs at e
  grind [State.memoryWf, → List.foldlM_memoryWf, → List.foldlM_fst_memoryWf, → Except.exists_of_bind, Except.pure_eq, Except.throw_eq,
    → readWord_memoryWf, restoreItem_memoryWf, Translator.KeepsForm]

theorem savePair_memoryWf {tr c user va pair t} (ht : Translator.KeepsForm tr) (h : s.memoryWf) (e : savePair tr c user s va pair = .ok
    t) : t.memoryWf := by
  unfold savePair at e
  grind [State.memoryWf, → Except.exists_of_bind, Except.pure_eq, Except.throw_eq, → writeSpan_memoryWf, Translator.KeepsForm]

theorem loadPair_memoryWf {tr c user va pair t} (ht : Translator.KeepsForm tr) (h : s.memoryWf) (e : loadPair tr c user s va pair = .ok
    t) : t.memoryWf := by
  unfold loadPair at e
  grind [State.memoryWf, → Except.exists_of_bind, Except.pure_eq, Except.throw_eq, Option.getD_memoryWf, → readSpan_memoryWf,
    State.updStall_memoryWf, Translator.KeepsForm]

theorem readHeader_memoryWf {tr c user frame t} (ht : Translator.KeepsForm tr) (h : s.memoryWf) (e : readHeader tr c user s frame = .ok
    t) : t.1.memoryWf := by
  unfold readHeader at e
  grind [State.memoryWf, → Except.exists_of_bind, Except.pure_eq, Except.throw_eq, → readWord_memoryWf, Translator.KeepsForm]

theorem writeHeader_memoryWf {tr c user frame rpc f t} (ht : Translator.KeepsForm tr) (h : s.memoryWf) (e : writeHeader tr c user s
    frame rpc f = .ok t) : t.memoryWf := by
  unfold writeHeader at e
  grind [State.memoryWf, → Except.exists_of_bind, Except.pure_eq, Except.throw_eq, → writeWord_memoryWf, → writeSpan_memoryWf,
    Translator.KeepsForm]

theorem newTag_memoryWf {k} (h : s.memoryWf) : (newTag s k).1.memoryWf := by
  unfold newTag
  grind [State.memoryWf, State.updStall_memoryWf]

theorem countTask_memoryWf {c d} (h : s.memoryWf) : (countTask s c d).memoryWf := by
  unfold countTask
  grind [State.memoryWf, State.updRegion_memoryWf]

theorem dieAsync_memoryWf {c x} (h : s.memoryWf) : (dieAsync s c x).memoryWf := by
  unfold dieAsync
  grind [State.memoryWf, State.beginDeath_memoryWf]

theorem restorePair_memoryWf {c va pc t} (h : s.memoryWf) (e : restorePair s c va pc = .ok t) : t.memoryWf := by
  unfold restorePair at e
  grind [State.memoryWf, → Except.exists_of_bind, Except.pure_eq, Except.throw_eq, → loadPair_memoryWf, → translateFor_memoryWf,
    translateFor_keepsForm, block_memoryWf]

theorem restoreArea_memoryWf {c frame rpc f pc lat t} (h : s.memoryWf) (e : restoreArea s c frame rpc f pc lat = .ok t) : t.memoryWf :=
    by
  unfold restoreArea at e
  grind [State.memoryWf, → Except.exists_of_bind, Except.pure_eq, Except.throw_eq, Option.getD_memoryWf, → translateFor_memoryWf,
    translateFor_keepsForm, → restoreRegs_memoryWf, → restorePair_memoryWf, → findLive_memoryWf]

theorem resumeTask_memoryWf {c frame nt} (h : s.memoryWf) : (resumeTask s c frame nt).memoryWf := by
  unfold resumeTask
  grind [State.memoryWf, → Except.exists_of_bind, Except.pure_eq, Except.throw_eq, Option.getD_memoryWf, enter_memoryWf,
    → readHeader_memoryWf, → translateFor_memoryWf, translateFor_keepsForm, dieAsync_memoryWf, State.updCtx_memoryWf,
    → restoreArea_memoryWf]

/-! ### The operations of Machine/Contexts.lean -/

theorem putRegionState_memoryWf {pkg r code} (h : s.memoryWf) : (putRegionState s pkg r code).memoryWf := by
  unfold putRegionState
  grind [State.memoryWf, devWrite_memoryWf]

theorem updRegionState_memoryWf {pkg rcb f} (h : s.memoryWf) : (updRegionState s pkg rcb f).memoryWf := by
  unfold updRegionState
  grind [State.memoryWf, State.updRegion_memoryWf, putRegionState_memoryWf]

theorem bindContext_memoryWf {c r} (h : s.memoryWf) : (bindContext s c r).memoryWf := by
  unfold bindContext
  grind [State.memoryWf, regate_memoryWf, State.updCtx_memoryWf]

theorem leaveDeque_memoryWf {c} (h : s.memoryWf) : (leaveDeque s c).memoryWf := by
  unfold leaveDeque
  grind [State.memoryWf, State.updCtx_memoryWf]

theorem unbindContext_memoryWf {c} (h : s.memoryWf) : (unbindContext s c).memoryWf := by
  unfold unbindContext
  grind [State.memoryWf, Option.getD_memoryWf, State.updRegion_memoryWf, leaveDeque_memoryWf, State.updCtx_memoryWf,
    bindContext_memoryWf]

theorem sendSlice_memoryWf {src dst ev} (h : s.memoryWf) : (sendSlice s src dst ev).memoryWf := by
  unfold sendSlice
  grind [State.memoryWf, State.cause_memoryWf, sendMessage_memoryWf]

theorem noteFreed_memoryWf {c} (h : s.memoryWf) : (noteFreed s c).memoryWf := by
  unfold noteFreed
  grind [State.memoryWf, List.foldl_memoryWf, List.foldl_fst_memoryWf, State.updPkg_memoryWf, sendSlice_memoryWf]

theorem clearRequests_memoryWf {c} (h : s.memoryWf) : (clearRequests s c).memoryWf := by
  unfold clearRequests
  grind [State.memoryWf, State.updCtx_memoryWf]

theorem freeContext_memoryWf {c} (h : s.memoryWf) : (freeContext s c).memoryWf := by
  unfold freeContext
  grind [State.memoryWf, noteFreed_memoryWf, unbindContext_memoryWf, clearRequests_memoryWf, State.cause_memoryWf]

theorem goIdle_memoryWf {c} (h : s.memoryWf) : (goIdle s c).memoryWf := by
  unfold goIdle
  grind [State.memoryWf, enter_memoryWf, State.updCtx_memoryWf, freeContext_memoryWf, State.cause_memoryWf]

theorem checkEnd_memoryWf {pkg rcb} (h : s.memoryWf) : (checkEnd s pkg rcb).memoryWf := by
  unfold checkEnd
  grind [State.memoryWf, State.cause_memoryWf]

theorem taskOver_memoryWf {c} (h : s.memoryWf) : (taskOver s c).memoryWf := by
  unfold taskOver
  grind [State.memoryWf, checkEnd_memoryWf, countTask_memoryWf]

theorem rootOver_memoryWf {c died} (h : s.memoryWf) : (rootOver s c died).memoryWf := by
  unfold rootOver
  grind [State.memoryWf, updRegionState_memoryWf]

theorem noteOver_memoryWf {c} (h : s.memoryWf) : (noteOver s c).memoryWf := by
  unfold noteOver
  grind [State.memoryWf, State.updPkg_memoryWf]

theorem reportLosses_memoryWf {c} (h : s.memoryWf) : (reportLosses s c).memoryWf := by
  unfold reportLosses
  grind [State.memoryWf, noteOver_memoryWf, State.updPkg_memoryWf, State.updHall_memoryWf, State.updCtx_memoryWf]

theorem freeGranules_memoryWf {ak rcb f} (h : s.memoryWf) : (freeGranules s ak rcb f).memoryWf := by
  unfold freeGranules
  grind [State.memoryWf, State.updArcade_memoryWf, State.updRegion_memoryWf]

theorem freeTaskGranules_memoryWf {c slot} (h : s.memoryWf) : (freeTaskGranules s c slot).memoryWf := by
  unfold freeTaskGranules
  grind [State.memoryWf, List.foldl_memoryWf, List.foldl_fst_memoryWf, freeGranules_memoryWf]

/-! ### The operations of Machine/Fences.lean -/

theorem runFence_memoryWf {eng a t} (h : s.memoryWf) (e : runFence eng a s = .next t) : t.memoryWf := by
  unfold runFence at e
  grind [State.memoryWf, → Except.exists_of_bind, Except.pure_eq, Except.throw_eq, → Except.exists_of_map, Option.getD_memoryWf,
    acquireCaches_memoryWf, finish_memoryWf, State.advance_memoryWf, → withRelease_memoryWf]

theorem flushLine_memoryWf {c p scope} (h : s.memoryWf) : (flushLine s c p scope).memoryWf := by
  unfold flushLine
  grind [State.memoryWf, Option.getD_memoryWf, writeBackLine_memoryWf, State.updCtx_memoryWf, writeBackL2_memoryWf]

theorem withLine_memoryWf {a f t} (hf : ∀ u p sc t, u.memoryWf → f u p sc = .ok t → t.memoryWf) (h : s.memoryWf) (e : withLine a s f =
    .next t) : t.memoryWf := by
  refine finish_memoryWf h (fun u eu => ?_) e
  grind [→ Except.exists_of_bind, → translate_memoryWf]

theorem execFlush_memoryWf {a t} (h : s.memoryWf) (e : execFlush a s = .next t) : t.memoryWf := by
  unfold execFlush at e
  grind [State.memoryWf, → Except.exists_of_bind, Except.pure_eq, Except.throw_eq, withLine_memoryWf, State.advance_memoryWf,
    → settled_memoryWf, State.stay_memoryWf, flushLine_memoryWf]

theorem invalLine_memoryWf {c p scope} (h : s.memoryWf) : (invalLine s c p scope).memoryWf := by
  unfold invalLine
  grind [State.memoryWf, flushLine_memoryWf, dropLine_memoryWf, dropVisitor_memoryWf]

theorem execInval_memoryWf {a t} (h : s.memoryWf) (e : execInval a s = .next t) : t.memoryWf := by
  unfold execInval at e
  grind [State.memoryWf, → Except.exists_of_bind, Except.pure_eq, Except.throw_eq, withLine_memoryWf, → settled_memoryWf,
    State.advance_memoryWf, invalLine_memoryWf]

theorem execPref_memoryWf {a t} (h : s.memoryWf) (e : execPref a s = .next t) : t.memoryWf := by
  unfold execPref at e
  grind [State.memoryWf, → Except.exists_of_bind, Except.pure_eq, Except.throw_eq, finish_memoryWf, → translateNow_memoryWf,
    State.advance_memoryWf, loadPlace_memoryWf]

theorem execTbmc_memoryWf {t} (h : s.memoryWf) (e : execTbmc s = .next t) : t.memoryWf := by
  unfold execTbmc at e
  grind [State.memoryWf, → Except.exists_of_bind, Except.pure_eq, Except.throw_eq, finish_memoryWf, State.advance_memoryWf,
    State.upd_memoryWf]

theorem execHomeRecall_memoryWf {hall key line t} (h : s.memoryWf) (e : execHomeRecall hall key line s = .next t) : t.memoryWf := by
  unfold execHomeRecall at e
  grind [State.memoryWf, recallHall_memoryWf]

theorem execLineEviction_memoryWf {level unit key line t} (h : s.memoryWf) (e : execLineEviction level unit key line s = .next t) :
    t.memoryWf := by
  unfold execLineEviction at e
  grind [State.memoryWf, recallLine_memoryWf, dropL2_memoryWf]

/-! ### The operations of Machine/SystemUnit.lean -/

theorem execNop_memoryWf {t} (h : s.memoryWf) (e : execNop s = .next t) : t.memoryWf := by
  unfold execNop at e
  grind [State.memoryWf, → Except.exists_of_bind, Except.pure_eq, Except.throw_eq, finish_memoryWf, State.advance_memoryWf]

theorem execYield_memoryWf {t} (h : s.memoryWf) (e : execYield s = .next t) : t.memoryWf := by
  unfold execYield at e
  grind [State.memoryWf, → Except.exists_of_bind, Except.pure_eq, Except.throw_eq, block_memoryWf, finish_memoryWf,
    State.advance_memoryWf]

theorem execTrapf_memoryWf {t} (h : s.memoryWf) (e : execTrapf s = .next t) : t.memoryWf := by
  unfold execTrapf at e
  grind [State.memoryWf, → Except.exists_of_bind, Except.pure_eq, Except.throw_eq, finish_memoryWf, State.advance_memoryWf]

theorem execFlagr_memoryWf {a t} (h : s.memoryWf) (e : execFlagr a s = .next t) : t.memoryWf := by
  unfold execFlagr at e
  grind [State.memoryWf, → Except.exists_of_bind, Except.pure_eq, Except.throw_eq, finish_memoryWf, State.complete_memoryWf]

theorem execFlagc_memoryWf {a t} (h : s.memoryWf) (e : execFlagc a s = .next t) : t.memoryWf := by
  unfold execFlagc at e
  grind [State.memoryWf, → Except.exists_of_bind, Except.pure_eq, Except.throw_eq, finish_memoryWf, State.advance_memoryWf,
    State.upd_memoryWf]

theorem execSysc_memoryWf {a t} (h : s.memoryWf) (e : execSysc a s = .next t) : t.memoryWf := by
  unfold execSysc at e
  grind [State.memoryWf, → Except.exists_of_bind, Except.pure_eq, Except.throw_eq, finish_memoryWf]

theorem triggerGroup_memoryWf {k stop} (h : s.memoryWf) : (triggerGroup s k stop).memoryWf := by
  unfold triggerGroup
  grind [State.memoryWf]

theorem execBkpt_memoryWf {a t} (h : s.memoryWf) (e : execBkpt a s = .next t) : t.memoryWf := by
  unfold execBkpt at e
  grind [State.memoryWf, → Except.exists_of_bind, Except.pure_eq, Except.throw_eq, State.updArcade_memoryWf, triggerGroup_memoryWf,
    State.advance_memoryWf, finish_memoryWf]

theorem haltContext_memoryWf {c} (h : s.memoryWf) : (haltContext s c).memoryWf := by
  unfold haltContext
  grind [State.memoryWf, State.updCtx_memoryWf]

theorem resumeContext_memoryWf {c} (h : s.memoryWf) : (resumeContext s c).memoryWf := by
  unfold resumeContext
  grind [State.memoryWf, State.updCtx_memoryWf, State.cause_memoryWf]

theorem haltStall_memoryWf {k} (h : s.memoryWf) : (haltStall s k).memoryWf := by
  unfold haltStall
  grind [State.memoryWf, List.foldl_memoryWf, List.foldl_fst_memoryWf, haltContext_memoryWf, State.updStall_memoryWf]

theorem thawCarter_memoryWf {k} (h : s.memoryWf) : (thawCarter s k).memoryWf := by
  unfold thawCarter
  grind [State.memoryWf, State.causeOnce_memoryWf, wakeSlots_memoryWf]

theorem resumeStall_memoryWf {k} (h : s.memoryWf) : (resumeStall s k).memoryWf := by
  unfold resumeStall
  grind [State.memoryWf, List.foldl_memoryWf, List.foldl_fst_memoryWf, resumeContext_memoryWf, State.updStall_memoryWf,
    State.cause_memoryWf, State.causeOnce_memoryWf, thawCarter_memoryWf]

theorem execCrossTrigger_memoryWf {stall stop t} (h : s.memoryWf) (e : execCrossTrigger stall stop s = .next t) : t.memoryWf := by
  unfold execCrossTrigger at e
  grind [State.memoryWf, haltStall_memoryWf, resumeStall_memoryWf]

theorem execInspectorHalt_memoryWf {arcade stalls t} (h : s.memoryWf) (e : execInspectorHalt arcade stalls s = .next t) : t.memoryWf :=
    by
  unfold execInspectorHalt at e
  grind [State.memoryWf, List.foldl_memoryWf, List.foldl_fst_memoryWf, triggerGroup_memoryWf]

theorem execInspectorResume_memoryWf {arcade stalls t} (h : s.memoryWf) (e : execInspectorResume arcade stalls s = .next t) : t.memoryWf
    := by
  unfold execInspectorResume at e
  grind [State.memoryWf, List.foldl_memoryWf, List.foldl_fst_memoryWf, triggerGroup_memoryWf, State.updArcade_memoryWf]

theorem execInspectorStep_memoryWf {arcade t} (h : s.memoryWf) (e : execInspectorStep arcade s = .next t) : t.memoryWf := by
  unfold execInspectorStep at e
  grind [State.memoryWf, State.updArcade_memoryWf]

theorem execIdataRead_memoryWf {arcade t} (h : s.memoryWf) (e : execIdataRead arcade s = .next t) : t.memoryWf := by
  unfold execIdataRead at e
  grind [State.memoryWf, State.updArcade_memoryWf]

theorem execIdataWrite_memoryWf {arcade value t} (h : s.memoryWf) (e : execIdataWrite arcade value s = .next t) : t.memoryWf := by
  unfold execIdataWrite at e
  grind [State.memoryWf, State.updArcade_memoryWf, inspectWrite_memoryWf]

theorem execIdignReset_memoryWf {arcade t} (h : s.memoryWf) (e : execIdignReset arcade s = .next t) : t.memoryWf := by
  unfold execIdignReset at e
  grind [State.memoryWf, resetDigest_memoryWf]

theorem execHalt_memoryWf {t} (h : s.memoryWf) (e : execHalt s = .next t) : t.memoryWf := by
  unfold execHalt at e
  grind [State.memoryWf, → Except.exists_of_bind, Except.pure_eq, Except.throw_eq, finish_memoryWf, triggerGroup_memoryWf,
    State.advance_memoryWf, haltContext_memoryWf]

theorem execRdc_memoryWf {a t} (h : s.memoryWf) (e : execRdc a s = .next t) : t.memoryWf := by
  unfold execRdc at e
  grind [State.memoryWf, → Except.exists_of_bind, Except.pure_eq, Except.throw_eq, finish_memoryWf, State.complete_memoryWf]

theorem execWrc_memoryWf {a t} (h : s.memoryWf) (e : execWrc a s = .next t) : t.memoryWf := by
  unfold execWrc at e
  grind [State.memoryWf, → Except.exists_of_bind, Except.pure_eq, Except.throw_eq, finish_memoryWf, → writeCsr_memoryWf,
    State.advance_memoryWf]

theorem execTmark_memoryWf {a t} (h : s.memoryWf) (e : execTmark a s = .next t) : t.memoryWf := by
  unfold execTmark at e
  grind [State.memoryWf, → Except.exists_of_bind, Except.pure_eq, Except.throw_eq, finish_memoryWf, logTimed_memoryWf,
    State.advance_memoryWf]

theorem execEret_memoryWf {t} (h : s.memoryWf) (e : execEret s = .next t) : t.memoryWf := by
  unfold execEret at e
  grind [State.memoryWf, → Except.exists_of_bind, Except.pure_eq, Except.throw_eq, finish_memoryWf, State.upd_memoryWf]

/-! ### The operations of Machine/Tasks.lean -/

theorem ownCounterOf_memoryWf {c frame t} (h : s.memoryWf) (e : ownCounterOf s c frame = .ok t) : t.1.memoryWf := by
  unfold ownCounterOf at e
  grind [State.memoryWf, → Except.exists_of_bind, Except.pure_eq, Except.throw_eq, → readWord_memoryWf, → translateFor_memoryWf,
    translateFor_keepsForm, → locateCounter_memoryWf]

theorem spill16_memoryWf {c t} (h : s.memoryWf) (e : spill16 s c = .ok (some t)) : t.memoryWf := by
  unfold spill16 at e
  split at e
  · cases e
  · dsimp only at e
    split at e
    · rename_i eg
      cases e
      obtain ⟨q, eq, eg⟩ := Except.exists_of_bind eg
      have eg := Except.ok_of_guard eg
      obtain ⟨s2, e2, eg⟩ := Except.exists_of_bind eg
      obtain ⟨s3, e3, eg⟩ := Except.exists_of_bind eg
      cases eg
      refine State.updCtx_memoryWf (pushEntries_memoryWf translateFor_keepsForm
        (List.foldlM_memoryWf (fun u a v hu ev => ?_) (readQueue_memoryWf translateFor_keepsForm h eq) e2) e3)
      obtain ⟨p, ep, ev⟩ := Except.exists_of_bind ev
      obtain ⟨r, er, ev⟩ := Except.exists_of_bind ev
      cases ev
      exact contextOp_memoryWf (ownCounterOf_memoryWf hu ep) er
    all_goals cases e

theorem runSpawn_memoryWf {x tg aff f sc t} (h : s.memoryWf) (e : runSpawn x tg aff f sc s = .ok t) : t.memoryWf := by
  unfold runSpawn at e
  have e := Except.ok_of_guard (Except.ok_of_guard (Except.ok_of_guard e))
  obtain ⟨s1, e1, e⟩ := Except.exists_of_bind e
  obtain ⟨s2, e2, e⟩ := Except.exists_of_bind e
  obtain ⟨pc, -, e⟩ := Except.exists_of_bind e
  obtain ⟨s3, e3, e⟩ := Except.exists_of_bind e
  have h3 := settle_memoryWf (checkSpan_memoryWf translate_keepsForm (checkSpan_memoryWf translate_keepsForm h e1) e2) e3
  clear e1 e2 e3
  revert e
  generalize hE : (fun (degraded : Bool) (u : State) => _ : Bool → State → Except Stop State) = enterChild
  intro e
  have enter {d u t} (hu : u.memoryWf) (ed : enterChild d u = .ok t) : t.memoryWf := by
    subst hE
    obtain ⟨u0, e0, ed⟩ := Except.exists_of_bind ed
    have h0 := writeHeader_memoryWf translate_keepsForm hu e0
    revert ed
    generalize hF : (fun (u1 : State) => _ : State → Except Stop State) = fillChild
    intro ed
    have fill {u1} (h1 : u1.memoryWf) (ef : fillChild u1 = .ok t) : t.memoryWf := by
      subst hF
      obtain ⟨u2, e2, ef⟩ := Except.exists_of_bind ef
      obtain ⟨u4, e4, ef⟩ := Except.exists_of_bind ef
      obtain ⟨u5, e5, ef⟩ := Except.exists_of_bind ef
      cases ef
      exact countTask_memoryWf (State.upd_memoryWf (writeSpan_memoryWf translate_keepsForm (writeWord_memoryWf translate_keepsForm
        (newTag_memoryWf (readWord_memoryWf translate_keepsForm h1 e2)) e4) e5))
    split at ed
    · obtain ⟨l, el, ed⟩ := Except.exists_of_bind ed
      obtain ⟨r, er, ed⟩ := Except.exists_of_bind ed
      exact fill (suspendAt_memoryWf (contextOp_memoryWf (locateCounter_memoryWf translate_keepsForm h0 el) er)) ed
    · exact fill (State.upd_memoryWf h0) ed
  split at e
  · exact enter h3 e
  split at e
  · exact enter h3 e
  · exact withQuietRelease_memoryWf (by grind [→ Except.exists_of_bind, → spill16_memoryWf]) h3 e

theorem execSpawn_memoryWf {a t} (h : s.memoryWf) (e : execSpawn a s = .next t) : t.memoryWf := by
  unfold execSpawn at e
  grind [State.memoryWf, → Except.exists_of_bind, Except.pure_eq, Except.throw_eq, finish_memoryWf, → runSpawn_memoryWf]

theorem execSpawna_memoryWf {a t} (h : s.memoryWf) (e : execSpawna a s = .next t) : t.memoryWf := by
  unfold execSpawna at e
  grind [State.memoryWf, → Except.exists_of_bind, Except.pure_eq, Except.throw_eq, finish_memoryWf, → runSpawn_memoryWf]

theorem execSpawnf_memoryWf {a t} (h : s.memoryWf) (e : execSpawnf a s = .next t) : t.memoryWf := by
  unfold execSpawnf at e
  grind [State.memoryWf, → Except.exists_of_bind, Except.pure_eq, Except.throw_eq, finish_memoryWf, → runSpawn_memoryWf]

theorem nextTask_memoryWf {c} (h : s.memoryWf) : (nextTask s c).memoryWf := by
  unfold nextTask
  grind [State.memoryWf, resumeTask_memoryWf, State.updCtx_memoryWf, goIdle_memoryWf]

theorem saveTask_memoryWf {pa t} (h : s.memoryWf) (e : saveTask s pa = .ok t) : t.memoryWf := by
  unfold saveTask at e
  grind [State.memoryWf, → Except.exists_of_bind, Except.pure_eq, Except.throw_eq, Option.getD_memoryWf, saveEntry_memoryWf,
    → saveRegs_memoryWf, → translate_memoryWf, translate_keepsForm, → writeHeader_memoryWf, State.upd_memoryWf, → savePair_memoryWf]

theorem leavePair_memoryWf {c} (h : s.memoryWf) : (leavePair s c).memoryWf := by
  unfold leavePair
  grind [State.memoryWf, freePair_memoryWf]

theorem leaveTask_memoryWf {pa} (h : s.memoryWf) : (leaveTask s pa).memoryWf := by
  unfold leaveTask
  grind [State.memoryWf, suspendAt_memoryWf, nextTask_memoryWf, enter_memoryWf, leavePair_memoryWf, State.upd_memoryWf]

theorem clearSaved_memoryWf {t} (h : s.memoryWf) (e : clearSaved s = .ok t) : t.memoryWf := by
  unfold clearSaved at e
  grind [State.memoryWf, → Except.exists_of_bind, Except.pure_eq, Except.throw_eq, → readWord_memoryWf, → translateFor_memoryWf,
    translateFor_keepsForm, → writeWord_memoryWf, State.upd_memoryWf]

theorem syncJoin_memoryWf {rest t} (hf : ∀ u pa t, u.memoryWf → rest u pa = .ok t → t.memoryWf) (h : s.memoryWf)
    (e : syncJoin s rest = .ok t) : t.memoryWf := by
  unfold syncJoin at e
  grind [→ Except.exists_of_bind, Except.pure_eq, acquireCaches_memoryWf, → contextOp_memoryWf, → clearSaved_memoryWf,
    leaveTask_memoryWf, → settle_memoryWf, → locateCounter_memoryWf, translate_keepsForm, → atCounter_memoryWf, → saveTask_memoryWf]

theorem execSync_memoryWf {t} (h : s.memoryWf) (e : execSync s = .next t) : t.memoryWf := by
  unfold execSync at e
  grind [State.memoryWf, → Except.exists_of_bind, Except.pure_eq, Except.throw_eq, finish_memoryWf, → syncJoin_memoryWf,
    State.advance_memoryWf]

theorem execSyncc_memoryWf {a t} (h : s.memoryWf) (e : execSyncc a s = .next t) : t.memoryWf := by
  unfold execSyncc at e
  grind [State.memoryWf, → Except.exists_of_bind, Except.pure_eq, Except.throw_eq, finish_memoryWf, → syncJoin_memoryWf,
    → contextOp_memoryWf, State.advance_memoryWf, putReply_memoryWf]

theorem execSyncq_memoryWf {a t} (h : s.memoryWf) (e : execSyncq a s = .next t) : t.memoryWf := by
  unfold execSyncq at e
  grind [State.memoryWf, → Except.exists_of_bind, Except.pure_eq, Except.throw_eq, finish_memoryWf, → locateCounter_memoryWf,
    → translate_memoryWf, translate_keepsForm, → atCounter_memoryWf, State.advance_memoryWf, putReply_memoryWf]

theorem takeResume_memoryWf {c pa frame} (h : s.memoryWf) : (takeResume s c pa frame).memoryWf := by
  unfold takeResume
  grind [State.memoryWf, State.next_memoryWf, State.updCtx_memoryWf, block_memoryWf, unsuspend_memoryWf]

theorem sendCounterOp_memoryWf {c pa dead} (h : s.memoryWf) : (sendCounterOp s c pa dead).memoryWf := by
  unfold sendCounterOp
  grind [State.memoryWf, State.cause_memoryWf, sendMessage_memoryWf]

theorem clearTask_memoryWf {c} (h : s.memoryWf) : (clearTask s c).memoryWf := by
  unfold clearTask
  grind [State.memoryWf, freeTaskGranules_memoryWf, reportLosses_memoryWf, leavePair_memoryWf]

theorem freeOwn_memoryWf {c own} (h : s.memoryWf) : (freeOwn s c own).memoryWf := by
  unfold freeOwn
  grind [State.memoryWf, clearTask_memoryWf, releaseWith_memoryWf]

theorem endTask_memoryWf {own t} (h : s.memoryWf) (e : endTask s own = .ok t) : t.memoryWf := by
  unfold endTask at e
  grind [State.memoryWf, → Except.exists_of_bind, Except.pure_eq, Except.throw_eq, goIdle_memoryWf, taskOver_memoryWf,
    rootOver_memoryWf, clearTask_memoryWf, nextTask_memoryWf, freeOwn_memoryWf, → withQuietRelease_memoryWf, sendCounterOp_memoryWf,
    → locateCounter_memoryWf, → translate_memoryWf, translate_keepsForm, → contextDec_memoryWf, takeResume_memoryWf,
    releaseByCounter_memoryWf, State.beginDeath_memoryWf]

theorem execTend_memoryWf {t} (h : s.memoryWf) (e : execTend s = .next t) : t.memoryWf := by
  unfold execTend at e
  grind [State.memoryWf, → Except.exists_of_bind, Except.pure_eq, Except.throw_eq, finish_memoryWf, → syncJoin_memoryWf,
    → endTask_memoryWf]

theorem execTabort_memoryWf {a t} (h : s.memoryWf) (e : execTabort a s = .next t) : t.memoryWf := by
  unfold execTabort at e
  grind [State.memoryWf, → Except.exists_of_bind, Except.pure_eq, Except.throw_eq, finish_memoryWf, State.beginDeath_memoryWf]

theorem execResumeContinuation_memoryWf {ctx t} (h : s.memoryWf) (e : execResumeContinuation ctx s = .next t) : t.memoryWf := by
  unfold execResumeContinuation at e
  grind [State.memoryWf, → Except.exists_of_bind, Except.pure_eq, Except.throw_eq, resumeTask_memoryWf, acquireCaches_memoryWf,
    State.updCtx_memoryWf, → restorePair_memoryWf, wake_memoryWf, dieAsync_memoryWf]

theorem execFalloc_memoryWf {a t} (h : s.memoryWf) (e : execFalloc a s = .next t) : t.memoryWf := by
  refine finish_memoryWf h (fun u eu => ?_) e
  obtain ⟨_, -, eu⟩ := Except.exists_of_bind eu
  obtain ⟨_, -, eu⟩ := Except.exists_of_bind eu
  dsimp only at eu
  split at eu
  · cases eu
    exact State.complete_memoryWf h
  · obtain ⟨s1, e1, eu⟩ := Except.exists_of_bind eu
    obtain ⟨o, eo, eu⟩ := Except.exists_of_bind eu
    split at eu
    · cases eu
      exact State.complete_memoryWf h
    · cases eu
      exact State.complete_memoryWf (allocFrame_memoryWf translateFor_keepsForm (settle_memoryWf h e1) eo)

theorem execFfree_memoryWf {a t} (h : s.memoryWf) (e : execFfree a s = .next t) : t.memoryWf := by
  refine finish_memoryWf h (fun u eu => ?_) e
  grind [→ Except.exists_of_bind, Except.pure_eq, Except.throw_eq, → settle_memoryWf, → readWord_memoryWf, translate_keepsForm,
      → locateCounter_memoryWf, → atCounter_memoryWf, releaseWith_memoryWf, State.advance_memoryWf]

theorem runCounter_memoryWf {y z imm ord op t} (h : s.memoryWf) (e : runCounter y z imm ord s op = .ok t) : t.memoryWf := by
  unfold runCounter at e
  grind [State.memoryWf, → Except.exists_of_bind, Except.pure_eq, Except.throw_eq, → locateCounter_memoryWf, → translate_memoryWf,
    translate_keepsForm, → contextDec_memoryWf, State.advance_memoryWf, acquireOf_memoryWf, settleCounter_memoryWf,
    → releaseThen_memoryWf, → coverFor_memoryWf]

theorem execJinit_memoryWf {a t} (h : s.memoryWf) (e : execJinit a s = .next t) : t.memoryWf := by
  unfold execJinit at e
  grind [State.memoryWf, → Except.exists_of_bind, Except.pure_eq, Except.throw_eq, finish_memoryWf, → runCounter_memoryWf]

theorem execJadd_memoryWf {a t} (h : s.memoryWf) (e : execJadd a s = .next t) : t.memoryWf := by
  unfold execJadd at e
  grind [State.memoryWf, → Except.exists_of_bind, Except.pure_eq, Except.throw_eq, finish_memoryWf, → runCounter_memoryWf]

theorem pubLines_memoryWf {c sc p n} (h : s.memoryWf) : (pubLines s c sc p n).memoryWf := by
  unfold pubLines
  grind [State.memoryWf, List.foldl_memoryWf, List.foldl_fst_memoryWf, flushLine_memoryWf]

theorem pubRange_memoryWf {c sc hi n va} (h : s.memoryWf) : (pubRange c sc hi n s va).memoryWf := by
  induction n generalizing s va with
  | zero => exact h
  | succ n ih => rw [pubRange]; grind [→ translateNow_memoryWf, pubLines_memoryWf]

theorem execPub_memoryWf {a t} (h : s.memoryWf) (e : execPub a s = .next t) : t.memoryWf := by
  unfold execPub at e
  grind [State.memoryWf, → Except.exists_of_bind, Except.pure_eq, Except.throw_eq, → Except.exists_of_map, Option.getD_memoryWf,
    finish_memoryWf, → settle_memoryWf, State.advance_memoryWf, pubRange_memoryWf]

theorem execTname_memoryWf {a t} (h : s.memoryWf) (e : execTname a s = .next t) : t.memoryWf := by
  unfold execTname at e
  grind [State.memoryWf, → Except.exists_of_bind, Except.pure_eq, Except.throw_eq, finish_memoryWf, → settle_memoryWf,
    → writeWord_memoryWf, → translate_memoryWf, translate_keepsForm, State.advance_memoryWf, State.upd_memoryWf]

theorem execTdrop_memoryWf {a t} (h : s.memoryWf) (e : execTdrop a s = .next t) : t.memoryWf := by
  unfold execTdrop at e
  grind [State.memoryWf, → Except.exists_of_bind, Except.pure_eq, Except.throw_eq, finish_memoryWf, State.advance_memoryWf,
    State.upd_memoryWf, freeTaskGranules_memoryWf]

/-! ### The operations of Machine/Haggler.lean -/

theorem setHunt_memoryWf {c hk} (h : s.memoryWf) : (setHunt s c hk).memoryWf := by
  unfold setHunt
  grind [State.memoryWf, State.updCtx_memoryWf]

theorem updHunt_memoryWf {c f} (h : s.memoryWf) : (updHunt s c f).memoryWf := by
  unfold updHunt
  grind [State.memoryWf, State.updCtx_memoryWf]

theorem namedTiles_memoryWf {c frame nt t} (h : s.memoryWf) (e : namedTiles s c frame nt = some t) : t.1.memoryWf := by
  refine List.foldlM_fst_memoryWf (fun p x q hp eq => ?_) (p := (s, _)) h (Except.ok_of_toOption e)
  obtain ⟨u, eu, eq⟩ := Except.exists_of_bind eq
  cases eq
  exact readWord_memoryWf translateFor_keepsForm hp eu

theorem giveBack_memoryWf {c hk ev} (h : s.memoryWf) : (giveBack s c hk ev).1.memoryWf := by
  unfold giveBack
  grind [State.memoryWf, → returnEntry_memoryWf, State.cause_memoryWf, setHunt_memoryWf]

theorem takeOverflow_memoryWf {c r t} (h : s.memoryWf) (e : takeOverflow s c r = some t) : t.1.memoryWf := by
  have e := Except.ok_of_toOption e
  obtain ⟨⟨s1, q⟩, e1, e⟩ := Except.exists_of_bind e
  obtain ⟨⟨s2, n⟩, e2, e⟩ := Except.exists_of_bind (Except.ok_of_guard e)
  obtain ⟨s3, e3, e⟩ := Except.exists_of_bind e
  cases e
  exact writeWord_memoryWf regionTranslator_keepsForm (readWord_memoryWf regionTranslator_keepsForm
    (readQueue_memoryWf regionTranslator_keepsForm h e1) e2) e3

theorem dropHunt_memoryWf {c} (h : s.memoryWf) : (dropHunt s c).memoryWf := by
  unfold dropHunt
  grind [State.memoryWf, State.causeOnce_memoryWf, setHunt_memoryWf]

theorem probeFrom_memoryWf {n c} (h : s.memoryWf) : (probeFrom n s c).memoryWf := by
  induction n generalizing s with
  | zero => exact h
  | succ n ih =>
    rw [probeFrom]
    grind [Option.bind_eq_some_iff, dropHunt_memoryWf, setHunt_memoryWf, State.cause_memoryWf, postMessage_memoryWf,
        → takeOverflow_memoryWf, giveBack_memoryWf]

theorem probeNext_memoryWf {c} (h : s.memoryWf) : (probeNext s c).memoryWf := by
  unfold probeNext
  grind [State.memoryWf, probeFrom_memoryWf]

theorem execHuntRound_memoryWf {ctx t} (h : s.memoryWf) (e : execHuntRound ctx s = .next t) : t.memoryWf := by
  unfold execHuntRound at e
  grind [State.memoryWf, State.cause_memoryWf, dropHunt_memoryWf, State.next_memoryWf, State.updStall_memoryWf, probeNext_memoryWf,
    setHunt_memoryWf]

theorem jincEntry_memoryWf {w c ev t} (h : s.memoryWf) (e : jincEntry w s c ev = .ok t) : t.memoryWf := by
  unfold jincEntry at e
  grind [State.memoryWf, → Except.exists_of_bind, Except.pure_eq, Except.throw_eq, → Except.exists_of_map, → ownCounterOf_memoryWf,
    → eventOp_memoryWf]

theorem answerTake_memoryWf {k thief kind} (h : s.memoryWf) : (answerTake s k thief kind).memoryWf := by
  unfold answerTake
  grind [State.memoryWf, postMessage_memoryWf]

theorem execTake_memoryWf {a v t} (h : s.memoryWf) (e : execTake v a s = .next t) : t.memoryWf := by
  unfold execTake at e
  (repeat' split at e) <;> cases e <;>
  grind [finishEvent_memoryWf, → Except.exists_of_bind, Except.pure_eq, Except.throw_eq, → jincEntry_memoryWf, State.updCtx_memoryWf,
      State.updStall_memoryWf, updHunt_memoryWf, releaseNow_memoryWf, answerTake_memoryWf, State.cause_memoryWf]

theorem allocTile_memoryWf {ak rcb tag slot b t} (h : s.memoryWf) (e : allocTile s ak rcb tag slot b = some t) : t.memoryWf := by
  obtain ⟨g, -, rfl⟩ := Option.map_eq_some_iff.mp e
  exact State.updRegion_memoryWf (State.updArcade_memoryWf h)

theorem allocTiles_memoryWf {c ev t} (h : s.memoryWf) (e : allocTiles s c ev = some t) : t.memoryWf := by
  obtain ⟨⟨s1, ts⟩, e1, e⟩ := Option.bind_eq_some_iff.mp e
  exact List.foldlM_option_memoryWf (fun _ _ _ hu eu => allocTile_memoryWf hu eu) (namedTiles_memoryWf h e1) e

theorem tilePlaces_memoryWf {c ev} (h : s.memoryWf) : (tilePlaces s c ev).1.memoryWf := by
  unfold tilePlaces
  grind [State.memoryWf, → namedTiles_memoryWf]

theorem startMove_memoryWf {c src ev} (h : s.memoryWf) : (startMove s c src ev).memoryWf := by
  unfold startMove
  grind [State.memoryWf, tilePlaces_memoryWf, State.causeOnce_memoryWf, State.updArcade_memoryWf]

theorem finishMove_memoryWf {c src ev} (h : s.memoryWf) : (finishMove s c src ev).memoryWf := by
  unfold finishMove
  grind [State.memoryWf, List.foldl_memoryWf, List.foldl_fst_memoryWf, → Except.exists_of_bind, Except.pure_eq, Except.throw_eq,
    Option.getD_memoryWf, → Except.ok_of_toOption, tilePlaces_memoryWf, → writeWord_memoryWf, → translateFor_memoryWf,
    translateFor_keepsForm, freeGranules_memoryWf]

theorem runTaken_memoryWf {c ev} (h : s.memoryWf) : (runTaken s c ev).memoryWf := by
  unfold runTaken
  grind [State.memoryWf, resumeTask_memoryWf, setHunt_memoryWf]

theorem execStealReply_memoryWf {thief t} (h : s.memoryWf) (e : execStealReply thief s = .next t) : t.memoryWf := by
  unfold execStealReply at e
  grind [State.memoryWf, probeNext_memoryWf, setHunt_memoryWf, giveBack_memoryWf, acquireCaches_memoryWf, runTaken_memoryWf,
    → allocTiles_memoryWf, startMove_memoryWf, updHunt_memoryWf]

theorem execTileMoveComplete_memoryWf {thief t} (h : s.memoryWf) (e : execTileMoveComplete thief s = .next t) : t.memoryWf := by
  unfold execTileMoveComplete at e
  grind [State.memoryWf, State.cause_memoryWf, finishMove_memoryWf, runTaken_memoryWf, giveBack_memoryWf, setHunt_memoryWf]

theorem execThiefReoffer_memoryWf {thief t} (h : s.memoryWf) (e : execThiefReoffer thief s = .next t) : t.memoryWf := by
  unfold execThiefReoffer at e
  grind [State.memoryWf, giveBack_memoryWf, setHunt_memoryWf, probeNext_memoryWf]

/-! ### The operations of Machine/Launch.lean -/

theorem readObject_memoryWf {tr c va n t} (ht : Translator.KeepsForm tr) (h : s.memoryWf) (e : readObject tr c s va n = .ok t) :
    t.1.memoryWf := by
  unfold readObject at e
  grind [State.memoryWf, → Except.exists_of_bind, Except.pure_eq, Except.throw_eq, → readSpan_memoryWf, Translator.KeepsForm]

theorem readArray_memoryWf {tr c va size n t} (ht : Translator.KeepsForm tr) (h : s.memoryWf) (e : readArray tr c s va size n = .ok t) :
    t.1.memoryWf := by
  refine List.foldlM_fst_memoryWf (fun p x q hp ep => ?_) (p := (s, _)) h e
  obtain ⟨u, eu, ep⟩ := Except.exists_of_bind ep
  cases ep
  exact readObject_memoryWf ht hp eu

theorem readSections_memoryWf {tr c im k size l t} (ht : Translator.KeepsForm tr) (h : s.memoryWf) (e : readSections tr c s im k size l
    = .ok t) : t.1.memoryWf := by
  refine List.foldlM_fst_memoryWf (fun p x q hp ep => ?_) (p := (s, _)) h e
  obtain ⟨u, eu, ep⟩ := Except.exists_of_bind ep
  cases ep
  exact readArray_memoryWf (t := u) ht hp eu

theorem readNdo_memoryWf {tr c image t} (ht : Translator.KeepsForm tr) (h : s.memoryWf) (e : readNdo tr c s image = .ok t) :
    t.1.memoryWf := by
  unfold readNdo at e
  grind [State.memoryWf, → Except.exists_of_bind, Except.pure_eq, Except.throw_eq, → Except.exists_of_map, → readObject_memoryWf,
    → readArray_memoryWf, → readSections_memoryWf, Translator.KeepsForm]

theorem readRcb_memoryWf {pkg p} (h : s.memoryWf) : (readRcb s pkg p).1.memoryWf := by
  unfold readRcb
  grind [State.memoryWf, List.foldl_memoryWf, List.foldl_fst_memoryWf, devRead_memoryWf]

theorem writeRcb_memoryWf {pkg p i x} (h : s.memoryWf) : (writeRcb s pkg p i x).memoryWf := by
  unfold writeRcb
  grind [State.memoryWf, devWrite_memoryWf]

theorem failLaunch_memoryWf {pkg p old code} (h : s.memoryWf) : (failLaunch s pkg p old code).memoryWf := by
  unfold failLaunch
  grind [State.memoryWf, writeRcb_memoryWf]

theorem admitRegion_memoryWf {pkg rcb d p} (h : s.memoryWf) : (admitRegion s pkg rcb d p).1.memoryWf := by
  have h0 : (readRcb s pkg p).1.memoryWf := readRcb_memoryWf h
  unfold admitRegion
  dsimp only
  split
  · exact failLaunch_memoryWf h0
  · have h1 {l : List Nat} {f : State → Nat → Prop} [∀ t i, Decidable (f t i)] {g : Nat → Nat} : (l.foldl (fun t i => if f t i then t
      else writeRcb t pkg p i (g i)) (readRcb s pkg p).1).memoryWf :=
      List.foldl_memoryWf (fun t i ht => by split <;> [exact ht; exact writeRcb_memoryWf ht]) _ h0
    split
    · exact failLaunch_memoryWf h0
    · split
      · exact failLaunch_memoryWf h0
      · split
        · exact failLaunch_memoryWf h0
        · rename_i en _
          exact putRegionState_memoryWf (State.updPkg_memoryWf (readNdo_memoryWf regionTranslator_keepsForm h1 en))

theorem bindRegion_memoryWf {pkg r} (h : s.memoryWf) : (bindRegion s pkg r).memoryWf := by
  unfold bindRegion
  grind [State.memoryWf, List.foldl_memoryWf, List.foldl_fst_memoryWf, bindContext_memoryWf, leaveDeque_memoryWf, State.updCtx_memoryWf,
    writeRcb_memoryWf, State.updPkg_memoryWf, State.cause_memoryWf, updRegionState_memoryWf]

theorem askContexts_memoryWf {pkg r} (h : s.memoryWf) : (askContexts s pkg r).memoryWf := by
  unfold askContexts
  grind [State.memoryWf, List.foldl_memoryWf, List.foldl_fst_memoryWf, State.cause_memoryWf]

theorem examineOne_memoryWf {pkg r} {p : State × List Nat} (h : p.1.memoryWf) : (examineOne pkg p r).1.memoryWf := by
  unfold examineOne; grind [bindRegion_memoryWf, askContexts_memoryWf]

theorem examineWaitlist_memoryWf {pkg} (h : s.memoryWf) : (examineWaitlist s pkg).memoryWf := by
  unfold examineWaitlist
  grind [State.memoryWf, List.foldl_memoryWf, List.foldl_fst_memoryWf, examineOne_memoryWf]

theorem execWaitlistExamine_memoryWf {pkg t} (h : s.memoryWf) (e : execWaitlistExamine pkg s = .next t) : t.memoryWf := by
  unfold execWaitlistExamine at e
  grind [State.memoryWf, examineWaitlist_memoryWf]

theorem loadText_memoryWf {pkg r x q} (h : s.memoryWf) : (loadText s pkg r x q).memoryWf := by
  unfold loadText
  grind [State.memoryWf, List.foldl_memoryWf, List.foldl_fst_memoryWf, → Except.exists_of_bind, Except.pure_eq, Except.throw_eq,
    → Except.exists_of_map, Option.getD_memoryWf, → regionTranslator_memoryWf, regionTranslator_keepsForm, → readSpan_memoryWf,
    State.updStall_memoryWf]

theorem execImageLoaded_memoryWf {pkg rcb t} (h : s.memoryWf) (e : execImageLoaded pkg rcb s = .next t) : t.memoryWf := by
  unfold execImageLoaded at e
  grind [State.memoryWf, → Except.exists_of_bind, Except.pure_eq, Except.throw_eq, → readNdo_memoryWf, → regionTranslator_memoryWf,
    regionTranslator_keepsForm, State.updRegion_memoryWf, loadText_memoryWf, State.cause_memoryWf]

theorem rootFrames_memoryWf {pkg r ranks t} (h : s.memoryWf) (e : rootFrames s pkg r ranks = some t) : t.1.memoryWf := by
  refine List.foldlM_option_fst_memoryWf (fun p x q hp eq => ?_) (p := (s, _)) h e
  split at eq
  · cases eq
    exact allocFrame_memoryWf regionTranslator_keepsForm hp ‹_›
  · cases eq

theorem startRoot_memoryWf {pkg r x rank c f} (h : s.memoryWf) : (startRoot s pkg r x rank c f).memoryWf := by
  unfold startRoot
  grind [State.memoryWf, → Except.exists_of_bind, Except.pure_eq, Except.throw_eq, Option.getD_memoryWf, → Except.ok_of_toOption,
    → regionTranslator_memoryWf, regionTranslator_keepsForm, newTag_memoryWf, → writeSpan_memoryWf, → writeWord_memoryWf,
    State.updCtx_memoryWf, State.putG_memoryWf, acquireCaches_memoryWf, enter_memoryWf]

theorem execRootRelease_memoryWf {pkg rcb t} (h : s.memoryWf) (e : execRootRelease pkg rcb s = .next t) : t.memoryWf := by
  unfold execRootRelease at e
  dsimp only at e
  (repeat' split at e) <;> cases e
  · exact h
  · exact h
  · exact State.cause_memoryWf h
  · exact State.cause_memoryWf h
  · rename_i e1 _ _ _ e2
    refine List.foldl_memoryWf (fun _ _ ht => ?_) _ (updRegionState_memoryWf (List.foldl_memoryWf (fun _ _ ht => ?_) _
      (rootFrames_memoryWf (readNdo_memoryWf regionTranslator_keepsForm h e1) e2)))
    all_goals split
    · exact State.cause_memoryWf ht
    · exact ht
    · exact startRoot_memoryWf ht
    · exact ht

theorem makeSignal_memoryWf {tr c adr val op t} (ht : Translator.KeepsForm tr) (h : s.memoryWf) (e : makeSignal tr c s adr val op = some
    t) : t.memoryWf := by
  unfold makeSignal at e
  grind [State.memoryWf, → Except.exists_of_bind, Except.pure_eq, Except.throw_eq, writeHallReg_memoryWf, devWrite_memoryWf,
    devRead_memoryWf, Translator.KeepsForm]

theorem signalRegion_memoryWf {pkg r} (h : s.memoryWf) : (signalRegion s pkg r).memoryWf := by
  unfold signalRegion
  grind [State.memoryWf, → Except.exists_of_bind, Except.pure_eq, Except.throw_eq, → makeSignal_memoryWf, → regionTranslator_memoryWf,
    regionTranslator_keepsForm, State.updPkg_memoryWf]

theorem endRelease_memoryWf {c sc} (h : s.memoryWf) : (endRelease s c sc).memoryWf := by
  unfold endRelease
  grind [State.memoryWf, State.updCtx_memoryWf, releaseNow_memoryWf]

theorem wakeWaiter_memoryWf {c x word sc} (h : s.memoryWf) : (wakeWaiter s c x word sc).memoryWf := by
  unfold wakeWaiter
  grind [State.memoryWf, wake_memoryWf, State.updCtx_memoryWf, acquireCaches_memoryWf, State.writeG_memoryWf]

theorem wakeWaiters_memoryWf {pkg pa word sc} (h : s.memoryWf) : (wakeWaiters s pkg pa word sc).memoryWf := by
  unfold wakeWaiters
  grind [State.memoryWf, List.foldl_memoryWf, List.foldl_fst_memoryWf, wakeWaiter_memoryWf]

theorem dismissContext_memoryWf {rcb c} (h : s.memoryWf) : (dismissContext s rcb c).memoryWf := by
  unfold dismissContext
  grind [State.memoryWf, freePair_memoryWf, unbindContext_memoryWf, clearRequests_memoryWf, noteFreed_memoryWf, State.cause_memoryWf]

theorem forgetRegion_memoryWf {pkg rcb} (h : s.memoryWf) : (forgetRegion s pkg rcb).memoryWf := by
  unfold forgetRegion
  grind [State.memoryWf, List.foldl_memoryWf, List.foldl_fst_memoryWf, Option.getD_memoryWf, releaseFrame_memoryWf,
    State.updArcade_memoryWf, freeGranules_memoryWf, State.updPkg_memoryWf]

theorem completeCounter_memoryWf {pa code} (h : s.memoryWf) : (completeCounter s pa code).memoryWf := by
  unfold completeCounter
  grind [State.memoryWf, bankOp_memoryWf]

theorem beginEnd_memoryWf {pkg r} (h : s.memoryWf) : (beginEnd s pkg r).memoryWf := by
  unfold beginEnd
  grind [State.memoryWf, List.foldl_memoryWf, List.foldl_fst_memoryWf, dismissContext_memoryWf, putRegionState_memoryWf,
    endRelease_memoryWf, State.updRegion_memoryWf]

theorem closeEnd_memoryWf {pkg r code} (h : s.memoryWf) : (closeEnd s pkg r code).memoryWf := by
  unfold closeEnd
  grind [State.memoryWf, completeCounter_memoryWf, signalRegion_memoryWf, wakeWaiters_memoryWf, State.cause_memoryWf,
    forgetRegion_memoryWf]

theorem finishEnd_memoryWf {pkg r code} (h : s.memoryWf) : (finishEnd s pkg r code).memoryWf := by
  unfold finishEnd
  grind [State.memoryWf, closeEnd_memoryWf, State.cause_memoryWf, State.causeOnce_memoryWf]

theorem execRegionEnd_memoryWf {pkg rcb t} (h : s.memoryWf) (e : execRegionEnd pkg rcb s = .next t) : t.memoryWf := by
  unfold execRegionEnd at e
  grind [State.memoryWf, List.foldl_memoryWf, List.foldl_fst_memoryWf, Option.getD_memoryWf, finishEnd_memoryWf, drain_memoryWf,
    beginEnd_memoryWf, State.cause_memoryWf, askHost_memoryWf]

theorem locateRcb_memoryWf {writes va t} (h : s.memoryWf) (e : locateRcb s writes va = .ok t) : t.1.memoryWf := by
  unfold locateRcb at e
  grind [State.memoryWf, → Except.exists_of_bind, Except.pure_eq, Except.throw_eq, → checkSpan_memoryWf, → translate_memoryWf,
    translate_keepsForm]

theorem countLaunch_memoryWf {pa t} (h : s.memoryWf) (e : countLaunch s pa = .ok t) : t.memoryWf := by
  unfold countLaunch at e
  grind [State.memoryWf, → Except.exists_of_bind, Except.pure_eq, Except.throw_eq, → Except.exists_of_map, → contextOp_memoryWf]

theorem execRlaunch_memoryWf {a t} (h : s.memoryWf) (e : execRlaunch a s = .next t) : t.memoryWf := by
  refine finish_memoryWf h (fun u eu => ?_) e
  obtain ⟨_, -, eu⟩ := Except.exists_of_bind eu
  obtain ⟨⟨s1, p⟩, e1, eu⟩ := Except.exists_of_bind eu
  have h1 := locateRcb_memoryWf h e1
  clear e e1
  dsimp only at eu
  revert eu
  generalize hJ : (fun (x : State × Nat) => _ : State × Nat → Except Stop State) = launchOn
  intro eu
  have launch {q} (hq : q.1.memoryWf) (ej : launchOn q = .ok u) : u.memoryWf := by
    subst hJ
    refine withQuietRelease_memoryWf (fun v w hv ew => ?_) hq ej
    split at ew
    · cases ew
      exact State.complete_memoryWf hv
    · split at ew
      all_goals
        rename_i eq
        have h2 := State.memoryWf_of_fst eq (admitRegion_memoryWf (writeRcb_memoryWf (writeRcb_memoryWf (writeRcb_memoryWf hv))))
      · cases ew
        exact State.complete_memoryWf h2
      · obtain ⟨x, ex, ew⟩ := Except.exists_of_bind ew
        cases ew
        exact State.complete_memoryWf (examineWaitlist_memoryWf (countLaunch_memoryWf h2 ex))
  split at eu
  · exact launch (q := (s1, 0)) h1 eu
  · obtain ⟨q, eq, eu⟩ := Except.exists_of_bind eu
    exact launch (locateCounter_memoryWf translate_keepsForm h1 eq) eu

theorem readState_memoryWf {p} (h : s.memoryWf) : (readState s p).1.memoryWf := by
  unfold readState
  grind [State.memoryWf, devRead_memoryWf]

theorem execRwait_memoryWf {a t} (h : s.memoryWf) (e : execRwait a s = .next t) : t.memoryWf := by
  unfold execRwait at e
  grind [State.memoryWf, → Except.exists_of_bind, Except.pure_eq, Except.throw_eq, finish_memoryWf, → locateRcb_memoryWf,
    → settle_memoryWf, readState_memoryWf, State.complete_memoryWf, acquireCaches_memoryWf, block_memoryWf]

theorem execRquery_memoryWf {a t} (h : s.memoryWf) (e : execRquery a s = .next t) : t.memoryWf := by
  unfold execRquery at e
  grind [State.memoryWf, → Except.exists_of_bind, Except.pure_eq, Except.throw_eq, finish_memoryWf, → locateRcb_memoryWf,
    → settle_memoryWf, readState_memoryWf, State.complete_memoryWf]

theorem gangRelease_memoryWf {r d o rest t} (hr : ∀ u t, u.memoryWf → rest u = .ok t → t.memoryWf) (h : s.memoryWf) (e : gangRelease s r
    d o rest = .ok t) : t.memoryWf := by
  unfold gangRelease at e; grind [→ Except.exists_of_bind, Except.pure_eq, Except.throw_eq, releaseThen_memoryWf, coverFor_memoryWf]

theorem reachGang_memoryWf {r t} (h : s.memoryWf) (e : reachGang s r = .ok t) : t.memoryWf := by
  unfold reachGang at e
  grind [State.memoryWf, → Except.exists_of_bind, Except.pure_eq, Except.throw_eq, → visit_memoryWf]

theorem arrive_memoryWf {pkg rcb} (h : s.memoryWf) : (arrive s pkg rcb).memoryWf := by
  unfold arrive
  grind [State.memoryWf, State.next_memoryWf, State.updRegion_memoryWf]

theorem acquireWait_memoryWf {c acq} (h : s.memoryWf) : (acquireWait s c acq).memoryWf := by
  unfold acquireWait
  grind [State.memoryWf, acquireCaches_memoryWf]

theorem endBarrierWait_memoryWf {c x value acq} (h : s.memoryWf) : (endBarrierWait s c x value acq).memoryWf := by
  unfold endBarrierWait
  grind [State.memoryWf, acquireWait_memoryWf, State.writeG_memoryWf, wake_memoryWf, State.updCtx_memoryWf]

theorem wakeFrom_memoryWf {ak c x value acq} (h : s.memoryWf) : (wakeFrom s ak c x value acq).memoryWf := by
  unfold wakeFrom
  grind [State.memoryWf, endBarrierWait_memoryWf, State.updCtx_memoryWf, sendTo_memoryWf]

theorem arriveWake_memoryWf {c} (h : s.memoryWf) : (arriveWake s c).memoryWf := by
  unfold arriveWake
  grind [State.memoryWf, endBarrierWait_memoryWf]

theorem wakeEvicted_memoryWf {ak hit} (h : s.memoryWf) : (wakeEvicted s ak hit).memoryWf := by
  unfold wakeEvicted
  grind [State.memoryWf, List.foldl_memoryWf, List.foldl_fst_memoryWf, State.updStall_memoryWf, sendTo_memoryWf]

theorem arriveReady_memoryWf {ak tag} (h : s.memoryWf) : (arriveReady s ak tag).memoryWf := by
  unfold arriveReady
  grind [State.memoryWf, List.foldl_memoryWf, List.foldl_fst_memoryWf, State.updStall_memoryWf]

theorem awaitGang_memoryWf {pkg rcb phase acq} (h : s.memoryWf) : (awaitGang s pkg rcb phase acq).memoryWf := by
  unfold awaitGang
  grind [State.memoryWf, Option.getD_memoryWf, block_memoryWf, State.advance_memoryWf, acquireWait_memoryWf]

theorem execGbar_memoryWf {a t} (h : s.memoryWf) (e : execGbar a s = .next t) : t.memoryWf := by
  unfold execGbar at e
  grind [State.memoryWf, → Except.exists_of_bind, Except.pure_eq, Except.throw_eq, finish_memoryWf, → gangRelease_memoryWf,
    → reachGang_memoryWf, awaitGang_memoryWf, arrive_memoryWf]

theorem execGbara_memoryWf {a t} (h : s.memoryWf) (e : execGbara a s = .next t) : t.memoryWf := by
  unfold execGbara at e
  grind [State.memoryWf, → Except.exists_of_bind, Except.pure_eq, Except.throw_eq, finish_memoryWf, → gangRelease_memoryWf,
    → reachGang_memoryWf, State.complete_memoryWf, arrive_memoryWf]

theorem execGbarw_memoryWf {a t} (h : s.memoryWf) (e : execGbarw a s = .next t) : t.memoryWf := by
  unfold execGbarw at e
  grind [State.memoryWf, → Except.exists_of_bind, Except.pure_eq, Except.throw_eq, finish_memoryWf, awaitGang_memoryWf]

theorem execGrank_memoryWf {a t} (h : s.memoryWf) (e : execGrank a s = .next t) : t.memoryWf := by
  unfold execGrank at e
  grind [State.memoryWf, → Except.exists_of_bind, Except.pure_eq, Except.throw_eq, finish_memoryWf, State.complete_memoryWf]

theorem execGsize_memoryWf {a t} (h : s.memoryWf) (e : execGsize a s = .next t) : t.memoryWf := by
  unfold execGsize at e
  grind [State.memoryWf, → Except.exists_of_bind, Except.pure_eq, Except.throw_eq, finish_memoryWf, State.complete_memoryWf]

theorem execGangBarrierWake_memoryWf {pkg rcb t} (h : s.memoryWf) (e : execGangBarrierWake pkg rcb s = .next t) : t.memoryWf := by
  unfold execGangBarrierWake at e
  grind [State.memoryWf, List.foldl_memoryWf, List.foldl_fst_memoryWf, wakeFrom_memoryWf, wakeEvicted_memoryWf]

/-! ### The operations of Machine/Crier.lean -/

theorem State.updQueue_memoryWf {pkg q f} (h : s.memoryWf) : (State.updQueue s pkg q f).memoryWf := by
  unfold State.updQueue
  grind [State.memoryWf, State.updPkg_memoryWf]

theorem setQueueWord_memoryWf {pkg q i x} (h : s.memoryWf) : (setQueueWord s pkg q i x).memoryWf := by
  unfold setQueueWord
  grind [State.memoryWf, devWrite_memoryWf]

theorem queueTranslator_memoryWf {v pkg a__internal_hyg0 a__internal_hyg0' t} (h : s.memoryWf) (e : queueTranslator v pkg s
    a__internal_hyg0 a__internal_hyg0' = .ok t) : t.1.memoryWf := by
  unfold queueTranslator at e
  grind [State.memoryWf, → Except.exists_of_bind, Except.pure_eq, Except.throw_eq, → translateAs_memoryWf]

theorem queueTranslator_keepsForm {v pkg} : Translator.KeepsForm (queueTranslator v pkg) :=
  fun _ _ _ _ h e => queueTranslator_memoryWf h e

theorem haltQueue_memoryWf {pkg q err} (h : s.memoryWf) : (haltQueue s pkg q err).memoryWf := by
  unfold haltQueue
  grind [State.memoryWf, State.updPkg_memoryWf, State.updQueue_memoryWf, setQueueWord_memoryWf]

theorem proceed_memoryWf {pkg q} (h : s.memoryWf) : (proceed s pkg q).memoryWf := by
  unfold proceed
  grind [State.memoryWf, haltQueue_memoryWf, State.causeOnce_memoryWf]

theorem finishPacket_memoryWf {pkg q} (h : s.memoryWf) : (finishPacket s pkg q).memoryWf := by
  unfold finishPacket
  grind [State.memoryWf, State.updQueue_memoryWf, proceed_memoryWf, setQueueWord_memoryWf]

theorem onPacket_memoryWf {p q k ev f t} (hf : ∀ v l, (f v l).memoryWf) (h : s.memoryWf) (e : onPacket s p q k ev f = .next t) :
    t.memoryWf := by
  unfold onPacket at e; grind [haltQueue_memoryWf, proceed_memoryWf, State.causeOnce_memoryWf]

theorem execNopPacket_memoryWf {pkg queue t} (h : s.memoryWf) (e : execNopPacket pkg queue s = .next t) : t.memoryWf := by
  unfold execNopPacket at e
  grind [State.memoryWf, onPacket_memoryWf, finishPacket_memoryWf]

theorem execBarrier_memoryWf {pkg queue t} (h : s.memoryWf) (e : execBarrier pkg queue s = .next t) : t.memoryWf := by
  unfold execBarrier at e
  grind [State.memoryWf, onPacket_memoryWf, finishPacket_memoryWf]

theorem execBadpkt_memoryWf {pkg queue t} (h : s.memoryWf) (e : execBadpkt pkg queue s = .next t) : t.memoryWf := by
  unfold execBadpkt at e
  grind [State.memoryWf, onPacket_memoryWf, haltQueue_memoryWf]

theorem execSignal_memoryWf {pkg queue t} (h : s.memoryWf) (e : execSignal pkg queue s = .next t) : t.memoryWf := by
  unfold execSignal at e
  grind [State.memoryWf, → Except.exists_of_bind, Except.pure_eq, Except.throw_eq, onPacket_memoryWf, → makeSignal_memoryWf,
    → queueTranslator_memoryWf, queueTranslator_keepsForm, finishPacket_memoryWf, haltQueue_memoryWf]

theorem execWait_memoryWf {pkg queue t} (h : s.memoryWf) (e : execWait pkg queue s = .next t) : t.memoryWf := by
  unfold execWait at e
  grind [State.memoryWf, → Except.exists_of_bind, Except.pure_eq, Except.throw_eq, onPacket_memoryWf, haltQueue_memoryWf,
    → readObject_memoryWf, → queueTranslator_memoryWf, queueTranslator_keepsForm, finishPacket_memoryWf, State.causeOnce_memoryWf]

theorem execIndirect_memoryWf {pkg queue t} (h : s.memoryWf) (e : execIndirect pkg queue s = .next t) : t.memoryWf := by
  unfold execIndirect at e
  grind [State.memoryWf, onPacket_memoryWf, haltQueue_memoryWf, proceed_memoryWf, State.updQueue_memoryWf]

theorem execLink_memoryWf {p q t} (h : s.memoryWf) (e : execLink p q s = .next t) : t.memoryWf := by
  refine onPacket_memoryWf (fun v w => ?_) h e
  dsimp only
  split
  · exact haltQueue_memoryWf h
  split
  · exact haltQueue_memoryWf h
  split
  · exact State.causeOnce_memoryWf h
  split
  · exact haltQueue_memoryWf h
  · rename_i em
    have hm := makeSignal_memoryWf queueTranslator_keepsForm h em
    exact finishPacket_memoryWf (setQueueWord_memoryWf (setQueueWord_memoryWf (setQueueWord_memoryWf (setQueueWord_memoryWf hm))))

theorem refuseLaunch_memoryWf {pkg rcb p} (h : s.memoryWf) : (refuseLaunch s pkg rcb p).memoryWf := by
  unfold refuseLaunch
  grind [State.memoryWf, readRcb_memoryWf, signalRegion_memoryWf]

theorem offerLaunch_memoryWf {pkg q v w} (h : s.memoryWf) : (offerLaunch s pkg q v w).memoryWf := by
  unfold offerLaunch
  grind [State.memoryWf, → Except.exists_of_bind, Except.pure_eq, Except.throw_eq, → queueTranslator_memoryWf,
    queueTranslator_keepsForm, → checkSpan_memoryWf, haltQueue_memoryWf, writeRcb_memoryWf, readRcb_memoryWf, finishPacket_memoryWf,
    refuseLaunch_memoryWf, failLaunch_memoryWf, admitRegion_memoryWf, State.cause_memoryWf, State.updQueue_memoryWf]

theorem execLaunch_memoryWf {pkg queue t} (h : s.memoryWf) (e : execLaunch pkg queue s = .next t) : t.memoryWf := by
  unfold execLaunch at e
  grind [State.memoryWf, onPacket_memoryWf, State.causeOnce_memoryWf, offerLaunch_memoryWf]

theorem execDistributorSelect_memoryWf {pkg t} (h : s.memoryWf) (e : execDistributorSelect pkg s = .next t) : t.memoryWf := by
  unfold execDistributorSelect at e
  grind [State.memoryWf, List.foldl_memoryWf, List.foldl_fst_memoryWf, State.causeOnce_memoryWf, State.next_memoryWf,
    State.updPkg_memoryWf]

theorem execDoorbell_memoryWf {pkg queue wpos t} (h : s.memoryWf) (e : execDoorbell pkg queue wpos s = .next t) : t.memoryWf := by
  unfold execDoorbell at e
  grind [State.memoryWf, proceed_memoryWf, State.updQueue_memoryWf, setQueueWord_memoryWf]

theorem execQueueRestart_memoryWf {pkg queue t} (h : s.memoryWf) (e : execQueueRestart pkg queue s = .next t) : t.memoryWf := by
  unfold execQueueRestart at e
  grind [State.memoryWf, setQueueWord_memoryWf, proceed_memoryWf, State.updQueue_memoryWf]

/-! ### The operations of Machine/Death.lean -/

theorem updDeath_memoryWf {c f} (h : s.memoryWf) : (updDeath s c f).memoryWf := by
  unfold updDeath
  grind [State.memoryWf, State.updCtx_memoryWf]

theorem fileRecord_memoryWf {c d} (h : s.memoryWf) : (fileRecord s c d).memoryWf := by
  unfold fileRecord
  extract_lets tr ring drop go
  have hd : drop.memoryWf := by
    unfold drop
    split
    · rename_i er
      have hr := readWord_memoryWf translateFor_keepsForm h er
      exact Option.getD_memoryWf (fun _ ho => writeWord_memoryWf translateFor_keepsForm hr (Except.ok_of_toOption ho)) h
    · exact h
  have hg : ∀ u, go = .ok u → u.memoryWf := fun u eg => by
    obtain ⟨⟨s1, head⟩, e1, eg⟩ := Except.exists_of_bind eg
    obtain ⟨⟨s2, tail⟩, e2, eg⟩ := Except.exists_of_bind eg
    obtain ⟨⟨s3, cap⟩, e3, eg⟩ := Except.exists_of_bind eg
    obtain ⟨s4, e4, eg⟩ := Except.exists_of_bind (Except.ok_of_guard eg)
    obtain ⟨s5, e5, eg⟩ := Except.exists_of_bind eg
    exact writeWord_memoryWf translateFor_keepsForm (writeSpan_memoryWf translateFor_keepsForm (checkSpan_memoryWf translateFor_keepsForm
      (readWord_memoryWf translateFor_keepsForm (readWord_memoryWf translateFor_keepsForm (readWord_memoryWf translateFor_keepsForm h
        e1) e2) e3) e4) e5) eg
  clear_value go drop
  split
  · exact hg _ rfl
  · exact hd

theorem purgeContext_memoryWf {c} (h : s.memoryWf) : (purgeContext s c).memoryWf := by
  unfold purgeContext
  grind [State.memoryWf, State.updCtx_memoryWf, goIdle_memoryWf, updDeath_memoryWf, State.beginDeath_memoryWf]

theorem emptyQueue_memoryWf {pkg r} (h : s.memoryWf) : (emptyQueue s pkg r).memoryWf := by
  unfold emptyQueue
  grind [State.memoryWf, → Except.exists_of_bind, Except.pure_eq, Except.throw_eq, Option.getD_memoryWf, → Except.ok_of_toOption,
    → regionTranslator_memoryWf, regionTranslator_keepsForm, → readQueue_memoryWf, → writeWord_memoryWf]

theorem discardQueued_memoryWf {pkg r} (h : s.memoryWf) : (discardQueued s pkg r).memoryWf := by
  unfold discardQueued
  grind [State.memoryWf, emptyQueue_memoryWf]

theorem discardHeld_memoryWf {pkg rcb} (h : s.memoryWf) : (discardHeld s pkg rcb).memoryWf := by
  unfold discardHeld
  grind [State.memoryWf]

theorem purgeOne_memoryWf {pkg r} (h : s.memoryWf) : (purgeOne pkg s r).memoryWf := by
  unfold purgeOne
  grind [State.memoryWf, List.foldl_memoryWf, List.foldl_fst_memoryWf, updRegionState_memoryWf, purgeContext_memoryWf,
    discardHeld_memoryWf, discardQueued_memoryWf, State.cause_memoryWf]

theorem purgeRegion_memoryWf {p r} (h : s.memoryWf) : (purgeRegion s p r).memoryWf :=
  List.foldl_memoryWf (fun _ _ ht => purgeOne_memoryWf ht) _ h

theorem takeDown_memoryWf {c} (h : s.memoryWf) : (takeDown s c).memoryWf := by
  unfold takeDown
  grind [State.memoryWf, List.foldl_memoryWf, List.foldl_fst_memoryWf, updDeath_memoryWf, State.updCtx_memoryWf,
    discardWaiting_memoryWf, dropVisits_memoryWf]

theorem endDeath_memoryWf {c} (h : s.memoryWf) : (endDeath s c).memoryWf := by
  unfold endDeath
  grind [State.memoryWf, taskOver_memoryWf, reportLosses_memoryWf, State.updCtx_memoryWf]

theorem buried_memoryWf {c} (h : s.memoryWf) : (buried s c).memoryWf := by
  unfold buried
  grind [State.memoryWf, goIdle_memoryWf, endDeath_memoryWf]

theorem purgeTask_memoryWf {c} (h : s.memoryWf) : (purgeTask s c).memoryWf := by
  unfold purgeTask
  grind [State.memoryWf, freePair_memoryWf, discardTag_memoryWf, freeTaskGranules_memoryWf, reportLosses_memoryWf, releaseNow_memoryWf]

theorem atDeath_memoryWf {c va f t} (hf : ∀ u pa t, u.memoryWf → f u pa = .ok t → t.memoryWf) (h : s.memoryWf) (e : atDeath s c va f =
    .ok t) : t.memoryWf := by
  unfold atDeath at e
  split at e
  · cases e; exact h
  · exact hf _ _ _ (locateCounter_memoryWf translateFor_keepsForm h ‹_›) e

theorem markOwn_memoryWf {c t} (h : s.memoryWf) (e : markOwn s c = .ok t) : t.memoryWf := by
  unfold markOwn at e
  grind [State.memoryWf, → Except.exists_of_bind, Except.pure_eq, Except.throw_eq, → Except.exists_of_map, updDeath_memoryWf,
    → atDeath_memoryWf, → eventOp_memoryWf, releaseByCounter_memoryWf]

theorem casualtyAtTail_memoryWf {c t} (h : s.memoryWf) (e : casualtyAtTail s c = .ok t) : t.memoryWf := by
  unfold casualtyAtTail at e
  grind [State.memoryWf, → Except.exists_of_bind, Except.pure_eq, Except.throw_eq, → atDeath_memoryWf, → eventOp_memoryWf]

theorem notifyParent_memoryWf {c t} (h : s.memoryWf) (e : notifyParent s c = .ok t) : t.memoryWf := by
  unfold notifyParent at e
  extract_lets v at e
  split at e
  · obtain ⟨s1, e1, e⟩ := Except.exists_of_bind e
    cases e
    exact resumeTask_memoryWf (State.updCtx_memoryWf (endDeath_memoryWf (casualtyAtTail_memoryWf h e1)))
  split at e
  · cases e
    split
    · exact State.causeOnce_memoryWf (askHost_memoryWf (drain_memoryWf h))
    split
    · exact State.causeOnce_memoryWf (releaseNow_memoryWf h)
    · exact buried_memoryWf (sendCounterOp_memoryWf (releaseNow_memoryWf h))
  split at e
  · cases e
    exact buried_memoryWf h
  · rename_i el
    obtain ⟨s2, e2, e⟩ := Except.exists_of_bind e
    have h2 := atCounter_memoryWf (releaseNow_memoryWf (locateCounter_memoryWf translateFor_keepsForm h el)) e2
    have e := Except.ok_of_guard e
    dsimp only at e
    split at e
    all_goals
      rename_i eq
      have h3 := State.memoryWf_of_fst eq (counterOp_memoryWf h2)
      rw [← Except.ok.inj e]
    · exact takeResume_memoryWf (endDeath_memoryWf h3)
    · exact buried_memoryWf (releaseByCounter_memoryWf h3)
    · exact buried_memoryWf (purgeRegion_memoryWf h3)
    · exact buried_memoryWf h3

theorem closeDeath_memoryWf {c} (h : s.memoryWf) : (closeDeath s c).memoryWf := by
  unfold closeDeath
  grind [State.memoryWf, → Except.exists_of_bind, Except.pure_eq, Except.throw_eq, buried_memoryWf, dropVisits_memoryWf,
    finishEvent_memoryWf, → markOwn_memoryWf, → notifyParent_memoryWf]

theorem dieOn_memoryWf {c d} (h : s.memoryWf) : (dieOn s c d).memoryWf := by
  unfold dieOn
  grind [State.memoryWf, List.foldl_memoryWf, List.foldl_fst_memoryWf, Option.getD_memoryWf, closeDeath_memoryWf, takeDown_memoryWf,
    State.causeOnce_memoryWf, purgeTask_memoryWf, buried_memoryWf, fileRecord_memoryWf, rootOver_memoryWf, purgeRegion_memoryWf,
    updDeath_memoryWf]

theorem execTaskDeath_memoryWf {ctx t} (h : s.memoryWf) (e : execTaskDeath ctx s = .next t) : t.memoryWf := by
  unfold execTaskDeath at e
  grind [State.memoryWf, dieOn_memoryWf]

theorem execPurge_memoryWf {a t} (h : s.memoryWf) (e : execPurge a s = .next t) : t.memoryWf := by
  unfold execPurge at e
  grind [State.memoryWf, → Except.exists_of_bind, Except.pure_eq, Except.throw_eq, finish_memoryWf, State.complete_memoryWf,
    State.beginDeath_memoryWf]

/-! ### The operations of Machine/Preempt.lean -/

theorem requestContext_memoryWf {c source deadline slid} (h : s.memoryWf) : (requestContext s c source deadline slid).memoryWf := by
  unfold requestContext
  grind [State.memoryWf, freeContext_memoryWf, State.updCtx_memoryWf, State.causeOnce_memoryWf]

theorem execPreemptionRequest_memoryWf {ctx source deadline t} (h : s.memoryWf) (e : execPreemptionRequest ctx source deadline s = .next
    t) : t.memoryWf := by
  unfold execPreemptionRequest at e
  grind [State.memoryWf, requestContext_memoryWf]

theorem execPreemptDeadline_memoryWf {ctx t} (h : s.memoryWf) (e : execPreemptDeadline ctx s = .next t) : t.memoryWf := by
  unfold execPreemptDeadline at e
  grind [State.memoryWf, State.causeOnce_memoryWf, State.updCtx_memoryWf]

theorem entryTranslator_memoryWf {k w a__internal_hyg0 a__internal_hyg0' t} (h : s.memoryWf) (e : entryTranslator k w s a__internal_hyg0
    a__internal_hyg0' = .ok t) : t.1.memoryWf := by
  unfold entryTranslator at e
  grind [State.memoryWf, → Except.exists_of_bind, Except.pure_eq, Except.throw_eq, → translateAs_memoryWf]

theorem entryTranslator_keepsForm {k w} : Translator.KeepsForm (entryTranslator k w) :=
  fun _ _ _ _ h e => entryTranslator_memoryWf h e

theorem putSlot_memoryWf {k w slot n x} (h : s.memoryWf) : (putSlot s k w slot n x).memoryWf := by
  unfold putSlot
  grind [State.memoryWf, → Except.exists_of_bind, Except.pure_eq, Except.throw_eq, Option.getD_memoryWf, → Except.ok_of_toOption,
    → writeWord_memoryWf, → entryTranslator_memoryWf, entryTranslator_keepsForm]

theorem replyToSlots_memoryWf {k w d bs} (h : s.memoryWf) : (replyToSlots s k w d bs).memoryWf := by
  unfold replyToSlots
  grind [State.memoryWf, → Except.exists_of_bind, Except.pure_eq, Except.throw_eq, → Except.exists_of_map, putSlot_memoryWf,
    setTemplate_memoryWf, → readWord_memoryWf, → entryTranslator_memoryWf, entryTranslator_keepsForm]

theorem flagsToFrame_memoryWf {k w f} (h : s.memoryWf) : (flagsToFrame s k w f).memoryWf := by
  unfold flagsToFrame
  grind [State.memoryWf, → Except.exists_of_bind, Except.pure_eq, Except.throw_eq, → readWord_memoryWf, → entryTranslator_memoryWf,
    entryTranslator_keepsForm, putSlot_memoryWf]

theorem saveAndFree_memoryWf {c kind ev t} (h : s.memoryWf) (e : saveAndFree s c kind ev = .ok t) : t.memoryWf := by
  unfold saveAndFree at e
  dsimp only at e
  revert e
  generalize hJ : (fun (x : State × List Byte) => _ : State × List Byte → Except Stop State) = saveOn
  intro e
  have save {q} (hq : q.1.memoryWf) (ej : saveOn q = .ok t) : t.memoryWf := by
    subst hJ
    obtain ⟨s1, e1, ej⟩ := Except.exists_of_bind ej
    have h1 := saveRegs_memoryWf translateFor_keepsForm hq e1
    clear e1 e
    have tail {s2 s3 s4 : State} {a b f m n} (h2 : s2.memoryWf)
        (e3 : writeSpan (translateFor c) c (devAcc true false) s2 a b = .ok s3)
        (e4 : writeHeader (translateFor c) c false s3 f m n = .ok s4) : s4.memoryWf :=
      writeHeader_memoryWf translateFor_keepsForm (writeSpan_memoryWf translateFor_keepsForm h2 e3) e4
    split at ej
    all_goals
      obtain ⟨s2, e2, ej⟩ := Except.exists_of_bind ej
      obtain ⟨s3, e3, ej⟩ := Except.exists_of_bind ej
      obtain ⟨s4, e4, ej⟩ := Except.exists_of_bind ej
      rw [← Except.ok.inj ej]
      refine goIdle_memoryWf ?_
    · refine freePair_memoryWf (State.updStall_memoryWf ?_)
      have h4 := tail (savePair_memoryWf translateFor_keepsForm h1 e2) e3 e4
      split
      · exact replyToSlots_memoryWf h4
      · exact h4
    · refine State.updStall_memoryWf ?_
      have h4 := tail (writeSpan_memoryWf translateFor_keepsForm h1 e2) e3 e4
      split
      · exact replyToSlots_memoryWf h4
      · exact h4
  clear hJ
  split at e
  · obtain ⟨q, eq, e⟩ := Except.exists_of_bind e
    exact save (q := (q.1, q.2.1)) (readSpan_memoryWf translateFor_keepsForm h eq) e
  · exact save (q := (s, [])) h e

theorem evictAgain_memoryWf {c es} (h : s.memoryWf) : (evictAgain s c es).memoryWf := by
  unfold evictAgain
  grind [State.memoryWf, List.foldl_memoryWf, List.foldl_fst_memoryWf, State.causeOnce_memoryWf]

theorem evictTask_memoryWf {c kind} (h : s.memoryWf) : (evictTask s c kind).memoryWf := by
  unfold evictTask
  grind [State.memoryWf, → Except.exists_of_bind, Except.pure_eq, Except.throw_eq, Option.getD_memoryWf, saveEntry_memoryWf,
    State.trap_memoryWf, wake_memoryWf, evictAgain_memoryWf, drain_memoryWf, askHost_memoryWf, releaseNow_memoryWf,
    → saveAndFree_memoryWf]

theorem execEvict_memoryWf {ctx t} (h : s.memoryWf) (e : execEvict ctx s = .next t) : t.memoryWf := by
  unfold execEvict at e
  grind [State.memoryWf, wake_memoryWf, State.updCtx_memoryWf, evictTask_memoryWf, freeContext_memoryWf]

theorem completeWait_memoryWf {c w} (h : s.memoryWf) : (completeWait s c w).memoryWf := by
  unfold completeWait
  grind [State.memoryWf, State.putG_memoryWf]

theorem restoreTrailer_memoryWf {c va t} (h : s.memoryWf) (e : restoreTrailer s c va = .ok t) : t.memoryWf := by
  unfold restoreTrailer at e
  grind [State.memoryWf, → Except.exists_of_bind, Except.pure_eq, Except.throw_eq, → readWord_memoryWf, → translateFor_memoryWf,
    translateFor_keepsForm, State.updCtx_memoryWf]

theorem trailerAt_memoryWf {c rpc f t} (h : s.memoryWf) (e : trailerAt s c rpc f = .ok t) : t.1.memoryWf := by
  unfold trailerAt at e
  grind [State.memoryWf, → Except.exists_of_bind, Except.pure_eq, Except.throw_eq, Option.getD_memoryWf, → findLive_memoryWf,
    → translateFor_memoryWf, translateFor_keepsForm]

theorem lossOf_memoryWf {c w rpc q} (h : s.memoryWf) : (lossOf s c w rpc q).memoryWf := by
  unfold lossOf
  grind [State.memoryWf, State.trap_memoryWf, State.updCtx_memoryWf]

theorem resumeEntry_memoryWf {c w} (h : s.memoryWf) : (resumeEntry s c w).memoryWf := by
  unfold resumeEntry
  grind [State.memoryWf, → Except.exists_of_bind, Except.pure_eq, Except.throw_eq, dieAsync_memoryWf, enter_memoryWf,
    → readHeader_memoryWf, → translateFor_memoryWf, translateFor_keepsForm, State.updCtx_memoryWf, → trailerAt_memoryWf,
    → restoreTrailer_memoryWf, → restoreArea_memoryWf, lossOf_memoryWf, acquireWait_memoryWf, completeWait_memoryWf]

theorem execResumeEvicted_memoryWf {ctx t} (h : s.memoryWf) (e : execResumeEvicted ctx s = .next t) : t.memoryWf := by
  unfold execResumeEvicted at e
  grind [State.memoryWf, List.foldl_memoryWf, List.foldl_fst_memoryWf, State.updStall_memoryWf, resumeEntry_memoryWf,
    State.causeOnce_memoryWf]

/-! ### The operations of Machine/Barrow.lean -/

theorem recallRange_memoryWf {key pa n} (h : s.memoryWf) : (recallRange s key pa n).memoryWf := by
  unfold recallRange
  grind [State.memoryWf, List.foldl_memoryWf, List.foldl_fst_memoryWf, recallHall_memoryWf]

theorem agentRead_memoryWf {key pa n} (h : s.memoryWf) : (agentRead s key pa n).1.memoryWf := by
  unfold agentRead
  grind [State.memoryWf, recallRange_memoryWf]

theorem agentWrite_memoryWf {key pa bs} (h : s.memoryWf) : (agentWrite s key pa bs).memoryWf := by
  unfold agentWrite
  grind [State.memoryWf, List.foldl_memoryWf, List.foldl_fst_memoryWf, writeHallRegBytes_memoryWf, writeHome_memoryWf,
    recallRange_memoryWf]

theorem acceptDonation_memoryWf {y q} (h : s.memoryWf) : (acceptDonation s y q).1.memoryWf := by
  unfold acceptDonation
  grind [State.memoryWf, State.updPkg_memoryWf, agentWrite_memoryWf]

theorem execDonreq_memoryWf {pkg request t} (h : s.memoryWf) (e : execDonreq pkg request s = .next t) : t.memoryWf := by
  unfold execDonreq at e
  grind [State.memoryWf, acceptDonation_memoryWf]

theorem sendDonation_memoryWf {x va size y t} (h : s.memoryWf) (e : sendDonation s x va size y = .ok t) : t.memoryWf := by
  unfold sendDonation at e
  grind [State.memoryWf, → Except.exists_of_bind, Except.pure_eq, Except.throw_eq, → Except.exists_of_map, → settle_memoryWf,
    → locateCounter_memoryWf, → translate_memoryWf, translate_keepsForm, → readSpan_memoryWf, → contextOp_memoryWf,
    acceptDonation_memoryWf, State.cause_memoryWf, block_memoryWf, sendMessage_memoryWf]

theorem execDonate_memoryWf {a t} (h : s.memoryWf) (e : execDonate a s = .next t) : t.memoryWf := by
  refine finish_memoryWf h (fun u eu => ?_) e
  obtain ⟨_, -, eu⟩ := Except.exists_of_bind eu
  obtain ⟨_, -, eu⟩ := Except.exists_of_bind eu
  obtain ⟨_, -, eu⟩ := Except.exists_of_bind eu
  obtain ⟨_, -, eu⟩ := Except.exists_of_bind (Except.ok_of_guard (Except.ok_of_guard eu))
  obtain ⟨s1, e1, eu⟩ := Except.exists_of_bind eu
  have h1 := checkSpan_memoryWf translate_keepsForm h e1
  split at eu
  · exact releaseThen_memoryWf (fun _ _ hu => sendDonation_memoryWf hu) h1 eu
  · exact sendDonation_memoryWf h1 eu

theorem barrowEntry_memoryWf {y} (h : s.memoryWf) : (barrowEntry s y).1.memoryWf := by
  unfold barrowEntry
  grind [State.memoryWf, agentRead_memoryWf]

theorem formDonated_memoryWf {c r q f t} (h : s.memoryWf) (e : formDonated s c r q f = .ok t) : t.1.memoryWf := by
  unfold formDonated at e
  grind [State.memoryWf, → Except.exists_of_bind, Except.pure_eq, Except.throw_eq, newTag_memoryWf, → writeSpan_memoryWf,
    → translateFor_memoryWf, translateFor_keepsForm]

theorem startDonated_memoryWf {c r q f t} (h : s.memoryWf) (e : startDonated s c r q f = .ok t) : t.memoryWf := by
  unfold startDonated at e
  grind [State.memoryWf, → Except.exists_of_bind, Except.pure_eq, Except.throw_eq, → formDonated_memoryWf, State.updCtx_memoryWf,
    setHunt_memoryWf, State.putG_memoryWf, enter_memoryWf, countTask_memoryWf, acquireCaches_memoryWf]

theorem queueDonated_memoryWf {c hk r q f t} (h : s.memoryWf) (e : queueDonated s c hk r q f = .ok t) : t.memoryWf := by
  unfold queueDonated at e
  grind [State.memoryWf, → Except.exists_of_bind, Except.pure_eq, Except.throw_eq, → formDonated_memoryWf, State.updRegion_memoryWf,
    giveBack_memoryWf, setHunt_memoryWf]

theorem finishTake_memoryWf {thief hk q f} (h : s.memoryWf) : (finishTake s thief hk q f).memoryWf := by
  unfold finishTake
  grind [State.memoryWf, → Except.exists_of_bind, Except.pure_eq, Except.throw_eq, setHunt_memoryWf, releaseFrame_memoryWf,
    → startDonated_memoryWf, → queueDonated_memoryWf]

theorem execBarrowTake_memoryWf {th t} (h : s.memoryWf) (e : execBarrowTake th s = .next t) : t.memoryWf := by
  unfold execBarrowTake at e
  dsimp only at e
  (repeat' split at e) <;> cases e <;> grind [setHunt_memoryWf, probeNext_memoryWf, finishTake_memoryWf, barrowEntry_memoryWf,
      → allocFrame_memoryWf, translateFor_keepsForm, State.updPkg_memoryWf, State.cause_memoryWf]

theorem execRemoteCounterOp_memoryWf {counter dead t} (h : s.memoryWf) (e : execRemoteCounterOp counter dead s = .next t) : t.memoryWf
    := by
  unfold execRemoteCounterOp at e
  grind [State.memoryWf, State.cause_memoryWf, counterOp_memoryWf, State.updPkg_memoryWf, settleCounter_memoryWf]

/-! ### The operations of Machine/Privileged.lean -/

theorem execCtxsave_memoryWf {a t} (h : s.memoryWf) (e : execCtxsave a s = .next t) : t.memoryWf := by
  refine finish_memoryWf h (fun u eu => ?_) e
  obtain ⟨_, -, eu⟩ := Except.exists_of_bind eu
  obtain ⟨_, -, eu⟩ := Except.exists_of_bind eu
  obtain ⟨_, -, eu⟩ := Except.exists_of_bind eu
  obtain ⟨s1, e1, eu⟩ := Except.exists_of_bind (Except.ok_of_guard eu)
  obtain ⟨s2, e2, eu⟩ := Except.exists_of_bind eu
  have h2 := settle_memoryWf (checkSpan_memoryWf translate_keepsForm h e1) e2
  clear e1 e2 e
  grind [→ Except.exists_of_bind, Except.pure_eq, → saveRegs_memoryWf, → savePair_memoryWf, → readWord_memoryWf, → writeWord_memoryWf,
      State.advance_memoryWf, translate_keepsForm]

theorem loadHeldPair_memoryWf {va t} (h : s.memoryWf) (e : loadHeldPair s va = .ok t) : t.memoryWf := by
  unfold loadHeldPair at e
  grind [State.memoryWf, → Except.exists_of_bind, Except.pure_eq, Except.throw_eq, → Except.exists_of_map, State.advance_memoryWf,
    → loadPair_memoryWf, → translate_memoryWf, translate_keepsForm, block_memoryWf]

theorem execCtxload_memoryWf {a t} (h : s.memoryWf) (e : execCtxload a s = .next t) : t.memoryWf := by
  refine finish_memoryWf h (fun u eu => ?_) e
  obtain ⟨_, -, eu⟩ := Except.exists_of_bind eu
  obtain ⟨_, -, eu⟩ := Except.exists_of_bind eu
  obtain ⟨s1, e1, eu⟩ := Except.exists_of_bind (Except.ok_of_guard eu)
  obtain ⟨⟨s2, hd⟩, e2, eu⟩ := Except.exists_of_bind eu
  have h2 := readHeader_memoryWf translate_keepsForm (settle_memoryWf h e1) e2
  clear e1 e2 e
  dsimp only at eu
  split at eu
  · cases eu
    exact State.advance_memoryWf h2
  split at eu
  · cases eu
    exact dieAsync_memoryWf h2
  · cases eu
  · rename_i s3 _ ef
    have h3 : s3.memoryWf := by
      split at ef
      · cases ef
        exact h2
      · exact findLive_memoryWf translateFor_keepsForm h2 ef
    clear ef
    grind [→ Except.exists_of_bind, Except.pure_eq, → checkSpan_memoryWf, translate_keepsForm, → restoreRegs_memoryWf,
        → loadHeldPair_memoryWf, State.advance_memoryWf]

theorem dropTlb_memoryWf {f k} (h : s.memoryWf) : (dropTlb f s k).memoryWf := by
  unfold dropTlb
  grind [State.memoryWf, List.foldl_memoryWf, List.foldl_fst_memoryWf, State.updCtx_memoryWf, State.updStall_memoryWf]

theorem execTlbinv_memoryWf {a t} (h : s.memoryWf) (e : execTlbinv a s = .next t) : t.memoryWf := by
  unfold execTlbinv at e
  grind [State.memoryWf, List.foldl_memoryWf, List.foldl_fst_memoryWf, → Except.exists_of_bind, Except.pure_eq, Except.throw_eq,
    finish_memoryWf, → settle_memoryWf, State.advance_memoryWf, dropTlb_memoryWf]

theorem repartContext_memoryWf {n c} (h : s.memoryWf) : (repartContext n s c).memoryWf := by
  unfold repartContext
  grind [State.memoryWf, State.updCtx_memoryWf]

theorem execRepart_memoryWf {a t} (h : s.memoryWf) (e : execRepart a s = .next t) : t.memoryWf := by
  unfold execRepart at e
  grind [State.memoryWf, List.foldl_memoryWf, List.foldl_fst_memoryWf, → Except.exists_of_bind, Except.pure_eq, Except.throw_eq,
    finish_memoryWf, State.updStall_memoryWf, repartContext_memoryWf, State.advance_memoryWf, regate_memoryWf]

/-! ### The operations of Machine/Carter.lean -/

theorem putObject_memoryWf {pa o r1 r2} (h : s.memoryWf) : (putObject s pa o r1 r2).memoryWf := by
  unfold putObject
  grind [State.memoryWf, putBytes_memoryWf]

theorem phaseDone_memoryWf {pa phase} (h : s.memoryWf) : (phaseDone s pa phase).memoryWf := by
  unfold phaseDone
  grind [State.memoryWf, State.updArcade_memoryWf, State.next_memoryWf, State.cause_memoryWf]

theorem arriveAt_memoryWf {pa b a} (h : s.memoryWf) : (arriveAt s pa b a).1.memoryWf := by
  unfold arriveAt
  grind [State.memoryWf, putObject_memoryWf, phaseDone_memoryWf]

theorem wakeObject_memoryWf {pa c} (h : s.memoryWf) : (wakeObject s pa c).memoryWf := by
  unfold wakeObject
  grind [State.memoryWf, wakeFrom_memoryWf]

theorem execBarrierWake_memoryWf {object t} (h : s.memoryWf) (e : execBarrierWake object s = .next t) : t.memoryWf := by
  unfold execBarrierWake at e
  grind [State.memoryWf, List.foldl_memoryWf, List.foldl_fst_memoryWf, wakeObject_memoryWf, wakeEvicted_memoryWf]

theorem locateObject_memoryWf {a writes t} (h : s.memoryWf) (e : locateObject s a writes = .ok t) : t.1.memoryWf := by
  unfold locateObject at e
  grind [State.memoryWf, → Except.exists_of_bind, Except.pure_eq, Except.throw_eq, → translate_memoryWf, translate_keepsForm,
    → settle_memoryWf]

theorem atBank_memoryWf {pa t} (h : s.memoryWf) (e : atBank s pa = .ok t) : t.memoryWf := by
  unfold atBank at e
  grind [State.memoryWf, → Except.exists_of_bind, Except.pure_eq, Except.throw_eq, → visit_memoryWf]

theorem execBinit_memoryWf {a t} (h : s.memoryWf) (e : execBinit a s = .next t) : t.memoryWf := by
  unfold execBinit at e
  grind [State.memoryWf, → Except.exists_of_bind, Except.pure_eq, Except.throw_eq, finish_memoryWf, → locateObject_memoryWf,
    → coverFor_memoryWf, → atBank_memoryWf, State.advance_memoryWf, putObject_memoryWf]

theorem execBarr_memoryWf {a t} (h : s.memoryWf) (e : execBarr a s = .next t) : t.memoryWf := by
  unfold execBarr at e
  grind [State.memoryWf, → Except.exists_of_bind, Except.pure_eq, Except.throw_eq, finish_memoryWf, → locateObject_memoryWf,
    → atBank_memoryWf, arriveAt_memoryWf, State.complete_memoryWf, → releaseThen_memoryWf, → coverFor_memoryWf]

theorem execBwait_memoryWf {a t} (h : s.memoryWf) (e : execBwait a s = .next t) : t.memoryWf := by
  unfold execBwait at e
  grind [State.memoryWf, → Except.exists_of_bind, Except.pure_eq, Except.throw_eq, finish_memoryWf, → locateObject_memoryWf,
    → coverFor_memoryWf, → atBank_memoryWf, block_memoryWf, State.complete_memoryWf, acquireWait_memoryWf]

theorem execBexp_memoryWf {a t} (h : s.memoryWf) (e : execBexp a s = .next t) : t.memoryWf := by
  unfold execBexp at e
  grind [State.memoryWf, → Except.exists_of_bind, Except.pure_eq, Except.throw_eq, finish_memoryWf, → locateObject_memoryWf,
    → coverFor_memoryWf, → atBank_memoryWf, State.complete_memoryWf, putObject_memoryWf]

theorem execBtest_memoryWf {a t} (h : s.memoryWf) (e : execBtest a s = .next t) : t.memoryWf := by
  unfold execBtest at e
  grind [State.memoryWf, → Except.exists_of_bind, Except.pure_eq, Except.throw_eq, finish_memoryWf, → locateObject_memoryWf,
    → coverFor_memoryWf, → atBank_memoryWf, State.complete_memoryWf, acquireOf_memoryWf]

theorem execCtset_memoryWf {a t} (h : s.memoryWf) (e : execCtset a s = .next t) : t.memoryWf := by
  unfold execCtset at e
  grind [State.memoryWf, → Except.exists_of_bind, Except.pure_eq, Except.throw_eq, finish_memoryWf, → translate_memoryWf,
    translate_keepsForm, → startLoad_memoryWf]

theorem locateAperture_memoryWf {a t} (h : s.memoryWf) (e : locateAperture s a = .ok t) : t.1.memoryWf := by
  obtain ⟨_, -, e⟩ := Except.exists_of_bind e
  obtain ⟨_, -, e⟩ := Except.exists_of_bind e
  obtain ⟨_, -, e⟩ := Except.exists_of_bind e
  obtain ⟨l, el, e⟩ := Except.exists_of_bind (Except.ok_of_guard e)
  have hl := translate_memoryWf h (Except.ok_of_mapError el)
  obtain ⟨s1, l⟩ := l
  dsimp only at e
  split at e
  · have e := Except.ok_of_guard e
    cases e
    exact hl
  · cases e

theorem copyPages_memoryWf {c w l t} (h : s.memoryWf) (e : copyPages s c w l = some t) : t.1.memoryWf := by
  refine List.foldlM_option_fst_memoryWf (fun p x q hp ep => ?_) (p := (s, _)) h e
  grind [→ translateNow_memoryWf]

theorem copyBarrier_memoryWf {c ak x t} (h : s.memoryWf) (e : copyBarrier s c ak x = some t) : t.1.memoryWf := by
  unfold copyBarrier at e
  grind [State.memoryWf, → Except.exists_of_bind, Except.pure_eq, Except.throw_eq, → translateNow_memoryWf]

theorem takeLine_memoryWf {ak ev} (h : s.memoryWf) : (takeLine ak s ev).memoryWf := by
  unfold takeLine
  grind [State.memoryWf, dropArcade_memoryWf, recallHall_memoryWf]

def Offer.memoryWf : Offer → Prop
  | .accepted s _ => s.memoryWf
  | _ => True

theorem Offer.memoryWf_dite {p : Prop} [Decidable p] {x y : Offer} (hx : x.memoryWf) (hy : y.memoryWf) : (if p then x else y).memoryWf := by
  split <;> assumption

theorem offerCopy_memoryWf {ak ch x} (h : s.memoryWf) : (offerCopy s ak ch x).memoryWf := by
  unfold offerCopy
  induction leNat (homeBytes s 0 (scratchBase ak + templateOff (x % 1024)) 64) using forall_elim_induction with | mk n
  refine Offer.memoryWf_dite trivial (Offer.memoryWf_dite trivial ?_)
  split
  · trivial
  rename_i s1 _ e1
  have h1 : s1.memoryWf := copyBarrier_memoryWf h e1
  clear e1
  induction (if (templateOf n).total = 0 then [] else (templateOf n).rows) using forall_elim_induction with | mk rows
  refine Offer.memoryWf_dite trivial ?_
  split
  · trivial
  rename_i s2 _ e2
  have h2 : s2.memoryWf := copyPages_memoryWf h1 e2
  clear e2
  split
  · trivial
  rename_i s3 _ e3
  have h3 : s3.memoryWf := copyPages_memoryWf h2 e3
  clear e3
  dsimp only
  split
  · trivial
  exact Offer.memoryWf_dite trivial (State.causeOnce_memoryWf (State.updArcade_memoryWf (List.foldl_memoryWf (fun _ _ ht =>
      takeLine_memoryWf ht) _ h3)))

theorem Offer.memoryWf_of_accepted {o u n} (h : Offer.memoryWf o) (e : o = .accepted u n) : u.memoryWf := by
  rw [e] at h
  exact h

theorem execCopy_memoryWf {a t} (h : s.memoryWf) (e : execCopy a s = .next t) : t.memoryWf := by
  refine finish_memoryWf h (fun u eu => ?_) e
  obtain ⟨⟨s1, ak, ch, va⟩, ep, eu⟩ := Except.exists_of_bind eu
  have hp := locateAperture_memoryWf h ep
  obtain ⟨_, -, eu⟩ := Except.exists_of_bind eu
  have act {v w : State} (hv : v.memoryWf) (ea : (match offerCopy v ak ch (v.g a.x).toNat with
      | .refused x => (.ok (reply v (.value a.x) (leBytes 8 (BitVec.ofInt 64 x : Word).toNat) false 0) : Except Stop State)
      | .held x y => .error (.held x y)
      | .accepted z id => .ok (reply z (.value a.x) (leBytes 8 (w64 id).toNat) false 0)) = .ok w) : w.memoryWf := by
    split at ea
    · cases ea
      exact reply_memoryWf hv
    · cases ea
    · rename_i ez
      cases ea
      exact reply_memoryWf (Offer.memoryWf_of_accepted (offerCopy_memoryWf hv) ez)
  dsimp only at eu
  split at eu
  · exact releaseThen_memoryWf (fun _ _ hu => act hu) hp eu
  · exact act hp eu

theorem carterRead_memoryWf {ak c p n} (h : s.memoryWf) : (carterRead s ak c p n).1.memoryWf := by
  unfold carterRead
  grind [State.memoryWf, arcadeRead_memoryWf]

theorem beatSource_memoryWf {ak j va n} (h : s.memoryWf) : (beatSource s ak j va n).1.memoryWf := by
  unfold beatSource
  grind [State.memoryWf, List.foldl_memoryWf, List.foldl_fst_memoryWf, carterRead_memoryWf]

theorem returnLine_memoryWf {ak j key line p} (h : s.memoryWf) : (returnLine s ak j key line p).1.memoryWf := by
  unfold returnLine
  grind [State.memoryWf, List.foldl_memoryWf, List.foldl_fst_memoryWf, hallWrite_memoryWf, writeBackL2_memoryWf, wakeLine_memoryWf,
    dropArcade_memoryWf]

theorem moveBeat_memoryWf {ak j} (h : s.memoryWf) : (moveBeat s ak j).1.memoryWf := by
  unfold moveBeat
  grind [State.memoryWf, beatSource_memoryWf, returnLine_memoryWf, writeHome_memoryWf]

theorem moveTileBeat_memoryWf {ak} (h : s.memoryWf) : (moveTileBeat s ak).memoryWf := by
  unfold moveTileBeat
  grind [State.memoryWf, State.cause_memoryWf, State.updArcade_memoryWf, sendTo_memoryWf]

theorem arriveTile_memoryWf {dst last bs} (h : s.memoryWf) : (arriveTile s dst last bs).memoryWf := by
  unfold arriveTile
  grind [State.memoryWf, State.cause_memoryWf, putBytes_memoryWf]

theorem channelBeat_memoryWf {ak ch} (h : s.memoryWf) : (channelBeat s ak ch).memoryWf := by
  unfold channelBeat
  grind [State.memoryWf, moveBeat_memoryWf, State.updArcade_memoryWf, State.causeOnce_memoryWf]

theorem execCarterBeat_memoryWf {arcade t} (h : s.memoryWf) (e : execCarterBeat arcade s = .next t) : t.memoryWf := by
  unfold execCarterBeat at e
  grind [State.memoryWf, State.updArcade_memoryWf, moveTileBeat_memoryWf, channelBeat_memoryWf, State.causeOnce_memoryWf]

theorem wakeChannel_memoryWf {key} (h : s.memoryWf) : (wakeChannel s key).memoryWf := by
  unfold wakeChannel
  grind [State.memoryWf, List.foldl_memoryWf, List.foldl_fst_memoryWf, wakeFrom_memoryWf, wakeEvicted_memoryWf]

theorem setLast_memoryWf {ak ch x} (h : s.memoryWf) : (setLast s ak ch x).memoryWf := by
  unfold setLast
  grind [State.memoryWf, State.updArcade_memoryWf]

theorem arriveFor_memoryWf {pa bytes arrs ak ch} (h : s.memoryWf) : (arriveFor s pa bytes arrs ak ch).1.memoryWf := by
  unfold arriveFor
  grind [State.memoryWf, arriveAt_memoryWf, setLast_memoryWf]

theorem transferArrives_memoryWf {ak ch j} (h : s.memoryWf) : (transferArrives s ak ch j).1.memoryWf := by
  unfold transferArrives
  grind [State.memoryWf, arriveFor_memoryWf, sendTo_memoryWf]

theorem transferFollows_memoryWf {ak ch j phase complete} (h : s.memoryWf) : (transferFollows s ak ch j phase complete).memoryWf := by
  unfold transferFollows
  grind [State.memoryWf, Option.getD_memoryWf, State.cause_memoryWf, State.updArcade_memoryWf, setLast_memoryWf]

theorem execTransferComplete_memoryWf {arcade channel t} (h : s.memoryWf) (e : execTransferComplete arcade channel s = .next t) :
    t.memoryWf := by
  unfold execTransferComplete at e
  grind [State.memoryWf, State.cause_memoryWf, State.updArcade_memoryWf, transferArrives_memoryWf, transferFollows_memoryWf,
    wakeSlots_memoryWf, wakeChannel_memoryWf, State.causeOnce_memoryWf]

theorem execCwm_memoryWf {a t} (h : s.memoryWf) (e : execCwm a s = .next t) : t.memoryWf := by
  unfold execCwm at e
  grind [State.memoryWf, → Except.exists_of_bind, Except.pure_eq, Except.throw_eq, finish_memoryWf, → locateAperture_memoryWf,
    State.updArcade_memoryWf, State.complete_memoryWf, acquireOf_memoryWf]

theorem execCwait_memoryWf {a t} (h : s.memoryWf) (e : execCwait a s = .next t) : t.memoryWf := by
  refine finish_memoryWf h (fun u eu => ?_) e
  obtain ⟨p, ep, eu⟩ := Except.exists_of_bind eu
  have hp := locateAperture_memoryWf h ep
  dsimp only at eu
  split at eu
  · cases eu
    exact State.complete_memoryWf (acquireWait_memoryWf hp)
  · cases eu
    exact block_memoryWf hp

theorem followCommand_memoryWf {ak f t} (h : s.memoryWf) (e : followCommand s ak f = some t) : t.1.memoryWf := by
  unfold followCommand at e
  revert e
  induction leNat (homeBytes s 0 (scratchBase ak + f.foff) 48) using forall_elim_induction with | mk n
  intro e
  dsimp only at e
  split at e
  · cases e
  split at e
  · cases e
  rename_i c _
  have hc : ∀ p, checkMma (translateFor c) false s c (bitsOf (bitsOf n 319 256) 4 3) (bitsOf (bitsOf n 319 256) 2 2)
      (tileOf (BitVec.ofNat 128 n)) (tileOf (BitVec.ofNat 128 (n / 2 ^ 128))) (s.ctx c).sclp = .ok p → p.1.memoryWf :=
    fun p => checkMma_memoryWf translateFor_keepsForm h
  revert hc e
  induction checkMma _ _ _ _ _ _ _ _ _ using forall_elim_induction with | mk r
  intro e hc
  rcases r with y | ⟨u, l⟩
  · cases e
  · cases e
    exact hc _ rfl

theorem checkFollow_memoryWf {ak} (h : s.memoryWf) : (checkFollow s ak).memoryWf := by
  unfold checkFollow
  split
  · exact h
  · dsimp only
    split
    all_goals split
    · exact setLast_memoryWf (State.updArcade_memoryWf h)
    · exact State.updArcade_memoryWf (followCommand_memoryWf (State.updArcade_memoryWf h) ‹_›)
    · exact State.causeOnce_memoryWf (setLast_memoryWf (State.updArcade_memoryWf h))
    · exact State.causeOnce_memoryWf (State.updArcade_memoryWf (followCommand_memoryWf (State.updArcade_memoryWf h) ‹_›))

theorem acceptPassed_memoryWf {ak l} (h : s.memoryWf) : (acceptPassed ak l s).memoryWf := by
  induction l generalizing s with
  | nil => exact h
  | cons x r ih => rw [acceptPassed]; grind [→ settled_memoryWf, State.causeOnce_memoryWf, enterQueue_memoryWf, State.updArcade_memoryWf]

theorem execFollowOnHandoff_memoryWf {arcade t} (h : s.memoryWf) (e : execFollowOnHandoff arcade s = .next t) : t.memoryWf := by
  unfold execFollowOnHandoff at e
  grind [State.memoryWf, State.causeOnce_memoryWf, checkFollow_memoryWf, acceptPassed_memoryWf]

theorem pinLines_memoryWf {hall ps} (h : s.memoryWf) : (pinLines s hall ps).1.memoryWf := by
  unfold pinLines
  grind [State.memoryWf, List.foldl_memoryWf, List.foldl_fst_memoryWf, fetchL2_memoryWf]

theorem checkPin_memoryWf {x t} (h : s.memoryWf) (e : checkPin s x = .ok t) : t.1.memoryWf := by
  unfold checkPin at e
  grind [State.memoryWf, → Except.exists_of_bind, Except.pure_eq, Except.throw_eq, → checkTiles_memoryWf, → translate_memoryWf,
    translate_keepsForm]

theorem execTfpin_memoryWf {a t} (h : s.memoryWf) (e : execTfpin a s = .next t) : t.memoryWf := by
  unfold execTfpin at e
  grind [State.memoryWf, → Except.exists_of_bind, Except.pure_eq, Except.throw_eq, → Except.exists_of_map, finish_memoryWf,
    → checkPin_memoryWf, pinLines_memoryWf, State.advance_memoryWf, State.updArcade_memoryWf]

theorem execTfrel_memoryWf {a t} (h : s.memoryWf) (e : execTfrel a s = .next t) : t.memoryWf := by
  unfold execTfrel at e
  grind [State.memoryWf, → Except.exists_of_bind, Except.pure_eq, Except.throw_eq, → Except.exists_of_map, finish_memoryWf,
    State.advance_memoryWf, State.updArcade_memoryWf]

/-! ### The operations of Machine/Control.lean -/

theorem State.link_memoryWf (h : s.memoryWf) : (State.link s).memoryWf := by
  unfold State.link
  grind [State.memoryWf, State.writeG_memoryWf]

theorem runBranch_memoryWf {taken a t} (h : s.memoryWf) (e : runBranch taken a s = .next t) : t.memoryWf := by
  unfold runBranch at e
  grind [State.memoryWf, → Except.exists_of_bind, Except.pure_eq, Except.throw_eq, finish_memoryWf, State.goto_memoryWf,
    State.advance_memoryWf]

theorem execJ_memoryWf {a t} (h : s.memoryWf) (e : execJ a s = .next t) : t.memoryWf := by
  unfold execJ at e
  grind [State.memoryWf, → Except.exists_of_bind, Except.pure_eq, Except.throw_eq, finish_memoryWf, State.goto_memoryWf]

theorem execCall_memoryWf {a t} (h : s.memoryWf) (e : execCall a s = .next t) : t.memoryWf := by
  unfold execCall at e
  grind [State.memoryWf, → Except.exists_of_bind, Except.pure_eq, Except.throw_eq, finish_memoryWf, State.goto_memoryWf,
    State.link_memoryWf]

theorem execJr_memoryWf {a t} (h : s.memoryWf) (e : execJr a s = .next t) : t.memoryWf := by
  unfold execJr at e
  grind [State.memoryWf, → Except.exists_of_bind, Except.pure_eq, Except.throw_eq, finish_memoryWf, State.goto_memoryWf]

theorem execCallr_memoryWf {a t} (h : s.memoryWf) (e : execCallr a s = .next t) : t.memoryWf := by
  unfold execCallr at e
  grind [State.memoryWf, → Except.exists_of_bind, Except.pure_eq, Except.throw_eq, finish_memoryWf, State.goto_memoryWf,
    State.link_memoryWf]

theorem execRet_memoryWf {t} (h : s.memoryWf) (e : execRet s = .next t) : t.memoryWf := by
  unfold execRet at e
  grind [State.memoryWf, → Except.exists_of_bind, Except.pure_eq, Except.throw_eq, finish_memoryWf, State.goto_memoryWf]

/-! ### The operations of Machine/Delivery.lean -/

theorem applyEffect_memoryWf {ak m} (h : s.memoryWf) : (applyEffect s ak m).memoryWf := by
  unfold applyEffect
  grind [State.memoryWf, State.next_memoryWf, arriveVisit_memoryWf, arriveReply_memoryWf, arriveWake_memoryWf, arriveFor_memoryWf,
    arriveTile_memoryWf, arriveReady_memoryWf]

theorem execNetworkMessageDelivery_memoryWf {arcade t} (h : s.memoryWf) (e : execNetworkMessageDelivery arcade s = .next t) : t.memoryWf
    := by
  unfold execNetworkMessageDelivery at e
  grind [State.memoryWf, applyEffect_memoryWf, State.updArcade_memoryWf]

/-! ### The operations of Machine/Fabric.lean -/

theorem updCounters_memoryWf {hk f} (h : s.memoryWf) : (updCounters s hk f).memoryWf := by
  unfold updCounters
  grind [State.memoryWf, State.updHall_memoryWf]

theorem setEntry_memoryWf {k w w'} (h : s.memoryWf) : (setEntry s k w w').memoryWf := by
  unfold setEntry
  grind [State.memoryWf, State.updStall_memoryWf]

theorem undoJinc_memoryWf {c pa} (h : s.memoryWf) : (undoJinc s c pa).memoryWf := by
  unfold undoJinc
  grind [State.memoryWf, counterOp_memoryWf, postMessage_memoryWf]

theorem remoteDone_memoryWf {c d bs acq f} (h : s.memoryWf) : (remoteDone s c d bs acq f).memoryWf := by
  unfold remoteDone
  grind [State.memoryWf, wake_memoryWf, State.updCtx_memoryWf, State.raise_memoryWf, acquireAt_memoryWf, writeDest_memoryWf]

theorem arriveAnswer_memoryWf {key seq bs f} (h : s.memoryWf) : (arriveAnswer s key seq bs f).memoryWf := by
  unfold arriveAnswer
  grind [State.memoryWf, remoteDone_memoryWf, undoJinc_memoryWf, State.updCtx_memoryWf, replyToSlots_memoryWf, setEntry_memoryWf,
    flagsToFrame_memoryWf]

theorem undoDonate_memoryWf {c a__internal_hyg0} (h : s.memoryWf) : (undoDonate s c a__internal_hyg0).memoryWf := by
  unfold undoDonate
  grind [State.memoryWf, undoJinc_memoryWf]

theorem loseRequest_memoryWf {key seq} (h : s.memoryWf) : (loseRequest s key seq).memoryWf := by
  unfold loseRequest
  grind [State.memoryWf, State.trap_memoryWf, wake_memoryWf, undoDonate_memoryWf, setEntry_memoryWf]

theorem endPosted_memoryWf {c} (h : s.memoryWf) : (endPosted s c).memoryWf := by
  unfold endPosted
  grind [State.memoryWf, State.updCtx_memoryWf, State.trap_memoryWf]

theorem storeAcked_memoryWf {m} (h : s.memoryWf) : (storeAcked s m).memoryWf := by
  unfold storeAcked
  grind [State.memoryWf, unpost_memoryWf]

theorem storePerformed_memoryWf {m} (h : s.memoryWf) : (storePerformed s m).memoryWf := by
  unfold storePerformed
  grind [State.memoryWf, endPosted_memoryWf]

theorem storeLost_memoryWf {m pkg} (h : s.memoryWf) : (storeLost s m pkg).memoryWf := by
  unfold storeLost
  grind [State.memoryWf, unpost_memoryWf, endPosted_memoryWf, State.updCtx_memoryWf, State.updPkg_memoryWf, updCounters_memoryWf]

theorem refill_memoryWf {n key} (h : s.memoryWf) : (refill n s key).memoryWf := by
  induction n generalizing s with
  | zero => exact h
  | succ n ih => rw [refill]; grind [restick_memoryWf, encodeMessage_memoryWf, State.updStream_memoryWf]

theorem acknowledge_memoryWf {key f} (h : s.memoryWf) : (acknowledge s key f).memoryWf := by
  unfold acknowledge
  grind [State.memoryWf, List.foldl_memoryWf, List.foldl_fst_memoryWf, State.updStream_memoryWf, refill_memoryWf, storeAcked_memoryWf]

theorem execSackReceive_memoryWf {stream base bits t} (h : s.memoryWf) (e : execSackReceive stream base bits s = .next t) : t.memoryWf
    := by
  unfold execSackReceive at e
  grind [State.memoryWf, acknowledge_memoryWf]

theorem execAck_memoryWf {stream seq t} (h : s.memoryWf) (e : execAck stream seq s = .next t) : t.memoryWf := by
  unfold execAck at e
  grind [State.memoryWf, acknowledge_memoryWf]

theorem giveUp_memoryWf {key x} (h : s.memoryWf) : (giveUp s key x).memoryWf := by
  unfold giveUp
  grind [State.memoryWf, updCounters_memoryWf, State.updStream_memoryWf, sendMessage_memoryWf, storeLost_memoryWf, loseRequest_memoryWf,
    refill_memoryWf]

theorem execRetxTimeout_memoryWf {stream seq t} (h : s.memoryWf) (e : execRetxTimeout stream seq s = .next t) : t.memoryWf := by
  unfold execRetxTimeout at e
  grind [State.memoryWf, giveUp_memoryWf, updCounters_memoryWf, State.updStream_memoryWf, State.updPkg_memoryWf, transmit_memoryWf]

theorem afterLoss_memoryWf {p} (h : s.memoryWf) : (afterLoss s p).memoryWf := by
  unfold afterLoss
  extract_lets
  split
  · exact h
  split
  · exact State.causeOnce_memoryWf h
  split
  · exact State.causeOnce_memoryWf h
  · exact State.causeOnce_memoryWf h
  · exact h

theorem removePacket_memoryWf {i} (h : s.memoryWf) : (removePacket s i).memoryWf := by
  unfold removePacket
  grind [State.memoryWf]

theorem countAuthf_memoryWf {pkg q} (h : s.memoryWf) : (countAuthf s pkg q).memoryWf := by
  unfold countAuthf
  grind [State.memoryWf, State.updPort_memoryWf]

theorem delayPacket_memoryWf {i p} (h : s.memoryWf) : (delayPacket s i p).memoryWf := by
  unfold delayPacket
  grind [State.memoryWf, State.cause_memoryWf, removePacket_memoryWf]

theorem dropAtNode_memoryWf {i p} (h : s.memoryWf) : (dropAtNode s i p).memoryWf := by
  unfold dropAtNode
  grind [State.memoryWf, afterLoss_memoryWf, updCounters_memoryWf, removePacket_memoryWf]

theorem hopThrough_memoryWf {i p dir q detour} (h : s.memoryWf) : (hopThrough s i p dir q detour).memoryWf := by
  unfold hopThrough
  grind [State.memoryWf, State.updPort_memoryWf, delayPacket_memoryWf, State.updPkg_memoryWf, afterLoss_memoryWf, removePacket_memoryWf,
    countAuthf_memoryWf, State.cause_memoryWf]

theorem hopInside_memoryWf {i p} (h : s.memoryWf) : (hopInside s i p).memoryWf := by
  unfold hopInside
  grind [State.memoryWf, State.next_memoryWf, State.cause_memoryWf]

theorem execFragmentHop_memoryWf {packet t} (h : s.memoryWf) (e : execFragmentHop packet s = .next t) : t.memoryWf := by
  unfold execFragmentHop at e
  grind [State.memoryWf, hopInside_memoryWf, State.next_memoryWf, dropAtNode_memoryWf, hopThrough_memoryWf]

theorem updSlots_memoryWf {hk f} (h : s.memoryWf) : (updSlots s hk f).memoryWf := by
  unfold updSlots
  grind [State.memoryWf, State.updHall_memoryWf]

theorem addStripe_memoryWf {p bs} (h : s.memoryWf) : (addStripe s p bs).memoryWf := by
  unfold addStripe
  grind [State.memoryWf, State.updStream_memoryWf, State.causeOnce_memoryWf]

theorem addFragment_memoryWf {hk slot p} (h : s.memoryWf) : (addFragment s hk slot p).memoryWf := by
  unfold addFragment
  grind [State.memoryWf, updSlots_memoryWf, updCounters_memoryWf, addStripe_memoryWf]

theorem answerAgain_memoryWf {key a} (h : s.memoryWf) : (answerAgain s key a).memoryWf := by
  unfold answerAgain
  grind [State.memoryWf, agentRead_memoryWf, transmit_memoryWf]

theorem noteRepeat_memoryWf {p} (h : s.memoryWf) : (noteRepeat s p).memoryWf := by
  unfold noteRepeat
  grind [State.memoryWf, Option.getD_memoryWf, answerAgain_memoryWf, State.updStream_memoryWf]

theorem handleFragment_memoryWf {p} (h : s.memoryWf) : (handleFragment s p).memoryWf := by
  unfold handleFragment
  extract_lets hk st count
  have hc {f} : (count s f).memoryWf := updCounters_memoryWf h
  split
  · exact noteRepeat_memoryWf hc
  split
  · exact hc
  split
  · split
    · exact hc
    · exact addFragment_memoryWf h
  · split
    · exact afterLoss_memoryWf hc
    · exact addFragment_memoryWf h

theorem execFragmentArrival_memoryWf {packet t} (h : s.memoryWf) (e : execFragmentArrival packet s = .next t) : t.memoryWf := by
  unfold execFragmentArrival at e
  grind [State.memoryWf, removePacket_memoryWf, afterLoss_memoryWf, countAuthf_memoryWf, handleFragment_memoryWf]

theorem execSlotTimeout_memoryWf {hall slot t} (h : s.memoryWf) (e : execSlotTimeout hall slot s = .next t) : t.memoryWf := by
  unfold execSlotTimeout at e
  grind [State.memoryWf, updCounters_memoryWf, updSlots_memoryWf, State.causeOnce_memoryWf]

theorem settleSeq_memoryWf {key n} (h : s.memoryWf) : (settleSeq s key n).memoryWf := by
  unfold settleSeq
  grind [State.memoryWf, State.updStream_memoryWf, State.causeOnce_memoryWf]

theorem execSack_memoryWf {stream t} (h : s.memoryWf) (e : execSack stream s = .next t) : t.memoryWf := by
  unfold execSack at e
  grind [State.memoryWf, List.foldl_memoryWf, List.foldl_fst_memoryWf, sendMessage_memoryWf, State.updStream_memoryWf]

theorem execSkip_memoryWf {a1 a2} {t} (h : s.memoryWf) (e : (execSkip a1 a2 s) = .next t) : t.memoryWf := by
  cases e
  split
  · exact h
  · exact settleSeq_memoryWf h

theorem sendAnswer_memoryWf {key m body bs} (h : s.memoryWf) : (sendAnswer s key m body bs).memoryWf := by
  unfold sendAnswer
  grind [State.memoryWf, State.updStream_memoryWf, encodeMessage_memoryWf, offerMessage_memoryWf]

theorem sendAck_memoryWf {key m} (h : s.memoryWf) : (sendAck s key m).memoryWf := by
  unfold sendAck
  grind [State.memoryWf, sendAnswer_memoryWf]

theorem maskedWrite_memoryWf {key pa mask bs} (h : s.memoryWf) : (maskedWrite s key pa mask bs).memoryWf := by
  unfold maskedWrite
  grind [State.memoryWf, List.foldl_memoryWf, List.foldl_fst_memoryWf, agentWrite_memoryWf]

theorem remoteAtomic_memoryWf {key pa w operands} (h : s.memoryWf) : (remoteAtomic s key pa w operands).1.memoryWf := by
  unfold remoteAtomic
  grind [State.memoryWf, Option.getD_memoryWf, agentRead_memoryWf, agentWrite_memoryWf]

theorem performAccess_memoryWf {stream m key} (h : s.memoryWf) : (performAccess s stream m key).memoryWf := by
  unfold performAccess
  grind [State.memoryWf, agentRead_memoryWf, sendAnswer_memoryWf, maskedWrite_memoryWf, agentWrite_memoryWf, sendAck_memoryWf,
    storePerformed_memoryWf, remoteAtomic_memoryWf]

theorem performMessage_memoryWf {key m} (h : s.memoryWf) : (performMessage s key m).memoryWf := by
  unfold performMessage
  grind [State.memoryWf, performAccess_memoryWf, sendAck_memoryWf, toInbox_memoryWf, State.next_memoryWf, acceptDonation_memoryWf,
    sendAnswer_memoryWf, arriveAnswer_memoryWf]

theorem execMessagePerform_memoryWf {stream t} (h : s.memoryWf) (e : execMessagePerform stream s = .next t) : t.memoryWf := by
  unfold execMessagePerform at e
  grind [State.memoryWf, Option.getD_memoryWf, State.cause_memoryWf, performMessage_memoryWf, settleSeq_memoryWf,
    State.updStream_memoryWf]

theorem loseInTransit_memoryWf {pkg port} (h : s.memoryWf) : (loseInTransit s pkg port).memoryWf := by
  unfold loseInTransit
  grind [State.memoryWf, afterLoss_memoryWf, removePacket_memoryWf, State.updPort_memoryWf]

theorem execLaneFailure_memoryWf {pkg port lanes t} (h : s.memoryWf) (e : execLaneFailure pkg port lanes s = .next t) : t.memoryWf := by
  unfold execLaneFailure at e
  grind [State.memoryWf, State.updPort_memoryWf, loseInTransit_memoryWf, State.cause_memoryWf]

theorem execRetrainDone_memoryWf {pkg port t} (h : s.memoryWf) (e : execRetrainDone pkg port s = .next t) : t.memoryWf := by
  unfold execRetrainDone at e
  grind [State.memoryWf, State.updPort_memoryWf]

theorem execKeyInstall_memoryWf {pkg port key t} (h : s.memoryWf) (e : execKeyInstall pkg port key s = .next t) : t.memoryWf := by
  unfold execKeyInstall at e
  grind [State.memoryWf, State.updPort_memoryWf, State.cause_memoryWf]

/-! ### The operations of Machine/MatrixRun.lean -/

theorem execMatrixStart_memoryWf {stall t} (h : s.memoryWf) (e : execMatrixStart stall s = .next t) : t.memoryWf := by
  unfold execMatrixStart at e
  grind [State.memoryWf, State.cause_memoryWf, State.setStall_memoryWf]

theorem runReads_memoryWf {x} (h : s.memoryWf) : (runReads s x).1.memoryWf := by
  unfold runReads
  grind [State.memoryWf, List.foldl_memoryWf, List.foldl_fst_memoryWf, Option.getD_memoryWf, readValues_memoryWf]

theorem runMmaOn_memoryWf {k x zero a b} (h : s.memoryWf) : (runMmaOn s k x zero a b).1.memoryWf := by
  unfold runMmaOn
  grind [State.memoryWf, Option.getD_memoryWf, State.updStall_memoryWf]

theorem runMmamOn_memoryWf {k x a b} (h : s.memoryWf) : (runMmamOn s k x a b).1.memoryWf := by
  unfold runMmamOn
  grind [State.memoryWf, Option.getD_memoryWf, State.updStall_memoryWf]

theorem putElem_memoryWf {c x r col x'} (h : s.memoryWf) : (putElem s c x r col x').memoryWf := by
  unfold putElem
  grind [State.memoryWf, writeHome_memoryWf]

theorem putCol_memoryWf {c x col x'} (h : s.memoryWf) : (putCol s c x col x').memoryWf := by
  unfold putCol
  grind [State.memoryWf, List.foldl_memoryWf, List.foldl_fst_memoryWf, Option.getD_memoryWf, putElem_memoryWf]

theorem runChol_memoryWf {x l} (h : s.memoryWf) : (runChol s x l).1.memoryWf := by
  unfold runChol
  grind [State.memoryWf, List.foldl_memoryWf, List.foldl_fst_memoryWf, putElem_memoryWf]

theorem runTrs_memoryWf {x lower l} (h : s.memoryWf) : (runTrs s x lower l).1.memoryWf := by
  unfold runTrs
  grind [State.memoryWf, List.foldl_memoryWf, List.foldl_fst_memoryWf, putCol_memoryWf]

theorem runRfn_memoryWf {x l} (h : s.memoryWf) : (runRfn s x l).1.memoryWf := by
  unfold runRfn
  grind [State.memoryWf, List.foldl_memoryWf, List.foldl_fst_memoryWf, putCol_memoryWf]

theorem runSolver_memoryWf {x} (h : s.memoryWf) : (runSolver s x).1.memoryWf := by
  unfold runSolver
  grind [State.memoryWf, runReads_memoryWf, runChol_memoryWf, runTrs_memoryWf, runRfn_memoryWf]

theorem finishSolver_memoryWf {x flags result} (h : s.memoryWf) : (finishSolver s x flags result).memoryWf := by
  unfold finishSolver
  grind [State.memoryWf, State.updCtx_memoryWf, State.raise_memoryWf, State.writeG_memoryWf]

theorem asyncEcc_memoryWf {c va} (h : s.memoryWf) : (asyncEcc s c va).memoryWf := by
  unfold asyncEcc
  grind [State.memoryWf, State.beginDeath_memoryWf]

theorem execMatrixComplete_memoryWf {stall t} (h : s.memoryWf) (e : execMatrixComplete stall s = .next t) : t.memoryWf := by
  unfold execMatrixComplete at e
  grind [State.memoryWf, State.cause_memoryWf, State.setStall_memoryWf, runReads_memoryWf, asyncEcc_memoryWf, State.raise_memoryWf,
    runMmaOn_memoryWf, runMmamOn_memoryWf, runSolver_memoryWf, State.updCtx_memoryWf, finishSolver_memoryWf]

theorem transferWords_memoryWf {x} (h : s.memoryWf) : (transferWords s x).1.memoryWf := by
  unfold transferWords
  have hr : ∀ k c ts b n p l u, u.memoryWf → (readValues k c ts b n p u l).1.memoryWf := fun _ _ _ _ _ _ _ _ => readValues_memoryWf
  revert hr
  induction readValues using forall_elim_induction with | mk rv
  intro hr
  split
  · exact h
  · exact hr _ _ _ _ _ _ _ _ h

theorem landTransfer_memoryWf {k x} (h : s.memoryWf) : (landTransfer s k x).1.memoryWf := by
  unfold landTransfer
  grind [State.memoryWf, Option.getD_memoryWf, transferWords_memoryWf, State.updStall_memoryWf]

theorem execBankTransferComplete_memoryWf {stall t} (h : s.memoryWf) (e : execBankTransferComplete stall s = .next t) : t.memoryWf := by
  unfold execBankTransferComplete at e
  grind [State.memoryWf, State.cause_memoryWf, State.updStall_memoryWf, landTransfer_memoryWf, State.raise_memoryWf]

theorem execPairClearDone_memoryWf {stall pair t} (h : s.memoryWf) (e : execPairClearDone stall pair s = .next t) : t.memoryWf := by
  unfold execPairClearDone at e
  grind [State.memoryWf, List.foldl_memoryWf, List.foldl_fst_memoryWf, State.updStall_memoryWf, State.cause_memoryWf]

/-! ### The operations of Machine/Slices.lean -/

theorem State.updSlice_memoryWf {pkg slid f} (h : s.memoryWf) : (State.updSlice s pkg slid f).memoryWf := by
  unfold State.updSlice
  grind [State.memoryWf, State.updPkg_memoryWf]

theorem State.dropSlice_memoryWf {pkg slid} (h : s.memoryWf) : (State.dropSlice s pkg slid).memoryWf := by
  unfold State.dropSlice
  grind [State.memoryWf, State.updPkg_memoryWf]

theorem execSlice_memoryWf {pkg descriptor t} (h : s.memoryWf) (e : execSlice pkg descriptor s = .next t) : t.memoryWf := by
  unfold execSlice at e
  grind [State.memoryWf, List.foldl_memoryWf, List.foldl_fst_memoryWf, State.updPkg_memoryWf, sendSlice_memoryWf]

theorem admitIncoming_memoryWf {pkg ev} (h : s.memoryWf) : (admitIncoming s pkg ev).memoryWf := by
  unfold admitIncoming
  grind [State.memoryWf, → Except.exists_of_bind, Except.pure_eq, Except.throw_eq, → regionTranslator_memoryWf,
    regionTranslator_keepsForm, → checkSpan_memoryWf, admitRegion_memoryWf]

theorem execSlicePrepare_memoryWf {pkg slid t} (h : s.memoryWf) (e : execSlicePrepare pkg slid s = .next t) : t.memoryWf := by
  unfold execSlicePrepare at e
  grind [State.memoryWf, Option.getD_memoryWf, admitIncoming_memoryWf, State.updRegion_memoryWf, State.updPkg_memoryWf,
    sendSlice_memoryWf]

theorem endSlice_memoryWf {pkg slid} (h : s.memoryWf) : (endSlice s pkg slid).memoryWf := by
  unfold endSlice
  grind [State.memoryWf, State.dropSlice_memoryWf]

theorem decided_memoryWf {pkg x} (h : s.memoryWf) : (decided s pkg x).memoryWf := by
  unfold decided
  grind [State.memoryWf, State.updSlice_memoryWf, endSlice_memoryWf]

theorem execSliceAnswer_memoryWf {pkg slid sender ready t} (h : s.memoryWf) (e : execSliceAnswer pkg slid sender ready s = .next t) :
    t.memoryWf := by
  unfold execSliceAnswer at e
  grind [State.memoryWf, List.foldl_memoryWf, List.foldl_fst_memoryWf, State.updSlice_memoryWf, sendSlice_memoryWf, decided_memoryWf]

theorem unhold_memoryWf {pkg rcb} (h : s.memoryWf) : (unhold s pkg rcb).memoryWf := by
  unfold unhold
  grind [State.memoryWf, State.updRegion_memoryWf]

theorem execSliceAbort_memoryWf {pkg slid t} (h : s.memoryWf) (e : execSliceAbort pkg slid s = .next t) : t.memoryWf := by
  unfold execSliceAbort at e
  grind [State.memoryWf, State.cause_memoryWf, endSlice_memoryWf, unhold_memoryWf]

theorem execSliceTstart_memoryWf {pkg slid t} (h : s.memoryWf) (e : execSliceTstart pkg slid s = .next t) : t.memoryWf := by
  unfold execSliceTstart at e
  grind [State.memoryWf, List.foldl_memoryWf, List.foldl_fst_memoryWf, Option.getD_memoryWf, State.cause_memoryWf,
    State.updSlice_memoryWf, sendSlice_memoryWf, requestContext_memoryWf]

theorem execSliceGraceExpiry_memoryWf {pkg slid t} (h : s.memoryWf) (e : execSliceGraceExpiry pkg slid s = .next t) : t.memoryWf := by
  unfold execSliceGraceExpiry at e
  grind [State.memoryWf, State.cause_memoryWf, sendSlice_memoryWf]

theorem execSliceReport_memoryWf {pkg slid sender evicted t} (h : s.memoryWf) (e : execSliceReport pkg slid sender evicted s = .next t)
    : t.memoryWf := by
  unfold execSliceReport at e
  grind [State.memoryWf, List.foldl_memoryWf, List.foldl_fst_memoryWf, State.updSlice_memoryWf, sendSlice_memoryWf, decided_memoryWf,
    State.updPkg_memoryWf]

theorem execSliceStart_memoryWf {pkg slid t} (h : s.memoryWf) (e : execSliceStart pkg slid s = .next t) : t.memoryWf := by
  unfold execSliceStart at e
  grind [State.memoryWf, endSlice_memoryWf, unhold_memoryWf, bindRegion_memoryWf, State.cause_memoryWf]

theorem withdraw_memoryWf {slid c} (h : s.memoryWf) : (withdraw slid s c).memoryWf := by
  unfold withdraw
  grind [State.memoryWf, State.causeOnce_memoryWf, State.updCtx_memoryWf]

theorem rebindContext_memoryWf {pkg ev} (h : s.memoryWf) : (rebindContext s pkg ev).memoryWf := by
  unfold rebindContext
  grind [State.memoryWf, State.updRegion_memoryWf, State.cause_memoryWf, bindContext_memoryWf]

theorem execSliceAbandon_memoryWf {pkg slid t} (h : s.memoryWf) (e : execSliceAbandon pkg slid s = .next t) : t.memoryWf := by
  unfold execSliceAbandon at e
  grind [State.memoryWf, List.foldl_memoryWf, List.foldl_fst_memoryWf, withdraw_memoryWf, endSlice_memoryWf, rebindContext_memoryWf]

theorem execSliceNoAnswer_memoryWf {pkg slid sender t} (h : s.memoryWf) (e : execSliceNoAnswer pkg slid sender s = .next t) : t.memoryWf
    := by
  unfold execSliceNoAnswer at e
  grind [State.memoryWf, State.updPkg_memoryWf]

/-! ### The operations of Machine/Platform.lean -/

theorem execPackageReset_memoryWf {pkg t} (h : s.memoryWf) (e : execPackageReset pkg s = .next t) : t.memoryWf := by
  unfold execPackageReset at e
  grind [State.memoryWf]

theorem execPowerOnBoot_memoryWf {pkg images t} (h : s.memoryWf) (e : execPowerOnBoot pkg images s = .next t) : t.memoryWf := by
  unfold execPowerOnBoot at e
  grind [State.memoryWf, State.updPkg_memoryWf]

theorem execAttest_memoryWf {pkg nonce t} (h : s.memoryWf) (e : execAttest pkg nonce s = .next t) : t.memoryWf := by
  unfold execAttest at e
  grind [State.memoryWf, State.updPkg_memoryWf]

theorem execKeyload_memoryWf {pkg id wrapped t} (h : s.memoryWf) (e : execKeyload pkg id wrapped s = .next t) : t.memoryWf := by
  unfold execKeyload at e
  grind [State.memoryWf, State.updPkg_memoryWf]

theorem execKeyevict_memoryWf {pkg id t} (h : s.memoryWf) (e : execKeyevict pkg id s = .next t) : t.memoryWf := by
  unfold execKeyevict at e
  grind [State.memoryWf, State.updPkg_memoryWf]

theorem execPwrcap_memoryWf {pkg watts t} (h : s.memoryWf) (e : execPwrcap pkg watts s = .next t) : t.memoryWf := by
  unfold execPwrcap at e
  grind [State.memoryWf, State.updPkg_memoryWf]

theorem execEvents_memoryWf {pkg t} (h : s.memoryWf) (e : execEvents pkg s = .next t) : t.memoryWf := by
  unfold execEvents at e
  grind [State.memoryWf, State.updPkg_memoryWf]

theorem execHscarveWrite_memoryWf {hall k value t} (h : s.memoryWf) (e : execHscarveWrite hall k value s = .next t) : t.memoryWf := by
  unfold execHscarveWrite at e
  grind [State.memoryWf, writeCarve_memoryWf]

theorem execHscarveDone_memoryWf {hall k t} (h : s.memoryWf) (e : execHscarveDone hall k s = .next t) : t.memoryWf := by
  unfold execHscarveDone at e
  grind [State.memoryWf, setCarve_memoryWf, clearWay_memoryWf]

theorem execCrateWrite_memoryWf {hall cls value t} (h : s.memoryWf) (e : execCrateWrite hall cls value s = .next t) : t.memoryWf := by
  unfold execCrateWrite at e
  grind [State.memoryWf, writeCrate_memoryWf]

theorem writeBar0_memoryWf {pkg o value} (h : s.memoryWf) : (writeBar0 s pkg o value).memoryWf := by
  unfold writeBar0
  grind [State.memoryWf, State.updPkg_memoryWf, State.cause_memoryWf]

theorem execRegisterWrite_memoryWf {pkg offset value t} (h : s.memoryWf) (e : execRegisterWrite pkg offset value s = .next t) :
    t.memoryWf := by
  unfold execRegisterWrite at e
  grind [State.memoryWf, writeBar0_memoryWf, writeHallReg_memoryWf]

theorem execHostSnoop_memoryWf {pkg line t} (h : s.memoryWf) (e : execHostSnoop pkg line s = .next t) : t.memoryWf := by
  unfold execHostSnoop at e
  grind [State.memoryWf, List.foldl_memoryWf, List.foldl_fst_memoryWf, writeBackLine_memoryWf, dropVisitor_memoryWf]

theorem execHdmAccess_memoryWf {p o op t} (h : s.memoryWf) (e : execHdmAccess p o op s = .next t) : t.memoryWf := by
  unfold execHdmAccess at e
  split at e
  · cases e
    exact h
  extract_lets pa at e
  split at e
  · cases e
    exact h
  split at e
  · cases e
    exact State.cause_memoryWf h
  rename_i n _ _ _
  have hr : (agentRead s 0 pa n).1.memoryWf := agentRead_memoryWf h
  generalize agentRead s 0 pa n = r at e hr
  obtain ⟨s1, bs⟩ := r
  cases e
  split
  all_goals split
  · exact agentWrite_memoryWf hr
  · exact hr
  · exact State.updPkg_memoryWf (agentWrite_memoryWf hr)
  · exact State.updPkg_memoryWf hr

theorem execTimeSync_memoryWf {pkg delta t} (h : s.memoryWf) (e : execTimeSync pkg delta s = .next t) : t.memoryWf := by
  unfold execTimeSync at e
  grind [State.memoryWf, State.updPkg_memoryWf]

/-! ### The operations of Machine/Dispatch.lean -/

theorem exec_memoryWf {i t} (h : s.memoryWf) (e : exec i s = .next t) : t.memoryWf := by
  cases i with
  | add _ | sub _ | and _ | or _ | xor _ | shl _ | shr _ | sra _ | mul _ | mulh _ | mulhn _ | min _ | max _ | minn _ | maxn _ | ceq _
  | cne _ | clt _ | cge _ | cltn _ | cgen _ | tst _ | div _ | divn _ | rem _ | remn _ | bfx _ | bfxn _ | rol _ | ror _ | fadd _ | fsub _
  | fmul _ | fdiv _ | fmin _ | fmax _ | feq _ | flt _ | fle _ | funo _ =>
    delta exec at e
    dsimp only at e
    exact runGBin_memoryWf h e
  | not _ | mov _ | sxw _ | zxw _ | sxb _ | sxh _ | clz _ | popc _ | rev _ | ctz _ | fsqrt _ | fabs _ | fneg _ | cvtif _ | cvtfi _
  | cvtfb _ | cvtbf _ | cvtfh _ | cvthf _ =>
    delta exec at e
    dsimp only at e
    exact runGUn_memoryWf h e
  | movi _ => exact execMovi_memoryWf h e
  | addi _ => exact execAddi_memoryWf h e
  | shli _ | shri _ | srai _ | rori _ =>
    delta exec at e
    dsimp only at e
    exact runShift_memoryWf h e
  | bnz _ | bz _ =>
    delta exec at e
    dsimp only at e
    exact runBranch_memoryWf h e
  | jr _ => exact execJr_memoryWf h e
  | callr _ => exact execCallr_memoryWf h e
  | ret => exact execRet_memoryWf h e
  | j _ => exact execJ_memoryWf h e
  | call _ => exact execCall_memoryWf h e
  | ldb _ | ldh _ | ldw _ | ldd _ | ldbs _ | ldhs _ | ldws _ | ldq _ =>
    delta exec at e
    dsimp only at e
    exact runLoad_memoryWf h e
  | stb _ | sth _ | stw _ | std _ | stq _ =>
    delta exec at e
    dsimp only at e
    exact runStore_memoryWf h e
  | selnz _ | selz _ | fma _ | fms _ | fnma _ =>
    delta exec at e
    dsimp only at e
    exact runGTri_memoryWf h e
  | lea1 _ | lea2 _ | lea4 _ | lea8 _ | lea16 _ =>
    delta exec at e
    dsimp only at e
    exact runLea_memoryWf h e
  | nop => exact execNop_memoryWf h e
  | yield => exact execYield_memoryWf h e
  | trapf => exact execTrapf_memoryWf h e
  | flagr _ => exact execFlagr_memoryWf h e
  | flagc _ => exact execFlagc_memoryWf h e
  | sysc _ => exact execSysc_memoryWf h e
  | bkpt _ => exact execBkpt_memoryWf h e
  | rdc _ => exact execRdc_memoryWf h e
  | wrc _ => exact execWrc_memoryWf h e
  | tmark _ => exact execTmark_memoryWf h e
  | bfi _ => exact execBfi_memoryWf h e
  | vadd _ | vsub _ | vmul _ | vmin _ | vmax _ | vand _ | vor _ | vxor _ | vfma _ | vfms _ | vshl _ | vshr _ | vsra _ | vdiv _ =>
    delta exec at e
    dsimp only at e
    exact runVBin_memoryWf h e
  | vabs _ | vneg _ =>
    delta exec at e
    dsimp only at e
    exact runVUn_memoryWf h e
  | vceq _ | vcne _ | vclt _ | vcle _ | vcgt _ | vcge _ =>
    delta exec at e
    dsimp only at e
    exact runVCmp_memoryWf h e
  | pand _ | por _ | pxor _ =>
    delta exec at e
    dsimp only at e
    exact runPBin_memoryWf h e
  | pnot _ => exact execPnot_memoryWf h e
  | pset _ => exact execPset_memoryWf h e
  | pcnt _ | pfirst _ =>
    delta exec at e
    dsimp only at e
    exact runPCount_memoryWf h e
  | vld _ | vlds _ | vgath _ =>
    delta exec at e
    dsimp only at e
    exact runVLoad_memoryWf h e
  | vst _ | vsts _ | vscat _ =>
    delta exec at e
    dsimp only at e
    exact runVStore_memoryWf h e
  | vldb _ => exact execVldb_memoryWf h e
  | vrsum _ | vrmax _ | vrmin _ =>
    delta exec at e
    dsimp only at e
    exact runVRed_memoryWf h e
  | vext _ => exact execVext_memoryWf h e
  | vbcst _ => exact execVbcst_memoryWf h e
  | vsel _ => exact execVsel_memoryWf h e
  | vperm _ => exact execVperm_memoryWf h e
  | vslide _ => exact execVslide_memoryWf h e
  | vcvt _ => exact execVcvt_memoryWf h e
  | vpack _ => exact execVpack_memoryWf h e
  | vunpk _ => exact execVunpk_memoryWf h e
  | vqds _ => exact execVqds_memoryWf h e
  | vexp _ | vrcp _ | vrsq _ | verf _ =>
    delta exec at e
    dsimp only at e
    exact runVFun_memoryWf h e
  | vsett _ => exact execVsett_memoryWf h e
  | vlen _ => exact execVlen_memoryWf h e
  | viota _ => exact execViota_memoryWf h e
  | mma _ | mmaz _ | mmah _ | mmazh _ =>
    delta exec at e
    dsimp only at e
    exact runMma_memoryWf h e
  | aacq _ => exact execAacq_memoryWf h e
  | arel => exact execArel_memoryWf h e
  | azero _ => exact execAzero_memoryWf h e
  | aload _ => exact execAload_memoryWf h e
  | astore _ => exact execAstore_memoryWf h e
  | arowv _ => exact execArowv_memoryWf h e
  | avrow _ => exact execAvrow_memoryWf h e
  | ascale _ => exact execAscale_memoryWf h e
  | tset _ => exact execTset_memoryWf h e
  | tget _ => exact execTget_memoryWf h e
  | tadv _ => exact execTadv_memoryWf h e
  | tshape _ => exact execTshape_memoryWf h e
  | mwait _ => exact execMwait_memoryWf h e
  | mstat _ => exact execMstat_memoryWf h e
  | mchol _ => exact execMchol_memoryWf h e
  | mtrsl _ | mtrsu _ =>
    delta exec at e
    dsimp only at e
    exact runTriangle_memoryWf h e
  | mrfn _ => exact execMrfn_memoryWf h e
  | madd _ | msub _ | mmul _ =>
    delta exec at e
    dsimp only at e
    exact runMBin_memoryWf h e
  | mscl _ | maff _ =>
    delta exec at e
    dsimp only at e
    exact runMTri_memoryWf h e
  | mneg _ | mrelu _ | mexp _ | msig _ | msqr _ =>
    delta exec at e
    dsimp only at e
    exact runMUn_memoryWf h e
  | mmk _ => exact execMmk_memoryWf h e
  | mmean _ | mvar _ =>
    delta exec at e
    dsimp only at e
    exact runMPlain_memoryWf h e
  | mcol _ => exact execMcol_memoryWf h e
  | msum _ => exact execMsum_memoryWf h e
  | mchk _ => exact execMchk_memoryWf h e
  | mmam _ => exact execMmam_memoryWf h e
  | mastm _ => exact execMastm_memoryWf h e
  | maldm _ => exact execMaldm_memoryWf h e
  | spawn _ => exact execSpawn_memoryWf h e
  | spawna _ => exact execSpawna_memoryWf h e
  | spawnf _ => exact execSpawnf_memoryWf h e
  | sync => exact execSync_memoryWf h e
  | syncq _ => exact execSyncq_memoryWf h e
  | syncc _ => exact execSyncc_memoryWf h e
  | falloc _ => exact execFalloc_memoryWf h e
  | ffree _ => exact execFfree_memoryWf h e
  | jinit _ => exact execJinit_memoryWf h e
  | jadd _ => exact execJadd_memoryWf h e
  | pub _ => exact execPub_memoryWf h e
  | tname _ => exact execTname_memoryWf h e
  | tdrop _ => exact execTdrop_memoryWf h e
  | tend => exact execTend_memoryWf h e
  | tabort _ => exact execTabort_memoryWf h e
  | rlaunch _ => exact execRlaunch_memoryWf h e
  | rwait _ => exact execRwait_memoryWf h e
  | rquery _ => exact execRquery_memoryWf h e
  | gbar _ => exact execGbar_memoryWf h e
  | gbara _ => exact execGbara_memoryWf h e
  | gbarw _ => exact execGbarw_memoryWf h e
  | grank _ => exact execGrank_memoryWf h e
  | gsize _ => exact execGsize_memoryWf h e
  | gangBarrierWake _ _ => exact execGangBarrierWake_memoryWf h e
  | donate _ => exact execDonate_memoryWf h e
  | aadd _ | aand _ | aor _ | axor _ | amin _ | amax _ | aswp _ | acas _ | acas2 _ | abinc _ | abdec _ | afadd _ | amadd _ =>
    delta exec at e
    dsimp only at e
    exact runAtom_memoryWf h e
  | fence _ | fencee _ =>
    delta exec at e
    dsimp only at e
    exact runFence_memoryWf h e
  | flush _ => exact execFlush_memoryWf h e
  | inval _ => exact execInval_memoryWf h e
  | pref _ => exact execPref_memoryWf h e
  | tbmc => exact execTbmc_memoryWf h e
  | binit _ => exact execBinit_memoryWf h e
  | barr _ => exact execBarr_memoryWf h e
  | bwait _ => exact execBwait_memoryWf h e
  | bexp _ => exact execBexp_memoryWf h e
  | btest _ => exact execBtest_memoryWf h e
  | barrierWake _ => exact execBarrierWake_memoryWf h e
  | copy _ => exact execCopy_memoryWf h e
  | ctset _ => exact execCtset_memoryWf h e
  | cwm _ => exact execCwm_memoryWf h e
  | cwait _ => exact execCwait_memoryWf h e
  | tfpin _ => exact execTfpin_memoryWf h e
  | tfrel _ => exact execTfrel_memoryWf h e
  | eret => exact execEret_memoryWf h e
  | halt => exact execHalt_memoryWf h e
  | repart _ => exact execRepart_memoryWf h e
  | ctxsave _ => exact execCtxsave_memoryWf h e
  | ctxload _ => exact execCtxload_memoryWf h e
  | purge _ => exact execPurge_memoryWf h e
  | tlbinv _ => exact execTlbinv_memoryWf h e
  | packageReset _ => exact execPackageReset_memoryWf h e
  | powerOnBoot _ _ => exact execPowerOnBoot_memoryWf h e
  | loadReply _ => exact execLoadReply_memoryWf h e
  | storePerform _ => exact execStorePerform_memoryWf h e
  | pageWalk _ => exact execPageWalk_memoryWf h e
  | homeRecall _ _ _ => exact execHomeRecall_memoryWf h e
  | lineEviction _ _ _ _ => exact execLineEviction_memoryWf h e
  | networkMessageDelivery _ => exact execNetworkMessageDelivery_memoryWf h e
  | matrixStart _ => exact execMatrixStart_memoryWf h e
  | matrixComplete _ => exact execMatrixComplete_memoryWf h e
  | bankTransferComplete _ => exact execBankTransferComplete_memoryWf h e
  | pairClearDone _ _ => exact execPairClearDone_memoryWf h e
  | huntRound _ => exact execHuntRound_memoryWf h e
  | take _ _ => exact execTake_memoryWf h e
  | stealReply _ => exact execStealReply_memoryWf h e
  | tileMoveComplete _ => exact execTileMoveComplete_memoryWf h e
  | thiefReoffer _ => exact execThiefReoffer_memoryWf h e
  | counterReoffer _ => exact execCounterReoffer_memoryWf h e
  | jinc _ | jdec _ | jdead _ | jaddn _ _ | jsus _ | jcall _ | jcas _ | jmark _ =>
    delta exec at e
    dsimp only at e
    exact counterEvent_memoryWf h e
  | resumeContinuation _ => exact execResumeContinuation_memoryWf h e
  | taskDeath _ => exact execTaskDeath_memoryWf h e
  | discard _ _ => exact execDiscard_memoryWf h e
  | preemptionRequest _ _ _ => exact execPreemptionRequest_memoryWf h e
  | preemptDeadline _ => exact execPreemptDeadline_memoryWf h e
  | evict _ => exact execEvict_memoryWf h e
  | resumeEvicted _ => exact execResumeEvicted_memoryWf h e
  | waitlistExamine _ => exact execWaitlistExamine_memoryWf h e
  | imageLoaded _ _ => exact execImageLoaded_memoryWf h e
  | rootRelease _ _ => exact execRootRelease_memoryWf h e
  | regionEnd _ _ => exact execRegionEnd_memoryWf h e
  | doorbell _ _ _ => exact execDoorbell_memoryWf h e
  | queueRestart _ _ => exact execQueueRestart_memoryWf h e
  | distributorSelect _ => exact execDistributorSelect_memoryWf h e
  | nopPacket _ _ => exact execNopPacket_memoryWf h e
  | launch _ _ => exact execLaunch_memoryWf h e
  | signal _ _ => exact execSignal_memoryWf h e
  | wait _ _ => exact execWait_memoryWf h e
  | indirect _ _ => exact execIndirect_memoryWf h e
  | link _ _ => exact execLink_memoryWf h e
  | barrier _ _ => exact execBarrier_memoryWf h e
  | badpkt _ _ => exact execBadpkt_memoryWf h e
  | transferComplete _ _ => exact execTransferComplete_memoryWf h e
  | followOnHandoff _ => exact execFollowOnHandoff_memoryWf h e
  | crossTrigger _ _ => exact execCrossTrigger_memoryWf h e
  | inspectorHalt _ _ => exact execInspectorHalt_memoryWf h e
  | inspectorResume _ _ => exact execInspectorResume_memoryWf h e
  | inspectorStep _ => exact execInspectorStep_memoryWf h e
  | idataRead _ => exact execIdataRead_memoryWf h e
  | idataWrite _ _ => exact execIdataWrite_memoryWf h e
  | idignReset _ => exact execIdignReset_memoryWf h e
  | hscarveWrite _ _ _ => exact execHscarveWrite_memoryWf h e
  | crateWrite _ _ _ => exact execCrateWrite_memoryWf h e
  | registerWrite _ _ _ => exact execRegisterWrite_memoryWf h e
  | fragmentHop _ => exact execFragmentHop_memoryWf h e
  | fragmentArrival _ => exact execFragmentArrival_memoryWf h e
  | slotTimeout _ _ => exact execSlotTimeout_memoryWf h e
  | messagePerform _ => exact execMessagePerform_memoryWf h e
  | sack _ => exact execSack_memoryWf h e
  | sackReceive _ _ _ => exact execSackReceive_memoryWf h e
  | ack _ _ => exact execAck_memoryWf h e
  | retxTimeout _ _ => exact execRetxTimeout_memoryWf h e
  | skip _ _ => exact execSkip_memoryWf h e
  | laneFailure _ _ _ => exact execLaneFailure_memoryWf h e
  | retrainDone _ _ => exact execRetrainDone_memoryWf h e
  | keyInstall _ _ _ => exact execKeyInstall_memoryWf h e
  | donreq _ _ => exact execDonreq_memoryWf h e
  | barrowTake _ => exact execBarrowTake_memoryWf h e
  | remoteCounterOp _ _ => exact execRemoteCounterOp_memoryWf h e
  | attest _ _ => exact execAttest_memoryWf h e
  | keyload _ _ _ => exact execKeyload_memoryWf h e
  | keyevict _ _ => exact execKeyevict_memoryWf h e
  | slice _ _ => exact execSlice_memoryWf h e
  | pwrcap _ _ => exact execPwrcap_memoryWf h e
  | events _ => exact execEvents_memoryWf h e
  | slicePrepare _ _ => exact execSlicePrepare_memoryWf h e
  | sliceAnswer _ _ _ _ => exact execSliceAnswer_memoryWf h e
  | sliceAbort _ _ => exact execSliceAbort_memoryWf h e
  | sliceTstart _ _ => exact execSliceTstart_memoryWf h e
  | sliceGraceExpiry _ _ => exact execSliceGraceExpiry_memoryWf h e
  | sliceReport _ _ _ _ => exact execSliceReport_memoryWf h e
  | sliceStart _ _ => exact execSliceStart_memoryWf h e
  | sliceAbandon _ _ => exact execSliceAbandon_memoryWf h e
  | sliceNoAnswer _ _ _ => exact execSliceNoAnswer_memoryWf h e
  | hostSnoop _ _ => exact execHostSnoop_memoryWf h e
  | carterBeat _ => exact execCarterBeat_memoryWf h e
  | hscarveDone _ _ => exact execHscarveDone_memoryWf h e
  | timeSync _ _ => exact execTimeSync_memoryWf h e
  | hdmAccess _ _ _ => exact execHdmAccess_memoryWf h e

/-! ### The turns of Machine/Step.lean -/

theorem issueDecoded_memoryWf {t} (h : s.memoryWf) (e : issueDecoded s = .next t) : t.memoryWf := by
  unfold issueDecoded at e
  split at e
  · exact finish_memoryWf h (by simp) e
  · rename_i ef
    cases e
    exact State.trap_memoryWf (fetch_memoryWf h ef)
  · rename_i ef
    split at e
    · cases e
      exact State.trap_memoryWf (fetch_memoryWf h ef)
    · exact exec_memoryWf (beginIssue_memoryWf (fetch_memoryWf h ef)) e

theorem endTurn_memoryWf {m c o t} (ho : ∀ u, o = .next u → u.memoryWf) (e : endTurn m c o = .next t) : t.memoryWf := by
  unfold endTurn at e
  split at e
  · have hu := ho _ rfl
    grind [State.updCtx_memoryWf, dropVisits_memoryWf, haltContext_memoryWf]
  · exact ho t e

theorem issueOn_memoryWf {c t} (h : s.memoryWf) (e : issueOn c s = .next t) : t.memoryWf := by
  have hc : { s with cur := c }.memoryWf := h
  unfold issueOn at e
  split at e
  · cases e
  split at e
  · cases e
    exact h
  split at e
  · cases e
    exact takePreempt_memoryWf hc
  split at e
  · exact endTurn_memoryWf (fun u hu => issueDecoded_memoryWf hc hu) e
  · exact issueDecoded_memoryWf hc e

theorem nextReady_memoryWf {c l t} (h : s.memoryWf) (e : nextReady s = some (c, l, t)) : t.memoryWf := by
  unfold nextReady at e
  split at e
  · cases e
    exact nextIssue_memoryWf h ‹_›
  · exact nextIssue_memoryWf h e

theorem stepHalted_memoryWf {c t} (h : s.memoryWf) (e : stepHalted c s = .next t) : t.memoryWf := by
  unfold stepHalted at e
  split at e
  · cases e
    exact h
  · exact issueOn_memoryWf (State.updCtx_memoryWf (resumeContext_memoryWf h)) e

theorem step_memoryWf {t} (h : s.memoryWf) (e : step s = .next t) : t.memoryWf := by
  have withTick {d q} : { s with tick := s.tick + 1, sched := d, due := q }.memoryWf := h
  have ready {c l u q} (er : nextReady { s with tick := s.tick + 1 } = some (c, l, u)) : { u with sched := q }.memoryWf := by
    have hu : u.memoryWf := nextReady_memoryWf (s := { s with tick := s.tick + 1 }) h er
    exact hu
  unfold step at e
  dsimp only at e
  split at e
  · exact exec_memoryWf withTick e
  · exact issueOn_memoryWf withTick e
  · exact stepHalted_memoryWf withTick e
  · split at e
    · exact exec_memoryWf withTick e
    · cases e
      exact withTick
    · rename_i er
      exact issueOn_memoryWf (ready er) e
    · rename_i er
      split at e
      · exact exec_memoryWf withTick e
      · exact issueOn_memoryWf (ready er) e

end Sys2Proof.Machine

namespace Sys2Proof

/-- Settles O60: each operation that a step is made of keeps the form. -/
theorem stepKeepsMemoryForm : Obligations.step_keeps_memory_form := fun _ _ => Machine.step_memoryWf

end Sys2Proof
end


-- What stops an instruction before it acts: its level, its operands, its alignment (O13, O17, O22)
section
/-!
An instruction that stops at a trap changes nothing but what the trap writes (R359). Each instruction of O13, O17 and O22 looks at its
level, at its operands in the order X, Y, Z and at its address before it does anything else; `State.Checks` says so of a computation.
-/

set_option Elab.async false

namespace Sys2Proof.Machine

variable {s : State}

/-- A trap that can be taken is taken. -/
theorem exists_trapStep {o : Host.Outcome State Fault Refusal} {t : Trap} (hv : s.me.tvec ≠ 0) (hi : s.me.intrap = false)
    (e : o = finish s (.error (.trap t))) : ∃ u, o = .next u ∧ TrapStep s u t.cause.code t.einfo t.eva :=
  ⟨_, e, trap_trapStep s t (by rw [Ctx.canTrap, hi, bne_iff_ne.mpr hv]; rfl)⟩

/-- The check that the model makes of an operand. -/
def State.checkOperand (s : State) (op : Nat × Named) : Except Stop Unit :=
  match op.2 with
  | .g r n => s.me.checkG op.1 r n
  | .v i => s.me.checkV op.1 i
  | .p i => checkP op.1 i
  | .t i => checkT op.1 i
  | .a i => (s.checkA op.1 i).map (fun _ => ())

theorem checkOperand_holds {op : Nat × Named} (h : s.holds op.2 = true) : s.checkOperand op = .ok () := by
  obtain ⟨k, r | i | i | i | i⟩ := op
  · exact checkG_ok h
  · exact checkV_ok (of_decide_eq_true h)
  · exact checkP_ok (of_decide_eq_true h)
  · exact checkT_ok (of_decide_eq_true h)
  · obtain ⟨hi, hp⟩ := Bool.and_eq_true_iff.mp h
    obtain ⟨p, hp⟩ := Option.isSome_iff_exists.mp hp
    simp only [State.checkOperand, State.checkA, hp, if_pos (of_decide_eq_true hi)]
    rfl

theorem checkOperand_beyond {op : Nat × Named} (h : s.holds op.2 = false) :
    ∃ t : Trap, s.checkOperand op = .error (.trap t) ∧ t.cause = .reglim ∧ t.einfo = s.beyond op.2 + 256 * op.1 ∧ t.eva = 0 := by
  obtain ⟨k, ⟨r, n⟩ | i | i | i | i⟩ := op
  · cases r with
    | g i =>
      refine ⟨_, checkG_beyond (by simpa [State.holds, Ctx.okG] using h), rfl, ?_, rfl⟩
      simp [reglim, State.beyond, RegClass.code]
    | o i => cases h
    | lat => cases h
  · refine ⟨_, if_neg (of_decide_eq_false h), rfl, ?_, rfl⟩
    simp only [reglim, State.beyond, RegClass.code]; omega
  · refine ⟨_, if_neg (of_decide_eq_false h), rfl, ?_, rfl⟩
    simp only [reglim, State.beyond, RegClass.code]; omega
  · refine ⟨_, if_neg (of_decide_eq_false h), rfl, ?_, rfl⟩
    simp only [reglim, State.beyond, RegClass.code]; omega
  · refine ⟨reglim .a k i.val, ?_, rfl, ?_, rfl⟩
    · cases hp : s.held s.cur with
      | none => simp only [State.checkOperand, State.checkA, hp]; rfl
      | some p =>
        have hi : ¬i.val < 2 := fun hi => by simp [State.holds, hp, hi] at h
        simp only [State.checkOperand, State.checkA, hp, if_neg hi]; rfl
    · simp only [reglim, State.beyond, RegClass.code]; omega

/-- A computation looks at the operands in turn, and the first that lies beyond its class or window stops it. -/
def State.Checks (s : State) : List (Nat × Named) → Except Stop State → Prop
  | [], _ => True
  | op :: r, x => (s.holds op.2 = true → s.Checks r x) ∧
      (s.holds op.2 = false → ∀ y, s.checkOperand op = .error y → x = .error y)

theorem Checks.trapStep {x : Except Stop State} (hv : s.me.tvec ≠ 0) (hi : s.me.intrap = false) {before after : List (Nat × Named)}
    {op : Nat × Named} (h : s.Checks (before ++ op :: after) x) (hb : ∀ q ∈ before, s.holds q.2 = true) (ho : s.holds op.2 = false) :
    ∃ t, finish s x = .next t ∧ TrapStep s t 0x03 (s.beyond op.2 + 256 * op.1) 0 := by
  induction before with
  | nil =>
    obtain ⟨t, et, hc, hn, ha⟩ := checkOperand_beyond ho
    have := exists_trapStep hv hi (congrArg (finish s) (h.2 ho _ et))
    rwa [hc, hn, ha] at this
  | cons q r ih => exact ih (h.1 (hb q (List.mem_cons_self ..))) (fun p hp => hb p (List.mem_cons_of_mem _ hp))

/-- An instruction whose computation looks at its operands first is bound by their limits. -/
theorem limits_of_checks {i : Instr} {ops : List (Nat × Named)} {x : Except Stop State} (hv : s.me.tvec ≠ 0) (hi : s.me.intrap = false)
    (e : exec i s = finish s x) (h : s.Checks ops x) : s.limits i ops := by
  rintro before op after rfl hb ho
  rw [e]
  exact Checks.trapStep hv hi h hb ho

section
variable {r : List (Nat × Named)} {α β : Type}

theorem checks_bind {op : Nat × Named} {c : Except Stop α} {k : α → Except Stop State} (hc : s.checkOperand op = c.map (fun _ => ()))
    (h : ∀ p, s.Checks r (k p)) : s.Checks (op :: r) (c >>= k) := by
  cases c with
  | ok p => exact ⟨fun _ => h p, fun _ y ey => (nomatch hc.symm.trans ey)⟩
  | error z =>
    refine ⟨fun ho => (nomatch hc.symm.trans (checkOperand_holds ho)), fun _ y ey => ?_⟩
    cases hc.symm.trans ey
    rfl

theorem checks_assoc {ops : List (Nat × Named)} {c : Except Stop α} {d : α → Except Stop β} {k : β → Except Stop State}
    (h : s.Checks ops (c >>= fun p => d p >>= k)) : s.Checks ops ((c >>= d) >>= k) := by
  cases c <;> exact h

theorem map_unit (c : Except Stop Unit) : c = c.map (fun _ => ()) := by
  cases c <;> rfl

variable {n m : Nat} {k : Unit → Except Stop State}

theorem checks_g {x : GReg} (h : s.Checks r (k ())) : s.Checks ((n, .g x m) :: r) (s.me.checkG n x m >>= k) :=
  checks_bind (map_unit _) (fun _ => h)

theorem checks_v {x : Idx} (h : s.Checks r (k ())) : s.Checks ((n, .v x) :: r) (s.me.checkV n x >>= k) :=
  checks_bind (map_unit _) (fun _ => h)

theorem checks_p {x : Idx} (h : s.Checks r (k ())) : s.Checks ((n, .p x) :: r) (checkP n x >>= k) :=
  checks_bind (map_unit _) (fun _ => h)

theorem checks_t {x : Idx} (h : s.Checks r (k ())) : s.Checks ((n, .t x) :: r) (checkT n x >>= k) :=
  checks_bind (map_unit _) (fun _ => h)

theorem checks_a {x : Idx} {k : Nat → Except Stop State} (h : ∀ p, s.Checks r (k p)) :
    s.Checks ((n, .a x) :: r) (s.checkA n x >>= k) := checks_bind rfl h

theorem checks_z {z : Option GReg} : s.Checks (z.toList.map (fun x => (2, .g x 1))) (s.me.checkZ z >>= k) := by
  cases z with
  | none => trivial
  | some x => exact checks_g trivial

theorem checks_vz {z : Option Idx} : s.Checks (z.toList.map (fun x => (2, .v x))) (s.me.checkVZ z >>= k) := by
  cases z with
  | none => trivial
  | some x => exact checks_v trivial

theorem checks_gbin {a : GBin} :
    s.Checks ([(0, .g a.x 1), (1, .g a.y 1)] ++ a.z.toList.map (fun x => (2, .g x 1))) (gbinCheck s a >>= k) :=
  checks_assoc (checks_g (checks_assoc (checks_g checks_z)))

theorem checks_mbin {a : MBin} :
    s.Checks ([(0, .v a.x), (1, .v a.y)] ++ a.z.toList.map (fun x => (2, .v x))) (mbinCheck s a >>= k) :=
  checks_assoc (checks_v (checks_assoc (checks_v checks_vz)))

theorem checks_locateObject {a : GMem} {w : Bool} {k : State × Nat × Nat → Except Stop State} :
    s.Checks ([(0, .g a.x 1), (1, .g a.y 1)] ++ a.z.toList.map (fun x => (2, .g x 1))) (locateObject s a w >>= k) :=
  checks_assoc (checks_g (checks_assoc (checks_g (checks_assoc checks_z))))

theorem checks_locateAperture {a : GMem} {k : State × Nat × Nat × Nat → Except Stop State} :
    s.Checks ([(0, .g a.x 1), (1, .g a.y 1)] ++ a.z.toList.map (fun x => (2, .g x 1))) (locateAperture s a >>= k) :=
  checks_assoc (checks_g (checks_assoc (checks_g (checks_assoc checks_z))))

theorem checks_vmem {x : Idx} {y : GReg} {z : Option GReg} {f : Option Fmt} {k : Nat × Nat → Except Stop State} :
    s.Checks ([(0, .v x), (1, .g y 1)] ++ z.toList.map (fun x => (2, .g x 1))) (vmemCheck s x y (s.me.checkZ z) f >>= k) :=
  checks_assoc (checks_v (checks_assoc (checks_g (checks_assoc checks_z))))

theorem checks_vgather {x : Idx} {y : GReg} {z : Option Idx} {f : Option Fmt} {k : Nat × Nat → Except Stop State} :
    s.Checks ([(0, .v x), (1, .g y 1)] ++ z.toList.map (fun x => (2, .v x))) (vmemCheck s x y (s.me.checkVZ z) f >>= k) :=
  checks_assoc (checks_v (checks_assoc (checks_g (checks_assoc checks_vz))))

/-- The entry point of a child is its operand 2 where a register holds it. -/
def targetOperand : Target → List (Nat × Named)
  | .reg z => [(2, .g z 1)]
  | .label _ => []

theorem checks_target {t : Target} {k : Unit → Except Stop State} :
    s.Checks (targetOperand t) ((match t with | .label _ => pure () | .reg z => s.me.checkG 2 z) >>= k) := by
  cases t with
  | label _ => trivial
  | reg z => exact checks_g trivial

theorem checks_spawn {x : GReg} {t : Target} : s.Checks ((0, .g x 1) :: targetOperand t) (checkSpawn s x t >>= k) :=
  checks_assoc (checks_g checks_target)

/-- X is looked at again before the entry point; it holds then. -/
theorem checks_spawn2 {a : Spawn2} : s.Checks ([(0, .g a.x 1), (1, .g a.y n)] ++ targetOperand a.target) (checkSpawn2 s a n >>= k) := by
  refine checks_assoc ⟨fun hx => ?_, fun hx y ey => ?_⟩
  · rw [checkG_ok hx]
    refine checks_assoc (checks_g (checks_assoc ?_))
    rw [checkG_ok hx]
    exact checks_target
  · rw [show s.me.checkG 0 a.x = _ from ey]
    rfl
end

/-- An access that looks at its operands and then at its address takes ALIGN for one that is not aligned. -/
theorem exists_alignStep {o : Host.Outcome State Fault Refusal} {x y : GReg} {z : Option GReg} {m kind va : Nat}
    {k : Unit → Except Stop State} (hv : s.me.tvec ≠ 0) (hi : s.me.intrap = false) (hx : s.me.okG m x = true) (hy : s.reads y = true)
    (hz : s.readsZ z = true) (e : o = finish s (s.me.checkG 0 x m >>= fun _ => s.me.checkG 1 y >>= fun _ => s.me.checkZ z >>= k))
    (hk : k () = .error (alignTrap kind va)) : ∃ t, o = .next t ∧ TrapStep s t 0x05 (2 * kind) va := by
  rw [checkG_ok hx, checkG_ok hy, checkZ_ok hz] at e
  exact exists_trapStep hv hi (e.trans (congrArg (finish s) hk))

/-- In user mode the check for supervisor mode takes PRIV. -/
theorem priv_bind {k : Unit → Except Stop State} (h : s.me.pl = false) :
    (s.me.checkPriv >>= k) = .error (.trap ⟨.priv, 0, 0⟩) := by
  unfold Ctx.checkPriv
  rw [h]
  rfl

theorem exists_privStep {o : Host.Outcome State Fault Refusal} {k : Unit → Except Stop State} (hv : s.me.tvec ≠ 0)
    (hi : s.me.intrap = false) (h : s.me.pl = false) (e : o = finish s (s.me.checkPriv >>= k)) :
    ∃ t, o = .next t ∧ TrapStep s t 0x04 0 0 :=
  exists_trapStep (t := ⟨.priv, 0, 0⟩) hv hi (e.trans (congrArg (finish s) (priv_bind h)))

end Sys2Proof.Machine

namespace Sys2Proof

open Machine

/-- Settles O17: the check for supervisor mode comes before everything else that these instructions do. -/
theorem privilegedInUserMode : Obligations.privileged_in_user_mode := by
  intro s hv hi hp
  refine ⟨fun i h => ?_, fun a i h => ?_, fun a i h => ?_, fun x r h => ⟨?_, ?_⟩, fun x => exists_privStep hv hi hp rfl⟩
  · fin_cases h <;> exact exists_privStep hv hi hp rfl
  · fin_cases h <;> exact exists_privStep hv hi hp rfl
  · fin_cases h <;> exact exists_privStep hv hi hp rfl
  · fin_cases h <;> exact exists_privStep hv hi hp rfl
  · fin_cases h <;> exact exists_privStep hv hi hp rfl

/-- Settles O13: with the operands in the window the address is looked at next, before any access. -/
theorem misalignedAccessesTrap : Obligations.misaligned_accesses_trap := by
  intro e he
  fin_cases he
  all_goals
    intro a s va hv hi hx hy hz ha
    exact exists_alignStep hv hi hx hy hz rfl (if_pos ha)

/-- Settles O22: each instruction looks at its operands in order before it does anything else. -/
theorem operandsBeyondTheWindowTrap : Obligations.operands_beyond_the_window_trap := by
  intro s hv hi g gz v vz
  refine ⟨fun a e he => ?_, fun a e he => ?_, fun a e he => ?_, fun a e he => ?_, fun a e he => ?_, fun a e he => ?_, fun a e he => ?_,
    fun a => ⟨fun e he => ?_, fun e he => ?_⟩, fun a => ?_, fun a e he => ?_, fun a e he => ?_, fun x y tg => ?_, fun a e he => ?_,
    fun a e he => ?_, fun a e he => ?_, fun a e he => ?_, fun a => ?_, fun a => ?_, fun a e he => ?_, fun a e he => ?_,
    fun a e he => ?_, fun a e he => ?_, fun a => ?_, fun a => ?_, fun x y d f q => ⟨?_, ?_⟩, fun a => ?_, fun a => ?_, fun a => ?_,
    fun a e he => ?_, fun a e he => ?_, fun a e he => ?_, fun a => ?_, fun a => ?_, fun a => ?_, fun a e he => ?_, fun a => ?_,
    fun a => ?_, fun a e he => ?_, fun a => ⟨?_, ?_, ?_⟩, fun a e he => ?_, fun a => ?_, fun a => ?_, fun a => ?_, fun a e he => ?_,
    fun a e he => ?_, rfl, fun _ _ => rfl, fun i => decide_eq_decide.mpr Nat.succ_le_iff⟩
  · fin_cases he
    all_goals exact limits_of_checks hv hi rfl checks_gbin
  · fin_cases he
    all_goals exact limits_of_checks hv hi rfl (checks_g (checks_g trivial))
  · fin_cases he
    all_goals exact limits_of_checks hv hi rfl (checks_g (checks_g (checks_g trivial)))
  · fin_cases he
    all_goals exact limits_of_checks hv hi rfl (checks_g trivial)
  · fin_cases he
    all_goals exact limits_of_checks hv hi rfl (checks_g trivial)
  · fin_cases he
    all_goals exact limits_of_checks hv hi rfl (checks_g trivial)
  · fin_cases he
    all_goals exact limits_of_checks hv hi rfl (checks_gbin (a := ⟨a.x, a.y, a.z⟩))
  · fin_cases he
    iterate 12 exact limits_of_checks hv hi rfl (checks_g (checks_g checks_z))
    iterate 5 exact limits_of_checks hv hi rfl checks_locateObject
    · exact limits_of_checks hv hi rfl checks_locateAperture
    · exact limits_of_checks hv hi rfl (checks_g (checks_g checks_z))
    iterate 2 exact limits_of_checks hv hi rfl checks_locateAperture
  · fin_cases he
    all_goals exact limits_of_checks hv hi rfl (checks_g (checks_g checks_z))
  · exact limits_of_checks hv hi rfl (checks_g checks_z)
  · fin_cases he
    all_goals exact limits_of_checks hv hi rfl (checks_g trivial)
  · fin_cases he
    all_goals exact limits_of_checks hv hi rfl (checks_g (checks_g (checks_g trivial)))
  · rcases tg with l | z
    · exact ⟨limits_of_checks hv hi rfl (checks_spawn (x := x) (t := .label l)),
        limits_of_checks hv hi rfl (checks_spawn2 (a := ⟨x, y, .label l⟩) (n := 1)),
        limits_of_checks hv hi rfl (checks_spawn2 (a := ⟨x, y, .label l⟩) (n := 2))⟩
    · exact ⟨limits_of_checks hv hi rfl (checks_spawn (x := x) (t := .reg z)),
        limits_of_checks hv hi rfl (checks_spawn2 (a := ⟨x, y, .reg z⟩) (n := 1)),
        limits_of_checks hv hi rfl (checks_spawn2 (a := ⟨x, y, .reg z⟩) (n := 2))⟩
  · fin_cases he
    all_goals exact limits_of_checks hv hi rfl (checks_v (checks_v checks_vz))
  · fin_cases he
    all_goals exact limits_of_checks hv hi rfl (checks_v (checks_v trivial))
  · fin_cases he
    all_goals exact limits_of_checks hv hi rfl (checks_p (checks_v (checks_v trivial)))
  · fin_cases he
    all_goals
      refine limits_of_checks hv hi rfl (checks_p (checks_p ?_))
      cases a.z with
      | none => trivial
      | some z => exact checks_p trivial
  · exact limits_of_checks hv hi rfl (checks_p (checks_p trivial))
  · exact limits_of_checks hv hi rfl (checks_p (checks_g trivial))
  · fin_cases he
    all_goals exact limits_of_checks hv hi rfl (checks_g (checks_p trivial))
  · fin_cases he
    all_goals exact limits_of_checks hv hi rfl checks_vmem
  · fin_cases he
    all_goals exact limits_of_checks hv hi rfl checks_vgather
  · fin_cases he
    all_goals exact limits_of_checks hv hi rfl (checks_g (checks_v checks_z))
  · exact limits_of_checks hv hi rfl (checks_g (checks_v checks_z))
  · exact limits_of_checks hv hi rfl (checks_v (checks_g checks_z))
  · exact limits_of_checks hv hi rfl (checks_v (checks_assoc (checks_g trivial)))
  · exact limits_of_checks hv hi rfl (checks_v (checks_assoc (checks_v (checks_assoc (checks_g trivial)))))
  · exact limits_of_checks hv hi rfl (checks_g (checks_g trivial))
  · exact limits_of_checks hv hi rfl (checks_g trivial)
  · exact limits_of_checks hv hi rfl (checks_v trivial)
  · fin_cases he
    all_goals exact limits_of_checks hv hi rfl checks_mbin
  · fin_cases he
    all_goals exact limits_of_checks hv hi rfl (checks_v (checks_v (checks_v trivial)))
  · fin_cases he
    all_goals exact limits_of_checks hv hi rfl (checks_v (checks_v trivial))
  · exact limits_of_checks hv hi rfl (checks_v (checks_v checks_z))
  · exact limits_of_checks hv hi rfl (checks_g (checks_v checks_z))
  · exact limits_of_checks hv hi rfl (checks_g (checks_v trivial))
  · fin_cases he
    all_goals exact limits_of_checks hv hi rfl (checks_a (fun _ => checks_t (checks_t trivial)))
  · exact limits_of_checks hv hi rfl (checks_a (fun _ => trivial))
  · exact limits_of_checks hv hi rfl (checks_a (fun _ => checks_g trivial))
  · fin_cases he
    all_goals exact limits_of_checks hv hi rfl (checks_a (fun _ => checks_g checks_z))
  · exact limits_of_checks hv hi rfl (checks_v (checks_a (fun _ => checks_g trivial)))
  · exact limits_of_checks hv hi rfl (checks_a (fun _ => checks_v (checks_g trivial)))
  · exact limits_of_checks hv hi rfl (checks_t (checks_t (checks_g trivial)))
  · fin_cases he
    all_goals exact limits_of_checks hv hi rfl (checks_t (checks_g checks_z))
  · exact limits_of_checks hv hi rfl (checks_t (checks_g checks_z))
  · exact limits_of_checks hv hi rfl (checks_t (checks_g trivial))
  · exact limits_of_checks hv hi rfl (checks_t checks_z)
  · fin_cases he
    all_goals exact limits_of_checks hv hi rfl (checks_t (checks_t trivial))
  · fin_cases he
    all_goals exact limits_of_checks hv hi rfl (checks_t trivial)

end Sys2Proof
end

-- The registers of the reset state (O14)
section
/-!
The fields of FMTW and the gated banks are computed from the record at reset; every other register is read from it as it stands.
-/

set_option Elab.async false

namespace Sys2Proof.Machine

theorem reset_fmtw_fields (c : Nat) :
    (Ctx.reset c).rmode = 0 ∧ (Ctx.reset c).mmode = 0 ∧ bitsOf (Ctx.reset c).fmtw.toNat 11 8 = 8 := by
  have h : (Ctx.reset c).fmtw = 0x0888 := rfl
  unfold Ctx.rmode Ctx.mmode
  rw [h]
  decide

theorem reset_bgate (k : Nat) :
    (Stall.reset k).bgate.toNat + gatedBits (Stall.reset k) 0 * 2 ^ 32 + gatedBits (Stall.reset k) 8 * 2 ^ 40 = 0x10000 := by
  have hb : (Stall.reset k).bgate = 0x10000 := rfl
  have hg (b : Nat) : gatedBits (Stall.reset k) b = 0 := rfl
  rw [hb, hg, hg]
  rfl

end Sys2Proof.Machine

namespace Sys2Proof

open Machine

/-- Settles O14: nothing is listed in the reset state, so that every register reads what its file or record holds at reset. -/
theorem resetRegisters : Obligations.reset_registers := by
  refine ⟨reset_memory_wf, fun c _ => ⟨fun e he => ?_, fun r => ?_, fun _ => rfl, fun _ => ⟨rfl, rfl⟩, rfl⟩⟩
  · obtain ⟨hr, hm, ht⟩ := reset_fmtw_fields (c % 64)
    fin_cases he
    iterate 2 rfl
    · exact congrArg w64 hr
    · exact congrArg w64 ht
    iterate 3 rfl
    · exact congrArg w64 hm
    iterate 23 rfl
    · exact congrArg w64 (reset_bgate _)
    iterate 2 rfl
  · cases r with
    | o i => rfl
    | lat => rfl
    | g i => exact ite_self 0

end Sys2Proof
end

-- The decoder on encodings
section
/-! The decoder on the encoder's words (R67 to R85): the PFX words of an encoding and its base word give its parts back; each row's
parts pass the checks of R79 as that row's; so every well-formed instruction's words decode to it. -/

set_option Elab.async false

namespace Sys2Proof

/-! The words of an encoding. -/

/-- The PFX words of an encoding, in the order of R85. -/
def Parts.pfx (e : Parts) : List Word16 :=
  optWord 3 (if e.page = 0 then none else some e.page) ++ optWord 2 e.thr ++ optWord 1 e.rgx ++ optWord 4 e.ord ++
  optWord 5 e.fmx ++ optWord 6 e.prd ++ e.imx.map (pfxWord 0)
/-- The words of an encoding as the decoder takes them apart. -/
def Parts.raw (e : Parts) : Raw := ⟨e.pfx, BitVec.ofNat 16 (e.maj * 2 ^ 11 + e.x * 2 ^ 7 + e.y * 2 ^ 3 + e.fn)⟩

theorem Parts.words_eq (e : Parts) : e.words = e.raw.ps ++ [e.raw.base] := rfl

/-- Every part fits its field. -/
structure Parts.Small (e : Parts) : Prop where
  page : e.page ≤ 8
  maj : e.maj < 31
  fn : e.fn < 8
  x : e.x < 16
  y : e.y < 16
  thr : ∀ p ∈ e.thr, p < 256
  rgx : ∀ p ∈ e.rgx, p < 256
  ord : ∀ p ∈ e.ord, p < 256
  fmx : ∀ p ∈ e.fmx, p < 256
  prd : ∀ p ∈ e.prd, p < 256
  imx : ∀ p ∈ e.imx, p < 256

section
variable {k p : Nat} (hk : k < 8) (hp : p < 256)
include hk hp

theorem toNat_pfxWord : (pfxWord k p).toNat = 31 * 2 ^ 11 + k * 2 ^ 8 + p := by
  rw [pfxWord, BitVec.toNat_ofNat, Nat.mod_eq_of_lt (by omega)]

theorem isPfx_pfxWord : isPfx (pfxWord k p) = true := by
  rw [isPfx, majOf, toNat_pfxWord hk hp, beq_iff_eq]
  omega

theorem kindOf_pfxWord : kindOf (pfxWord k p) = k := by
  rw [kindOf, toNat_pfxWord hk hp]
  omega

theorem payloadOf_pfxWord : payloadOf (pfxWord k p) = p := by
  rw [payloadOf, toNat_pfxWord hk hp]
  omega
end

/-- A PFX word of an encoding, by its kind and payload. -/
theorem Parts.mem_pfx {e : Parts} (h : e.Small) {w : Word16} (hw : w ∈ e.pfx) :
    ∃ k p, k < 7 ∧ p < 256 ∧ w = pfxWord k p ∧
      ((k = 3 ∧ e.page = p ∧ p ≠ 0) ∨ (k = 2 ∧ e.thr = some p) ∨ (k = 1 ∧ e.rgx = some p) ∨
      (k = 4 ∧ e.ord = some p) ∨ (k = 5 ∧ e.fmx = some p) ∨ (k = 6 ∧ e.prd = some p) ∨ (k = 0 ∧ p ∈ e.imx)) := by
  have opt {j : Nat} {o : Option Nat} (hw : w ∈ optWord j o) : ∃ p, o = some p ∧ w = pfxWord j p := by
    cases o with
    | none => cases hw
    | some p => exact ⟨p, rfl, List.mem_singleton.mp hw⟩
  have hpage := h.page
  simp only [Parts.pfx, List.mem_append, List.mem_map] at hw
  rcases hw with (((((hw | hw) | hw) | hw) | hw) | hw) | ⟨p, hp, rfl⟩
  · obtain ⟨p, ep, rfl⟩ := opt hw
    split at ep
    · cases ep
    · cases ep
      exact ⟨3, _, by omega, by omega, rfl, .inl ⟨rfl, rfl, ‹_›⟩⟩
  · obtain ⟨p, ep, rfl⟩ := opt hw
    exact ⟨2, p, by omega, h.thr p ep, rfl, by simp [ep]⟩
  · obtain ⟨p, ep, rfl⟩ := opt hw
    exact ⟨1, p, by omega, h.rgx p ep, rfl, by simp [ep]⟩
  · obtain ⟨p, ep, rfl⟩ := opt hw
    exact ⟨4, p, by omega, h.ord p ep, rfl, by simp [ep]⟩
  · obtain ⟨p, ep, rfl⟩ := opt hw
    exact ⟨5, p, by omega, h.fmx p ep, rfl, by simp [ep]⟩
  · obtain ⟨p, ep, rfl⟩ := opt hw
    exact ⟨6, p, by omega, h.prd p ep, rfl, by simp [ep]⟩
  · exact ⟨0, p, by omega, h.imx p hp, rfl, by simp [hp]⟩

/-! The PFX words of a kind. -/

theorem findKind_append (k i : Nat) (l r : List Word16) :
    findKind k i (l ++ r) = (findKind k i l).or (findKind k (i + l.length) r) := by
  induction l generalizing i with
  | nil => simp [findKind]
  | cons w l ih =>
    simp only [List.cons_append, findKind, List.length_cons]
    split
    · rfl
    · rw [ih, Nat.add_assoc, Nat.add_comm 1]

theorem findKind_optWord {k j i : Nat} {o : Option Nat} (hj : j < 8) (ho : ∀ p ∈ o, p < 256) :
    findKind k i (optWord j o) = if j = k then o.map (·, i) else none := by
  cases o with
  | none => simp [optWord, findKind]
  | some p =>
    simp [optWord, findKind, kindOf_pfxWord hj (ho p rfl), payloadOf_pfxWord hj (ho p rfl)]

theorem findKind_imx {k i : Nat} {l : List Nat} (hk : k ≠ 0) (hl : ∀ p ∈ l, p < 256) : findKind k i (l.map (pfxWord 0)) = none := by
  induction l generalizing i with
  | nil => rfl
  | cons p l ih =>
    rw [List.map_cons, findKind, kindOf_pfxWord (by omega) (hl p (List.mem_cons_self ..)), if_neg hk.symm]
    exact ih (fun q hq => hl q (List.mem_cons_of_mem _ hq))

section
variable {e : Parts} (h : e.Small)
include h

theorem Parts.pag_lt : ∀ p ∈ (if e.page = 0 then none else some e.page), p < 256 := by
  have := h.page
  intro p hp
  split at hp
  · cases hp
  · cases hp
    omega

/-- What a kind of PFX word says, by the order of the kinds. -/
theorem Parts.findKind_pfx {k : Nat} (hk : k ≠ 0) : (findKind k 0 e.pfx).map (·.1) =
    (((((if 3 = k then (if e.page = 0 then none else some e.page) else none).or (if 2 = k then e.thr else none)).or
      (if 1 = k then e.rgx else none)).or (if 4 = k then e.ord else none)).or (if 5 = k then e.fmx else none)).or
      (if 6 = k then e.prd else none) := by
  have fst {c : Prop} [Decidable c] {o : Option Nat} {i : Nat} :
      (if c then o.map (·, i) else none).map Prod.fst = if c then o else none := by
    split
    · rw [Option.map_map]
      exact Option.map_id'
    · rfl
  rw [Parts.pfx]
  simp only [findKind_append, Option.map_or]
  rw [findKind_optWord (by omega) (e.pag_lt h), findKind_optWord (by omega) h.thr, findKind_optWord (by omega) h.rgx,
    findKind_optWord (by omega) h.ord, findKind_optWord (by omega) h.fmx, findKind_optWord (by omega) h.prd, findKind_imx hk h.imx]
  simp only [fst, Option.map_none, Option.or_none]

theorem Parts.raw_page : (findKind 3 0 e.raw.ps).map (·.1) = if e.page = 0 then none else some e.page :=
  (e.findKind_pfx h (k := 3) (by omega)).trans (by simp)
theorem Parts.raw_thr : e.raw.kind 2 = e.thr := (e.findKind_pfx h (k := 2) (by omega)).trans (by simp)
theorem Parts.raw_rgx : e.raw.kind 1 = e.rgx := (e.findKind_pfx h (k := 1) (by omega)).trans (by simp)
theorem Parts.raw_ord : e.raw.kind 4 = e.ord := (e.findKind_pfx h (k := 4) (by omega)).trans (by simp)
theorem Parts.raw_fmx : e.raw.kind 5 = e.fmx := (e.findKind_pfx h (k := 5) (by omega)).trans (by simp)
theorem Parts.raw_prd : e.raw.kind 6 = e.prd := (e.findKind_pfx h (k := 6) (by omega)).trans (by simp)

theorem Parts.filter_pfx : e.pfx.filter (fun w => kindOf w = 0) = e.imx.map (pfxWord 0) := by
  have opt {j : Nat} {o : Option Nat} (hj : j < 8) (h0 : j ≠ 0) (ho : ∀ p ∈ o, p < 256) :
      (optWord j o).filter (fun w => kindOf w = 0) = [] := by
    cases o with
    | none => rfl
    | some p => simp [optWord, kindOf_pfxWord hj (ho p rfl), h0]
  rw [Parts.pfx]
  simp only [List.filter_append]
  rw [opt (by omega) (by omega) (e.pag_lt h), opt (by omega) (by omega) h.thr, opt (by omega) (by omega) h.rgx,
    opt (by omega) (by omega) h.ord, opt (by omega) (by omega) h.fmx, opt (by omega) (by omega) h.prd]
  simp only [List.nil_append, List.filter_eq_self, List.mem_map, decide_eq_true_eq]
  rintro _ ⟨p, hp, rfl⟩
  exact kindOf_pfxWord (by omega) (h.imx p hp)

theorem Parts.raw_imx : e.raw.imx = e.imx := by
  rw [Raw.imx, show e.raw.ps = e.pfx from rfl, e.filter_pfx h, List.map_map]
  exact (List.map_congr_left (fun p hp => payloadOf_pfxWord (by omega) (h.imx p hp))).trans (List.map_id _)

/-! The fields of the base word. -/

theorem Parts.toNat_base : e.raw.base.toNat = e.maj * 2 ^ 11 + e.x * 2 ^ 7 + e.y * 2 ^ 3 + e.fn := by
  have := h.maj
  have := h.x
  have := h.y
  have := h.fn
  exact Nat.mod_eq_of_lt (by omega)

theorem Parts.raw_maj : e.raw.maj = e.maj := by
  have := h.x
  have := h.y
  have := h.fn
  rw [Raw.maj, majOf, e.toNat_base h]
  omega
theorem Parts.raw_x : e.raw.x = e.x := by
  have := h.x
  have := h.y
  have := h.fn
  rw [Raw.x, e.toNat_base h]
  omega
theorem Parts.raw_y : e.raw.y = e.y := by
  have := h.y
  have := h.fn
  rw [Raw.y, e.toNat_base h]
  omega
theorem Parts.raw_fn : e.raw.fn = e.fn := by
  have := h.fn
  rw [Raw.fn, e.toNat_base h]
  omega
theorem Parts.isPfx_base : isPfx e.raw.base = false := by
  have hm : majOf e.raw.base = e.maj := e.raw_maj h
  have := h.maj
  rw [isPfx, hm, beq_eq_false_iff_ne]
  omega

end

/-! Scanning. -/

/-- Each word of `ps` is one more PFX word after those before it. -/
def Scans (ps : List Word16) : Prop := ∀ l w r, ps = l ++ w :: r → scanStep l w = .more (l ++ [w])

theorem findKind_isSome {k i : Nat} {l : List Word16} : (findKind k i l).isSome = true ↔ ∃ w ∈ l, kindOf w = k := by
  induction l generalizing i with
  | nil => simp [findKind]
  | cons w l ih =>
    rw [findKind]
    split
    · simp [*]
    · simp [*]

/-- A kind other than IMX stands at most once in an encoding (R73 to R78). -/
theorem Parts.countP_pfx_le {e : Parts} (h : e.Small) {k : Nat} (hk : k ≠ 0) : e.pfx.countP (fun w => kindOf w = k) ≤ 1 := by
  have opt {j : Nat} {o : Option Nat} (hj : j < 8) (ho : ∀ p ∈ o, p < 256) :
      (optWord j o).countP (fun w => kindOf w = k) ≤ if j = k then 1 else 0 := by
    cases o with
    | none => simp [optWord]
    | some p =>
      rw [optWord, List.countP_singleton, kindOf_pfxWord hj (ho p rfl)]
      simp
  have imx : (e.imx.map (pfxWord 0)).countP (fun w => kindOf w = k) = 0 := by
    simp only [List.countP_eq_zero, List.mem_map, decide_eq_true_eq]
    rintro _ ⟨p, hp, rfl⟩
    rw [kindOf_pfxWord (by omega) (h.imx p hp)]
    exact hk.symm
  have h3 := opt (by omega) (e.pag_lt h) (j := 3)
  have h2 := opt (by omega) h.thr (j := 2)
  have h1 := opt (by omega) h.rgx (j := 1)
  have h4 := opt (by omega) h.ord (j := 4)
  have h5 := opt (by omega) h.fmx (j := 5)
  have h6 := opt (by omega) h.prd (j := 6)
  have hsum : (if 3 = k then 1 else 0) + (if 2 = k then 1 else 0) + (if 1 = k then 1 else 0) + (if 4 = k then 1 else 0) +
      (if 5 = k then 1 else 0) + (if 6 = k then 1 else 0) ≤ 1 := by split_ifs <;> omega
  simp only [Parts.pfx, List.countP_append, imx]
  omega

theorem Parts.scans {e : Parts} (h : e.Small) (hl : e.pfx.length ≤ 4) : Scans e.pfx := by
  intro l w r hps
  obtain ⟨k, p, hk, hp, rfl, hw⟩ := e.mem_pfx h (w := w) (by simp [hps])
  have hlen : l.length < 4 := by
    have := congrArg List.length hps
    simp only [List.length_append, List.length_cons] at this
    omega
  have hdup : ¬(k ≠ 0 ∧ (findKind k 0 l).isSome = true) := by
    rintro ⟨h0, hs⟩
    have hc := e.countP_pfx_le h h0
    rw [hps, List.countP_append, List.countP_cons_of_pos (by simp [kindOf_pfxWord (by omega : k < 8) hp])] at hc
    have hz : l.countP (fun w => kindOf w = k) = 0 := by omega
    obtain ⟨v, hv, hkv⟩ := findKind_isSome.mp hs
    exact List.countP_eq_zero.mp hz v hv (by simp [hkv])
  rw [scanStep, isPfx_pfxWord (by omega) hp, kindOf_pfxWord (by omega) hp, if_pos rfl, if_neg (by omega), if_neg (by omega), if_neg hdup]

/-! Operands of an encoding, decoded. -/

theorem GReg.code_lt (g : GReg) : g.code < 16 := by
  cases g with
  | o i => exact Nat.lt_trans i.isLt (by omega)
  | lat => exact (by omega : 8 < 16)
  | g i =>
    rw [GReg.code]
    split <;> omega

theorem GReg.index_lt (g : GReg) : g.index < 128 := by
  cases g with
  | g i => exact i.isLt
  | _ => exact Nat.succ_pos _

theorem GReg.code_of_not_direct {g : GReg} (h : g.direct = false) : g.code = 0 := by
  cases g with
  | o i => cases h
  | lat => cases h
  | g i => exact if_neg (of_decide_eq_false h)

theorem gCode_code {g : GReg} (h : g.direct = true) : Raw.gCode g.code = g := by
  cases g with
  | o i => simp [GReg.code, Raw.gCode]
  | lat => rfl
  | g i =>
    have hi : i.val < 7 := of_decide_eq_true h
    simp [GReg.code, Raw.gCode, hi]

theorem g_index {g : GReg} (h : g.direct = false) : GReg.g (Fin.ofNat 128 g.index) = g := by
  cases g with
  | o i => cases h
  | lat => cases h
  | g i => simp [GReg.index]

theorem idxCode_lt (i : Idx) : idxCode i < 16 := by
  rw [idxCode]
  split
  · exact of_decide_eq_true ‹_›
  · omega

theorem idxCode_of_direct {i : Idx} (h : idxDirect i = true) : idxCode i = i.val := if_pos h
theorem idxCode_of_not_direct {i : Idx} (h : idxDirect i = false) : idxCode i = 0 := by simp [idxCode, h]

/-- What a field of the base word and RGX hold together: a code where `direct`, and else an index in RGX (R69, R73). -/
structure BaseField where
  direct : Bool
  code : Nat
  index : Nat
  code_lt : code < 16
  index_lt : index < 128
  code_zero : direct = false → code = 0

def GReg.field (g : GReg) : BaseField := ⟨g.direct, g.code, g.index, g.code_lt, g.index_lt, GReg.code_of_not_direct⟩
def idxField (i : Idx) : BaseField := ⟨idxDirect i, idxCode i, i.val, idxCode_lt i, i.isLt, idxCode_of_not_direct⟩
/-- A field that names no register. -/
def bitsField (n : Nat) (h : n < 16) : BaseField := ⟨true, n, 0, h, Nat.succ_pos _, nofun⟩
def noField : BaseField := bitsField 0 (Nat.succ_pos _)

/-- RGX reaches one field. -/
theorem rgxOf_lt {a b : Bool} {i j : Nat} (hi : i < 128) (hj : j < 128) : ∀ p ∈ rgxOf a i b j, p < 256 := by
  intro p hp
  cases a <;> cases b <;> cases hp <;> omega

/-- An encoding holds these two fields. -/
structure Parts.Holds (e : Parts) (x y : BaseField) : Prop where
  small : e.Small
  rgx : e.rgx = rgxOf (!x.direct) x.index (!y.direct) y.index
  codeX : e.x = x.code
  codeY : e.y = y.code
  one : ¬((!x.direct) = true ∧ (!y.direct) = true)

section
variable {e : Parts} {x y : BaseField} (h : e.Holds x y)
include h

theorem Parts.Holds.rgxX : e.raw.rgxX = if x.direct then none else some x.index := by
  have hi := x.index_lt
  rw [Raw.rgxX, e.raw_rgx h.small, h.rgx]
  cases x.direct <;> cases y.direct <;> simp [rgxOf, hi]

theorem Parts.Holds.rgxY : e.raw.rgxY = if y.direct then none else some y.index := by
  have hi := x.index_lt
  have hone := h.one
  rw [Raw.rgxY, e.raw_rgx h.small, h.rgx]
  revert hone
  cases x.direct <;> cases y.direct <;> simp [rgxOf, hi]
end

theorem Parts.Holds.rawX {e : Parts} {x y : BaseField} (h : e.Holds x y) : e.raw.x = x.code := (e.raw_x h.small).trans h.codeX
theorem Parts.Holds.rawY {e : Parts} {x y : BaseField} (h : e.Holds x y) : e.raw.y = y.code := (e.raw_y h.small).trans h.codeY

section
variable {e : Parts} {x y : BaseField} {g : GReg} {n : Idx}

theorem gCode_field (g : GReg) : (match (if g.direct then none else some g.index) with
    | some i => .g (Fin.ofNat 128 i)
    | none => Raw.gCode g.code) = g := by
  cases hd : g.direct with
  | true => exact gCode_code hd
  | false => exact g_index hd

theorem idxCode_field (n : Idx) : (Fin.ofNat 128 ((if idxDirect n then none else some n.val).getD (idxCode n)) : Idx) = n := by
  cases hd : idxDirect n with
  | true => simp [idxCode_of_direct hd]
  | false => simp

theorem Parts.Holds.xG (h : e.Holds g.field y) : e.raw.xG = g := by
  rw [Raw.xG, h.rgxX, h.rawX]
  exact gCode_field g

theorem Parts.Holds.yG (h : e.Holds x g.field) : e.raw.yG = g := by
  rw [Raw.yG, h.rgxY, h.rawY]
  exact gCode_field g

theorem Parts.Holds.xI (h : e.Holds (idxField n) y) : e.raw.xI = n := by
  rw [Raw.xI, h.rgxX, h.rawX]
  exact idxCode_field n

theorem Parts.Holds.yI (h : e.Holds x (idxField n)) : e.raw.yI = n := by
  rw [Raw.yI, h.rgxY, h.rawY]
  exact idxCode_field n
end

/-! Z, ORD, FMX and PRD. -/

section
variable {e : Parts} (h : e.Small)
include h

theorem Parts.raw_z : e.raw.z = e.thr.map (· / 16) := by rw [Raw.z, e.raw_thr h]

theorem Parts.zG_eq {z : Option GReg} (hz : zDirect z = true) (ht : e.thr = thrG z) : e.raw.zG = z := by
  rw [Raw.zG, e.raw_z h, ht]
  cases z with
  | none => rfl
  | some z => simpa [thrG] using gCode_code hz

theorem Parts.zI_eq {z : Option Idx} (ht : e.thr = thrI z) : e.raw.zI = z := by
  rw [Raw.zI, e.raw_z h, ht]
  cases z <;> simp [thrI]

theorem Parts.zG!_eq {z : GReg} (hz : z.direct = true) (ht : e.thr = thrG (some z)) : e.raw.zG! = z := by
  rw [Raw.zG!, e.raw_z h, ht]
  simpa [thrG] using gCode_code hz

theorem Parts.zI!_eq {z : Idx} (ht : e.thr = thrI (some z)) : e.raw.zI! = z := by
  rw [Raw.zI!, e.raw_z h, ht]
  simp [thrI]
end

theorem ordOf_code (q : OrdQ) : Raw.ordOf q.code = q := by
  obtain ⟨s, o, b, p⟩ := q
  cases s <;> cases o <;> cases b <;> cases p <;> rfl
theorem OrdQ.code_lt (q : OrdQ) : q.code < 192 := by
  obtain ⟨s, o, b, p⟩ := q
  cases s <;> cases o <;> cases b <;> cases p <;> decide
theorem fmtOf_code (f : Fmt) : Raw.fmtOf f.code = f := by cases f <;> rfl
theorem Fmt.code_lt (f : Fmt) : f.code < 16 := by cases f <;> decide

section
variable {e : Parts} (h : e.Small)
include h

theorem Parts.ord_eq {q : Option OrdQ} (ho : e.ord = ordPart q) : e.raw.ord = q := by
  rw [Raw.ord, e.raw_ord h, ho]
  cases q with
  | none => rfl
  | some q => exact congrArg some (ordOf_code q)

theorem Parts.fmt_eq {f : Option Fmt} (hf : e.fmx = fmxPart f) : e.raw.fmt = f := by
  rw [Raw.fmt, e.raw_fmx h, hf]
  cases f with
  | none => rfl
  | some f => simp [fmxPart, fmtOf_code]

theorem Parts.prd_eq {p : Option Prd} (hp : e.prd = prdPart p) : e.raw.prd = p := by
  rw [Raw.prd, e.raw_prd h, hp]
  cases p with
  | none => rfl
  | some p =>
    obtain ⟨⟨n, hn⟩, b⟩ := p
    have h1 : (n * 32 + b.toNat * 16) / 32 = n := by cases b <;> simp <;> omega
    have h2 : ((n * 32 + b.toNat * 16) / 16 % 2 == 1) = b := by cases b <;> (simp; omega)
    simp only [prdPart, Option.map_some, h1, h2, Option.some.injEq, Prd.mk.injEq, and_true]
    exact Fin.ext (Nat.mod_eq_of_lt hn)
end

/-! Immediates. -/

/-- `v` is what `n` IMX words and `b` base bits can say (R72). -/
def ImmFits (n b : Nat) (v : Word) : Prop :=
  (n = 0 ∧ b = 0 ∧ v = 0) ∨ (0 < 8 * n + b ∧ -(2 ^ (8 * n + b - 1) : Int) ≤ v.toInt ∧ v.toInt < 2 ^ (8 * n + b - 1))

theorem immFits_immWords {b : Nat} {v : Word} (h : immWords b v ≤ 4) : ImmFits (immWords b v) b v := by
  unfold immWords at h ⊢
  split_ifs at h ⊢ with h0 h1 h2 h3 h4 h5
  · exact .inl ⟨rfl, h0⟩
  · exact .inr ⟨by omega, by simpa using h1.2⟩
  · exact .inr ⟨by omega, by simpa [Nat.add_comm] using h2⟩
  · exact .inr ⟨by omega, by simpa [Nat.add_comm] using h3⟩
  · exact .inr ⟨by omega, by simpa [Nat.add_comm] using h4⟩
  · exact .inr ⟨by omega, by simpa [Nat.add_comm] using h5⟩
  · omega

theorem length_immPayloads (n b : Nat) (v : Word) : (immPayloads n b v).length = n := by simp [immPayloads]

theorem immPayloads_lt (n b : Nat) (v : Word) : ∀ p ∈ immPayloads n b v, p < 256 := by
  intro p hp
  obtain ⟨k, -, rfl⟩ := List.mem_map.mp hp
  exact Nat.mod_lt _ (by omega)

theorem foldl_immPayloads {n b : Nat} {v : Word} (hn : n ≤ 4) :
    (immPayloads n b v).foldl (fun a p => a * 256 + p) 0 * 2 ^ b + immBase n b v = immBits n b v := by
  have hlt : immBits n b v / 2 ^ b < 2 ^ (8 * n) := by
    rw [Nat.div_lt_iff_lt_mul (by positivity), ← pow_add]
    exact Nat.mod_lt _ (by positivity)
  have hd : immBits n b v = immBits n b v / 2 ^ b * 2 ^ b + immBase n b v := (Nat.div_add_mod' _ _).symm
  suffices hf : (immPayloads n b v).foldl (fun a p => a * 256 + p) 0 = immBits n b v / 2 ^ b by rw [hf, ← hd]
  simp only [immPayloads, pow_add, ← Nat.div_div_eq_div_mul]
  generalize immBits n b v / 2 ^ b = t at *
  interval_cases n <;> simp [List.range_succ] <;> omega

theorem signExtend_immBits {n b : Nat} {v : Word} (hb : 8 * n + b ≤ 64) (h : ImmFits n b v) :
    Raw.signExtend (8 * n + b) (immBits n b v) = v := by
  rcases h with ⟨rfl, rfl, rfl⟩ | ⟨h0, hl, hu⟩
  · rfl
  obtain ⟨k, hk⟩ : ∃ k, 8 * n + b = k + 1 := ⟨8 * n + b - 1, by omega⟩
  rw [immBits, Raw.signExtend, hk, if_neg (by omega), Nat.add_sub_cancel]
  rw [hk, Nat.add_sub_cancel] at hl hu
  have hR : 2 ^ (k + 1) * 2 ^ (63 - k) = 2 ^ 64 := by rw [← pow_add, show k + 1 + (63 - k) = 64 by omega]
  have hK : 2 ^ (k + 1) = 2 * 2 ^ k := by ring
  have hv := v.toInt_eq_toNat_cond
  have hlt := v.isLt
  have hc : ((2 : Int) ^ k) = ((2 ^ k : Nat) : Int) := by push_cast; rfl
  have hc1 : ((2 : Int) ^ (k + 1)) = 2 * ((2 ^ k : Nat) : Int) := by push_cast; ring
  rw [hc] at hl hu
  rw [hc1]
  by_cases hneg : 2 * v.toNat < 2 ^ 64
  · rw [if_pos hneg] at hv
    have hm : v.toNat % 2 ^ (k + 1) = v.toNat := Nat.mod_eq_of_lt (by omega)
    rw [hm, if_pos (by omega), BitVec.ofNat_toNat, BitVec.setWidth_eq]
  · rw [if_neg hneg] at hv
    have hm : v.toNat % 2 ^ (k + 1) = v.toNat + 2 * 2 ^ k - 2 ^ 64 := by
      have h2 : v.toNat = v.toNat + 2 * 2 ^ k - 2 ^ 64 + 2 ^ (k + 1) * (2 ^ (63 - k) - 1) := by
        rw [Nat.mul_sub, hR, hK]
        have := Nat.le_of_dvd (by positivity) (Dvd.intro _ hR)
        omega
      conv_lhs => rw [h2]
      rw [Nat.add_mul_mod_self_left, Nat.mod_eq_of_lt (by omega)]
    rw [hm, if_neg (by omega)]
    have hi : ((v.toNat + 2 * 2 ^ k - 2 ^ 64 : Nat) : Int) - 2 * ((2 ^ k : Nat) : Int) = v.toInt := by omega
    rw [hi, BitVec.ofInt_toInt]

theorem Parts.imm_eq {e : Parts} (h : e.Small) {n b : Nat} {v : Word} (hn : n ≤ 4) (hb : b ≤ 32) (hv : ImmFits n b v)
    (hi : e.imx = immPayloads n b v) : e.raw.imm b (immBase n b v) = v := by
  rw [Raw.imm, e.raw_imx h, hi, length_immPayloads, foldl_immPayloads hn, signExtend_immBits (by omega) hv]

/-! The checks of R79 on an encoding. -/

/-- An encoding passes the checks of R79 as a row's, and its words build the instruction. -/
structure Parts.Fits (row : Row) (e : Parts) (i : Instr) : Prop where
  small : e.Small
  words : e.pfx.length ≤ 4
  thr : ∀ p ∈ e.thr, (row.rules true).thr ≠ .no ∧ payloadOk row (row.rules true) (pfxWord 2 p) = true
  thrReq : e.thr = none → (row.rules false).thr ≠ .req
  rgx : ∀ p ∈ e.rgx, if p < 128 then (row.rules e.thr.isSome).x = .reg else (row.rules e.thr.isSome).y = .reg
  ord : ∀ p ∈ e.ord, p / 32 < 6 ∧ (row.rules e.thr.isSome).ord.ok (Raw.ordOf p) = true
  fmx : ∀ p ∈ e.fmx, p % 16 = 0 ∧ (row.rules e.thr.isSome).fmx = true
  prd : ∀ p ∈ e.prd, p % 16 = 0 ∧ (row.rules e.thr.isSome).prd = true
  imx : ∀ p ∈ e.imx, payloadOk row (row.rules e.thr.isSome) (pfxWord 0 p) = true
  imxMin : (row.rules e.thr.isSome).imxMin ≤ e.imx.length
  imxMax : e.imx.length ≤ (row.rules e.thr.isSome).imxMax
  fieldX : fieldOk (row.rules e.thr.isSome).x e.raw.rgxX.isSome e.x = true
  fieldY : fieldOk (row.rules e.thr.isSome).y e.raw.rgxY.isSome e.y = true
  baseOk : row.baseOk e.raw = true
  build : row.build e.raw = some i

theorem firstBad_eq_none {u : Rules} {pg i nth : Nat} {ws : List Word16} (h : ∀ w ∈ ws, kindOf w ≠ 0 → ∀ n, applicable u pg n w = true)
    (hn : nth + ws.countP (fun w => kindOf w = 0) ≤ u.imxMax) : firstBad u pg i nth ws = none := by
  induction ws generalizing i nth with
  | nil => rfl
  | cons w ws ih =>
    have hw : applicable u pg nth w = true := by
      by_cases h0 : kindOf w = 0
      · rw [List.countP_cons_of_pos (by simpa using h0)] at hn
        simp only [applicable, h0]
        exact decide_eq_true (by omega)
      · exact h w (List.mem_cons_self ..) h0 nth
    rw [firstBad, if_pos hw]
    refine ih (fun v hv => h v (List.mem_cons_of_mem _ hv)) ?_
    by_cases h0 : kindOf w = 0
    · rw [List.countP_cons_of_pos (by simpa using h0)] at hn
      rw [if_pos h0]
      omega
    · rw [List.countP_cons_of_neg (by simpa using h0)] at hn
      rwa [if_neg h0]

theorem firstRes0_eq_none {row : Row} {u : Rules} {i : Nat} {ws : List Word16} (h : ∀ w ∈ ws, payloadOk row u w = true) :
    firstRes0 row u i ws = none := by
  induction ws generalizing i with
  | nil => rfl
  | cons w ws ih =>
    rw [firstRes0, if_pos (h w (List.mem_cons_self ..))]
    exact ih (fun v hv => h v (List.mem_cons_of_mem _ hv))

theorem Parts.countP_pfx_imx {e : Parts} (h : e.Small) : e.pfx.countP (fun w => kindOf w = 0) = e.imx.length := by
  rw [List.countP_eq_length_filter, e.filter_pfx h, List.length_map]

/-- An encoding of at most four PFX words decodes to an instruction (R67, R79). -/
structure Parts.Decodes (e : Parts) (i : Instr) : Prop where
  small : e.Small
  words : e.pfx.length ≤ 4
  decode : decodeRaw e.raw = .ok i

section
variable {row : Row} {e : Parts} {i : Instr} (hf : e.Fits row i)
include hf

theorem Parts.Fits.word_ok {w : Word16} (hw : w ∈ e.pfx) :
    (kindOf w ≠ 0 → ∀ n, applicable (row.rules e.thr.isSome) e.page n w = true) ∧ payloadOk row (row.rules e.thr.isSome) w = true := by
  obtain ⟨k, p, hk, hp, rfl, hc⟩ := e.mem_pfx hf.small hw
  have hkd := kindOf_pfxWord (show k < 8 by omega) hp
  have hpl := payloadOf_pfxWord (show k < 8 by omega) hp
  rcases hc with ⟨rfl, rfl, h0⟩ | ⟨rfl, ht⟩ | ⟨rfl, hr⟩ | ⟨rfl, ho⟩ | ⟨rfl, hm⟩ | ⟨rfl, hd⟩ | ⟨rfl, hi⟩
  · simp only [applicable, payloadOk, hkd]
    exact ⟨fun _ _ => decide_eq_true (Nat.pos_of_ne_zero h0), trivial⟩
  · obtain ⟨hu, hpay⟩ := hf.thr p ht
    rw [ht]
    refine ⟨fun _ _ => ?_, hpay⟩
    simp only [applicable, hkd]
    exact bne_iff_ne.mpr hu
  · have hreg := hf.rgx p hr
    simp only [applicable, payloadOk, hkd, hpl]
    refine ⟨fun _ _ => ?_, trivial⟩
    split <;> simp_all
  · obtain ⟨h6, hok⟩ := hf.ord p ho
    simp only [applicable, payloadOk, hkd, hpl]
    refine ⟨fun _ _ => ?_, by simp [h6, hok]⟩
    rw [bne_iff_ne]
    intro ha
    rw [ha] at hok
    cases hok
  · obtain ⟨h0, hu⟩ := hf.fmx p hm
    simp only [applicable, payloadOk, hkd, hpl]
    exact ⟨fun _ _ => hu, by simp [h0]⟩
  · obtain ⟨h0, hu⟩ := hf.prd p hd
    simp only [applicable, payloadOk, hkd, hpl]
    exact ⟨fun _ _ => hu, by simp [h0]⟩
  · exact ⟨fun h => absurd hkd h, hf.imx p hi⟩

theorem Parts.Fits.decodesRow (n : Nat) : decodeRaw.decodeRow e.raw e.page n row = .ok i := by
  have hs := hf.small
  have hz : e.raw.z.isSome = e.thr.isSome := by rw [e.raw_z hs, Option.isSome_map]
  have hbad : firstBad (row.rules e.thr.isSome) e.page 0 0 e.raw.ps = none :=
    firstBad_eq_none (fun w hw => (hf.word_ok hw).1) (by
      have := hf.imxMax
      have := e.countP_pfx_imx hs
      rw [show e.raw.ps = e.pfx from rfl]
      omega)
  have hres : firstRes0 row (row.rules e.thr.isSome) 0 e.raw.ps = none := firstRes0_eq_none (fun w hw => (hf.word_ok hw).2)
  have hreq : ¬(((row.rules e.thr.isSome).thr = .req ∧ e.raw.z.isNone = true) ∨ e.raw.imx.length < (row.rules e.thr.isSome).imxMin) := by
    rw [e.raw_imx hs]
    rintro (⟨hr, hn⟩ | hn)
    · have hnone : e.thr = none := by simpa [e.raw_z hs] using hn
      rw [hnone] at hr
      exact hf.thrReq hnone hr
    · exact absurd hf.imxMin (by omega)
  simp only [decodeRaw.decodeRow, hz, hbad, hres, if_neg hreq, e.raw_x hs, e.raw_y hs, hf.fieldX, hf.fieldY, hf.baseOk, hf.build,
    Bool.and_self, if_true]

theorem Parts.Fits.decodeRaw_eq {fns : List Row} (hm : (opcodePage e.page)[e.maj]? = some fns) (hr : fns[e.fn]? = some row) :
    decodeRaw e.raw = .ok i := by
  have hs := hf.small
  have hat : decodeRaw.decodeAt e.raw e.page e.raw.ps.length = .ok i := by
    simp only [decodeRaw.decodeAt, e.raw_maj hs, e.raw_fn hs, hm, hr, hf.decodesRow]
  have hp := e.raw_page hs
  have h8 := hs.page
  rw [decodeRaw]
  by_cases h0 : e.page = 0
  · rw [if_pos h0, Option.map_eq_none_iff] at hp
    rw [h0] at hat
    simp only [hp, hat]
  · rw [if_neg h0, Option.map_eq_some_iff] at hp
    obtain ⟨⟨pg, j⟩, hk, hpg⟩ := hp
    cases hpg
    simp only [hk, if_neg (show ¬(e.page = 0 ∨ 8 < e.page) by omega), hat]

theorem Parts.Fits.decodes {fns : List Row} (hm : (opcodePage e.page)[e.maj]? = some fns) (hr : fns[e.fn]? = some row) : e.Decodes i :=
  ⟨hf.small, hf.words, hf.decodeRaw_eq hm hr⟩
end

/-! The parts of an encoding, as the operands make them. -/

/-- A payload that is there or not, that fits its field and meets `P`. -/
structure Part (o : Option Nat) (there : Bool) (P : Nat → Prop) : Prop where
  isSome : o.isSome = there
  lt : ∀ p ∈ o, p < 256
  all : ∀ p ∈ o, P p

theorem Part.absent {P : Nat → Prop} : Part none false P := ⟨rfl, nofun, nofun⟩

theorem Part.map {α : Type} {o : Option α} {f : α → Nat} {P : Nat → Prop} (h : ∀ a ∈ o, f a < 256 ∧ P (f a)) :
    Part (o.map f) o.isSome P where
  isSome := Option.isSome_map
  lt p hp := by
    obtain ⟨a, ha, rfl⟩ := Option.map_eq_some_iff.mp hp
    exact (h a ha).1
  all p hp := by
    obtain ⟨a, ha, rfl⟩ := Option.map_eq_some_iff.mp hp
    exact (h a ha).2

/-- THR may stand on a row with this payload (R74). -/
def Row.takesThr (row : Row) (p : Nat) : Prop := (row.rules true).thr ≠ .no ∧ payloadOk row (row.rules true) (pfxWord 2 p) = true

section
variable {row : Row} {u : Rules}

theorem takesThr_mul (hu : (row.rules true).thr ≠ .no) (hrow : ∀ mk, row ≠ .mcol mk) {p : Nat} (hp : p < 16) : row.takesThr (p * 16) := by
  have h0 : p * 16 % 16 == 0 := by simp
  refine ⟨hu, ?_⟩
  simp only [payloadOk, kindOf_pfxWord (show 2 < 8 by omega) (show p * 16 < 256 by omega),
    payloadOf_pfxWord (show 2 < 8 by omega) (show p * 16 < 256 by omega)]
  exact h0

theorem thrG_part (z : Option GReg) (hu : (row.rules true).thr ≠ .no := by exact nofun) (hrow : ∀ mk, row ≠ .mcol mk := by exact nofun) :
    Part (thrG z) z.isSome row.takesThr :=
  .map fun z _ => have := z.code_lt; ⟨by omega, takesThr_mul hu hrow this⟩
theorem thrI_part {z : Option Idx} (hz : zIdxDirect z = true) (hu : (row.rules true).thr ≠ .no := by exact nofun)
    (hrow : ∀ mk, row ≠ .mcol mk := by exact nofun) : Part (thrI z) z.isSome row.takesThr :=
  .map fun i hi => have h : i.val < 16 := of_decide_eq_true (by cases hi; exact hz); ⟨by omega, takesThr_mul hu hrow h⟩
theorem ordPart_part {r : OrdRule} {q : Option OrdQ} (hq : r.okOpt q = true) :
    Part (ordPart q) q.isSome (fun p => p / 32 < 6 ∧ r.ok (Raw.ordOf p) = true) :=
  .map fun v hv => have := v.code_lt; ⟨by omega, by omega, by cases hv; rwa [ordOf_code]⟩
theorem fmxPart_part (f : Option Fmt) (hu : u.fmx = true := by exact rfl) : Part (fmxPart f) f.isSome (fun p => p % 16 = 0 ∧ u.fmx = true) :=
  .map fun f _ => have := f.code_lt; ⟨by omega, by omega, hu⟩
theorem prdPart_part (q : Option Prd) (hu : u.prd = true := by exact rfl) : Part (prdPart q) q.isSome (fun p => p % 16 = 0 ∧ u.prd = true) :=
  .map fun v _ => have := Bool.toNat_le v.inv; ⟨by omega, by omega, hu⟩

/-- `n` IMX payloads that may stand on a row. -/
structure ImxPart (row : Row) (u : Rules) (l : List Nat) (n : Nat) : Prop where
  len : l.length = n
  lt : ∀ p ∈ l, p < 256
  all : ∀ p ∈ l, payloadOk row u (pfxWord 0 p) = true
  le : n ≤ 4 → n ≤ u.imxMax

theorem ImxPart.absent : ImxPart row u [] 0 := ⟨rfl, nofun, nofun, fun _ => Nat.zero_le _⟩

theorem immPayloads_part (n b : Nat) (v : Word) (hu : u.imxMax = 4 := by exact rfl) (hrow : ∀ mk, row ≠ .gshift mk := by exact nofun) :
    ImxPart row u (immPayloads n b v) n where
  len := length_immPayloads n b v
  lt := immPayloads_lt n b v
  all p hp := by simp only [payloadOk, kindOf_pfxWord (show 0 < 8 by omega) (immPayloads_lt n b v p hp)]
  le h := hu ▸ h
theorem immPart_part (v : Word) (hu : u.imxMax = 4 := by exact rfl) (hrow : ∀ mk, row ≠ .gshift mk := by exact nofun) :
    ImxPart row u (immPart v) (immWords 0 v) := immPayloads_part _ _ v hu hrow

theorem rgxOf_ok {a b : Bool} {i j : Nat} {xu yu : FieldUse} (hi : i < 128) (hx : a = true → xu = .reg) (hy : b = true → yu = .reg) :
    ∀ p ∈ rgxOf a i b j, if p < 128 then xu = .reg else yu = .reg := by
  intro p hp
  cases a with
  | true =>
    cases hp
    rw [if_pos hi]
    exact hx rfl
  | false =>
    cases b with
    | true =>
      cases hp
      rw [if_neg (by omega)]
      exact hy rfl
    | false => cases hp
end

/-- A row uses a field so (R69, R73). -/
structure BaseField.Suits (x : BaseField) (u : FieldUse) : Prop where
  reg : x.direct = false → u = .reg
  unused : u = .unused → x.code = 0

theorem BaseField.Suits.register (x : BaseField) : x.Suits .reg := ⟨fun _ => rfl, nofun⟩
theorem BaseField.Suits.literal (n : Nat) (h : n < 16) : (bitsField n h).Suits .bits := ⟨nofun, nofun⟩
theorem BaseField.Suits.nothing (u : FieldUse) : noField.Suits u := ⟨nofun, fun _ => rfl⟩

theorem BaseField.Suits.fieldOk {x : BaseField} {u : FieldUse} (h : x.Suits u) :
    fieldOk u (if x.direct then none else some x.index : Option Nat).isSome x.code = true := by
  cases u with
  | reg => cases hd : x.direct with
    | true => rfl
    | false => simp [Sys2Proof.fieldOk, x.code_zero hd]
  | bits => rfl
  | unused => simp [Sys2Proof.fieldOk, h.unused rfl]

/-! The number of PFX words. -/

theorem length_optWord (k : Nat) (o : Option Nat) : (optWord k o).length = o.isSome.toNat := by cases o <;> rfl

theorem isSome_rgxOf (a b : Bool) (i j : Nat) : (rgxOf a i b j).isSome.toNat ≤ [a, b].count true := by
  cases a <;> cases b <;> simp [rgxOf]

theorem count_first (b : Bool) : [b, false].count true = [b].count true := by cases b <;> rfl
theorem count_second (b : Bool) : [false, b].count true = [b].count true := by cases b <;> rfl

/-- Where a row stands, and whether that costs a word. -/
abbrev Placed (q p m f : Nat) : Prop := p ≤ 8 ∧ min p 1 ≤ q ∧ m < 31 ∧ f < 8

/-- An encoding whose parts suit a row decodes by that row. -/
theorem Parts.fits {row : Row} {e : Parts} {i : Instr} {n : Need} {q : Nat} {x y : BaseField} (hl : Placed q e.page e.maj e.fn) (hn : n.ok q = true)
    (hr : e.rgx = rgxOf (!x.direct) x.index (!y.direct) y.index) (hx : e.x = x.code) (hy : e.y = y.code)
    (hc : [!x.direct, !y.direct].count true = n.rgx.count true) (hxu : x.Suits (row.rules e.thr.isSome).x)
    (hyu : y.Suits (row.rules e.thr.isSome).y)
    (build : e.Holds x y → row.build e.raw = some i)
    (thr : Part e.thr n.thr row.takesThr := by exact .absent)
    (ord : Part e.ord n.ord (fun p => p / 32 < 6 ∧ (row.rules e.thr.isSome).ord.ok (Raw.ordOf p) = true) := by exact .absent)
    (fmx : Part e.fmx n.fmx (fun p => p % 16 = 0 ∧ (row.rules e.thr.isSome).fmx = true) := by exact .absent)
    (prd : Part e.prd n.prd (fun p => p % 16 = 0 ∧ (row.rules e.thr.isSome).prd = true) := by exact .absent)
    (imx : ImxPart row (row.rules e.thr.isSome) e.imx n.imx := by exact .absent)
    (imxMin : (row.rules e.thr.isSome).imxMin ≤ n.imx := by exact Nat.zero_le _)
    (thrReq : e.thr = none → (row.rules false).thr ≠ .req := by exact fun _ => nofun)
    (baseOk : e.Holds x y → row.baseOk e.raw = true := by exact fun _ => rfl) : e.Fits row i := by
  obtain ⟨hpage, hq, hmaj, hfn⟩ := hl
  obtain ⟨h1, h4⟩ := Bool.and_eq_true_iff.mp hn
  have h1 := of_decide_eq_true h1
  have h4 := of_decide_eq_true h4
  have hs : e.Small :=
    { page := hpage, maj := hmaj, fn := hfn, x := hx ▸ x.code_lt, y := hy ▸ y.code_lt, thr := thr.lt,
      rgx := hr ▸ rgxOf_lt x.index_lt y.index_lt,
      ord := ord.lt, fmx := fmx.lt, prd := prd.lt, imx := imx.lt }
  have hh : e.Holds x y := by
    refine ⟨hs, hr, hx, hy, fun ⟨ha, hb⟩ => ?_⟩
    rw [ha, hb] at hc
    exact absurd (hc ▸ h1) (by decide)
  have hpag : (if e.page = 0 then none else some e.page : Option Nat).isSome.toNat ≤ q := by
    split
    · exact Nat.zero_le _
    · exact Nat.le_trans (by simp; omega) hq
  have hrc := hr ▸ isSome_rgxOf (!x.direct) (!y.direct) x.index y.index
  exact {
    small := hs
    words := by
      simp only [Parts.pfx, List.length_append, length_optWord, List.length_map, thr.isSome, ord.isSome, fmx.isSome, prd.isSome, imx.len]
      omega
    thr := thr.all
    thrReq := thrReq
    rgx := hr ▸ rgxOf_ok x.index_lt (fun h => hxu.reg (by simpa using h)) (fun h => hyu.reg (by simpa using h))
    ord := ord.all
    fmx := fmx.all
    prd := prd.all
    imx := imx.all
    imxMin := imx.len ▸ imxMin
    imxMax := imx.len ▸ imx.le (by omega)
    fieldX := by
      rw [hh.rgxX, hx]
      exact hxu.fieldOk
    fieldY := by
      rw [hh.rgxY, hy]
      exact hyu.fieldOk
    baseOk := baseOk hh
    build := build hh }

theorem Need.imx_le {n : Need} {q : Nat} (hn : n.ok q = true) : n.imx ≤ 4 := by
  have h4 := of_decide_eq_true (Bool.and_eq_true_iff.mp hn).2
  omega

theorem Parts.imm_zero {e : Parts} (h : e.Small) {v : Word} (hv : immWords 0 v ≤ 4) (hi : e.imx = immPart v) : e.raw.imm 0 0 = v := by
  have hb : immBase (immWords 0 v) 0 v = 0 := Nat.mod_one _
  simpa [hb] using e.imm_eq h hv (by omega) (immFits_immWords hv) hi

theorem immFits_label {v : Word} (h : immWords 0 v ≤ 4) : ImmFits (max 1 (immWords 0 v)) 0 v := by
  rcases immFits_immWords h with ⟨h0, -, rfl⟩ | hf
  · rw [h0]
    exact .inr ⟨by decide, by decide⟩
  · rw [max_eq_right (by have := hf.1; omega)]
    exact .inr hf

theorem Parts.imm_label {e : Parts} (h : e.Small) {v : Word} (hv : max 1 (immWords 0 v) ≤ 4) (hi : e.imx = immPayloads (max 1 (immWords 0 v)) 0 v) :
    e.raw.imm 0 0 = v := by
  have hb : immBase (max 1 (immWords 0 v)) 0 v = 0 := Nat.mod_one _
  simpa [hb] using e.imm_eq h hv (by omega) (immFits_label (by omega)) hi

theorem immBase_lt (n b : Nat) (v : Word) : immBase n b v < 2 ^ b := Nat.mod_lt _ (by positivity)

theorem csrAt_addr (c : Csr) : csrAt (w64 c.addr) = some c := by cases c <;> rfl

/-- The columns that MCOL may take (R74, R196). -/
def MCol.zOk : ColMode × GReg → Bool
  | (.mean, z) => z == .g 0
  | (.sample, z) => z == .g 0
  | (_, z) => z.direct

theorem MCol.zOk_iff {d : ColMode} {z : GReg} : zOk (d, z) = true ↔ z.direct = true ∧ (d = .mean ∨ d = .sample → z = .g 0) := by
  cases d <;> simp [zOk] <;> rintro rfl <;> rfl

theorem takesThr_mcol {mk : MCol → Instr} {v : ColMode × GReg} (h : MCol.zOk v = true) :
    v.2.code * 16 + v.1.code < 256 ∧ (Row.mcol mk).takesThr (v.2.code * 16 + v.1.code) := by
  obtain ⟨d, z⟩ := v
  obtain ⟨-, hd⟩ := MCol.zOk_iff.mp h
  have hc := z.code_lt
  have hm : d.code < 4 := by cases d <;> decide
  have h256 : z.code * 16 + d.code < 256 := by omega
  refine ⟨h256, nofun, ?_⟩
  have h16 : (z.code * 16 + d.code) % 16 = d.code := by omega
  have hq : (z.code * 16 + d.code) / 16 = z.code := by omega
  have h4 : (z.code * 16 + d.code) % 4 = d.code := by omega
  simp only [payloadOk, kindOf_pfxWord (show 2 < 8 by omega) h256, payloadOf_pfxWord (show 2 < 8 by omega) h256, h16, hq, h4]
  cases d <;> simp_all [ColMode.code, GReg.code]

section
variable {q p m f : Nat} (hl : Placed q p m f)
include hl

theorem GBin.fits {mk : GBin → Instr} {a : GBin} (h : a.wf q = true) :
    (a.parts p m f).Fits (.gbin mk) (mk a) := by
  obtain ⟨hz, hn⟩ := Bool.and_eq_true_iff.mp h
  exact Parts.fits (x := a.x.field) (y := a.y.field) hl hn rfl rfl rfl rfl (.register _) (.register _)
    (fun h => by rw [Row.build, h.xG, h.yG, Parts.zG_eq h.small hz rfl])
    (thr := thrG_part a.z)

theorem GUn.fits {mk : GUn → Instr} {a : GUn} (h : a.wf q = true) :
    (a.parts p m f).Fits (.gun mk) (mk a) := by
  exact Parts.fits (x := a.x.field) (y := a.y.field) hl h rfl rfl rfl rfl (.register _) (.register _)
    (fun h => by rw [Row.build, h.xG, h.yG])

theorem GOne.fits {mk : GOne → Instr} {a : GOne} (h : a.wf q = true) :
    (a.parts p m f).Fits (.gone mk) (mk a) := by
  exact Parts.fits (x := a.x.field) (y := noField) hl h rfl rfl rfl (count_first _) (.register _) (.nothing _)
    (fun h => by rw [Row.build, h.xG])

theorem GTri.fits {mk : GTri → Instr} {a : GTri} (h : a.wf q = true) :
    (a.parts p m f).Fits (.gtri mk) (mk a) := by
  obtain ⟨hz, hn⟩ := Bool.and_eq_true_iff.mp h
  exact Parts.fits (x := a.x.field) (y := a.y.field) hl hn rfl rfl rfl rfl (.register _) (.register _)
    (fun h => by rw [Row.build, h.xG, h.yG, Parts.zG!_eq h.small hz rfl])
    (thr := thrG_part (some a.z)) (thrReq := nofun)

theorem GMem.fits {r : OrdRule} {o : PairRule} {mk : GMem → Instr} {a : GMem} (h : a.wf r o q = true) :
    (a.parts p m f).Fits (.mem r o mk) (mk a) := by
  obtain ⟨h, hn⟩ := Bool.and_eq_true_iff.mp h
  obtain ⟨h, hz⟩ := Bool.and_eq_true_iff.mp h
  obtain ⟨hr, ho⟩ := Bool.and_eq_true_iff.mp h
  exact Parts.fits (x := a.x.field) (y := a.y.field) hl hn rfl rfl rfl rfl (.register _) (.register _)
    (fun h => by rw [Row.build, h.xG, h.yG, Parts.zG_eq h.small hz rfl, Parts.imm_zero h.small (Need.imx_le hn) rfl, Parts.ord_eq h.small rfl])
    (thr := thrG_part a.z) (ord := ordPart_part ho) (imx := immPart_part a.imm) (baseOk := fun h => (congrArg o.ok h.xG).trans hr)

theorem PMem.fits {r : OrdRule} {mk : PMem → Instr} {a : PMem} (h : a.wf r q = true) :
    (a.parts p m f).Fits (.pmem r mk) (mk a) := by
  obtain ⟨h, hn⟩ := Bool.and_eq_true_iff.mp h
  obtain ⟨ho, hz⟩ := Bool.and_eq_true_iff.mp h
  exact Parts.fits (x := noField) (y := a.y.field) hl hn rfl rfl rfl (count_second _) (.nothing _) (.register _)
    (fun h => by rw [Row.build, h.yG, Parts.zG_eq h.small hz rfl, Parts.imm_zero h.small (Need.imx_le hn) rfl, Parts.ord_eq h.small rfl])
    (thr := thrG_part a.z) (ord := ordPart_part ho) (imx := immPart_part a.imm)

theorem YMem.fits {r : OrdRule} {mk : YMem → Instr} {a : YMem} (h : a.wf r q = true) :
    (a.parts p m f).Fits (.ymem r mk) (mk a) := by
  obtain ⟨ho, hn⟩ := Bool.and_eq_true_iff.mp h
  exact Parts.fits (x := noField) (y := a.y.field) hl hn rfl rfl rfl (count_second _) (.nothing _) (.register _)
    (fun h => by rw [Row.build, h.yG, Parts.imm_zero h.small (Need.imx_le hn) rfl, Parts.ord_eq h.small rfl])
    (ord := ordPart_part ho) (imx := immPart_part a.imm)

theorem GLea.fits {mk : GLea → Instr} {a : GLea} (h : a.wf q = true) :
    (a.parts p m f).Fits (.lea mk) (mk a) := by
  obtain ⟨hz, hn⟩ := Bool.and_eq_true_iff.mp h
  exact Parts.fits (x := a.x.field) (y := a.y.field) hl hn rfl rfl rfl rfl (.register _) (.register _)
    (fun h => by rw [Row.build, h.xG, h.yG, Parts.zG_eq h.small hz rfl, Parts.imm_zero h.small (Need.imx_le hn) rfl])
    (thr := thrG_part a.z) (imx := immPart_part a.imm)

theorem VBin.fits {mk : VBin → Instr} {a : VBin} (h : a.wf q = true) :
    (a.parts p m f).Fits (.vbin mk) (mk a) := by
  obtain ⟨hz, hn⟩ := Bool.and_eq_true_iff.mp h
  exact Parts.fits (x := idxField a.x) (y := idxField a.y) hl hn rfl rfl rfl rfl (.register _) (.register _)
    (fun h => by rw [Row.build, h.xI, h.yI, Parts.zI_eq h.small rfl, Parts.fmt_eq h.small rfl, Parts.prd_eq h.small rfl])
    (thr := thrI_part hz) (fmx := fmxPart_part a.fmt) (prd := prdPart_part a.prd)

theorem VUn.fits {mk : VUn → Instr} {a : VUn} (h : a.wf q = true) :
    (a.parts p m f).Fits (.vun mk) (mk a) := by
  exact Parts.fits (x := idxField a.x) (y := idxField a.y) hl h rfl rfl rfl rfl (.register _) (.register _)
    (fun h => by rw [Row.build, h.xI, h.yI, Parts.fmt_eq h.small rfl, Parts.prd_eq h.small rfl])
    (fmx := fmxPart_part a.fmt) (prd := prdPart_part a.prd)

theorem VTri.fits {mk : VTri → Instr} {a : VTri} (h : a.wf q = true) :
    (a.parts p m f).Fits (.vcmp mk) (mk a) := by
  obtain ⟨hz, hn⟩ := Bool.and_eq_true_iff.mp h
  exact Parts.fits (x := idxField a.x) (y := idxField a.y) hl hn rfl rfl rfl rfl (.register _) (.register _)
    (fun h => by rw [Row.build, h.xI, h.yI, Parts.zI!_eq h.small rfl, Parts.fmt_eq h.small rfl, Parts.prd_eq h.small rfl])
    (thr := thrI_part (z := some a.z) hz) (thrReq := nofun) (fmx := fmxPart_part a.fmt) (prd := prdPart_part a.prd)

theorem PBin.fits {mk : PBin → Instr} {a : PBin} (h : a.wf q = true) :
    (a.parts p m f).Fits (.pbin mk) (mk a) := by
  obtain ⟨hz, hn⟩ := Bool.and_eq_true_iff.mp h
  exact Parts.fits (x := idxField a.x) (y := idxField a.y) hl hn rfl rfl rfl rfl (.register _) (.register _)
    (fun h => by rw [Row.build, h.xI, h.yI, Parts.zI_eq h.small rfl])
    (thr := thrI_part hz)

theorem PUn.fits {mk : PUn → Instr} {a : PUn} (h : a.wf q = true) :
    (a.parts p m f).Fits (.pun mk) (mk a) := by
  exact Parts.fits (x := idxField a.x) (y := idxField a.y) hl h rfl rfl rfl rfl (.register _) (.register _)
    (fun h => by rw [Row.build, h.xI, h.yI])

theorem PSet.fits {mk : PSet → Instr} {a : PSet} (h : a.wf q = true) :
    (a.parts p m f).Fits (.pset mk) (mk a) := by
  exact Parts.fits (x := idxField a.x) (y := a.y.field) hl h rfl rfl rfl rfl (.register _) (.register _)
    (fun h => by rw [Row.build, h.xI, h.yG])

theorem PCount.fits {mk : PCount → Instr} {a : PCount} (h : a.wf q = true) :
    (a.parts p m f).Fits (.pcnt mk) (mk a) := by
  exact Parts.fits (x := a.x.field) (y := idxField a.y) hl h rfl rfl rfl rfl (.register _) (.register _)
    (fun h => by rw [Row.build, h.xG, h.yI])

theorem VMem.fits {r : OrdRule} {mk : VMem → Instr} {a : VMem} (h : a.wf r q = true) :
    (a.parts p m f).Fits (.vmem r mk) (mk a) := by
  obtain ⟨h, hn⟩ := Bool.and_eq_true_iff.mp h
  obtain ⟨ho, hz⟩ := Bool.and_eq_true_iff.mp h
  exact Parts.fits (x := idxField a.x) (y := a.y.field) hl hn rfl rfl rfl rfl (.register _) (.register _)
    (fun h => by
      rw [Row.build, h.xI, h.yG, Parts.zG_eq h.small hz rfl, Parts.imm_zero h.small (Need.imx_le hn) rfl, Parts.ord_eq h.small rfl,
        Parts.fmt_eq h.small rfl, Parts.prd_eq h.small rfl])
    (thr := thrG_part a.z) (ord := ordPart_part ho) (fmx := fmxPart_part a.fmt) (prd := prdPart_part a.prd) (imx := immPart_part a.imm)

theorem VGather.fits {r : OrdRule} {mk : VGather → Instr} {a : VGather} (h : a.wf r q = true) :
    (a.parts p m f).Fits (.vgs r mk) (mk a) := by
  obtain ⟨h, hn⟩ := Bool.and_eq_true_iff.mp h
  obtain ⟨ho, hz⟩ := Bool.and_eq_true_iff.mp h
  exact Parts.fits (x := idxField a.x) (y := a.y.field) hl hn rfl rfl rfl rfl (.register _) (.register _)
    (fun h => by
      rw [Row.build, h.xI, h.yG, Parts.zI_eq h.small rfl, Parts.imm_zero h.small (Need.imx_le hn) rfl, Parts.ord_eq h.small rfl,
        Parts.fmt_eq h.small rfl, Parts.prd_eq h.small rfl])
    (thr := thrI_part hz) (ord := ordPart_part ho) (fmx := fmxPart_part a.fmt) (prd := prdPart_part a.prd) (imx := immPart_part a.imm)

theorem VRed.fits {mk : VRed → Instr} {a : VRed} (h : a.wf q = true) :
    (a.parts p m f).Fits (.vred mk) (mk a) := by
  obtain ⟨hz, hn⟩ := Bool.and_eq_true_iff.mp h
  exact Parts.fits (x := a.x.field) (y := idxField a.y) hl hn rfl rfl rfl rfl (.register _) (.register _)
    (fun h => by rw [Row.build, h.xG, h.yI, Parts.zG_eq h.small hz rfl, Parts.fmt_eq h.small rfl, Parts.prd_eq h.small rfl])
    (thr := thrG_part a.z) (fmx := fmxPart_part a.fmt) (prd := prdPart_part a.prd)

theorem VExt.fits {mk : VExt → Instr} {a : VExt} (h : a.wf q = true) :
    (a.parts p m f).Fits (.vext mk) (mk a) := by
  obtain ⟨hz, hn⟩ := Bool.and_eq_true_iff.mp h
  exact Parts.fits (x := a.x.field) (y := idxField a.y) hl hn rfl rfl rfl rfl (.register _) (.register _)
    (fun h => by rw [Row.build, h.xG, h.yI, Parts.zG_eq h.small hz rfl, Parts.fmt_eq h.small rfl])
    (thr := thrG_part a.z) (fmx := fmxPart_part a.fmt)

theorem VBcst.fits {mk : VBcst → Instr} {a : VBcst} (h : a.wf q = true) :
    (a.parts p m f).Fits (.vbcst mk) (mk a) := by
  obtain ⟨hz, hn⟩ := Bool.and_eq_true_iff.mp h
  exact Parts.fits (x := idxField a.x) (y := a.y.field) hl hn rfl rfl rfl rfl (.register _) (.register _)
    (fun h => by rw [Row.build, h.xI, h.yG, Parts.zG_eq h.small hz rfl, Parts.fmt_eq h.small rfl, Parts.prd_eq h.small rfl])
    (thr := thrG_part a.z) (fmx := fmxPart_part a.fmt) (prd := prdPart_part a.prd)

theorem VSet.fits {mk : VSet → Instr} {a : VSet} (h : a.wf q = true) :
    (a.parts p m f).Fits (.vset mk) (mk a) := by
  exact Parts.fits (x := a.x.field) (y := a.y.field) hl h rfl rfl rfl rfl (.register _) (.register _)
    (fun h => by rw [Row.build, h.xG, h.yG, Parts.fmt_eq h.small rfl])
    (fmx := fmxPart_part a.fmt)

theorem VLen.fits {mk : VLen → Instr} {a : VLen} (h : a.wf q = true) :
    (a.parts p m f).Fits (.vlen mk) (mk a) := by
  exact Parts.fits (x := a.x.field) (y := noField) hl h rfl rfl rfl (count_first _) (.register _) (.nothing _)
    (fun h => by rw [Row.build, h.xG, Parts.fmt_eq h.small rfl])
    (fmx := fmxPart_part a.fmt)

theorem VIota.fits {mk : VIota → Instr} {a : VIota} (h : a.wf q = true) :
    (a.parts p m f).Fits (.viota mk) (mk a) := by
  exact Parts.fits (x := idxField a.x) (y := noField) hl h rfl rfl rfl (count_first _) (.register _) (.nothing _)
    (fun h => by rw [Row.build, h.xI, Parts.fmt_eq h.small rfl])
    (fmx := fmxPart_part a.fmt)

theorem IOne.fits {mk : IOne → Instr} {a : IOne} (h : a.wf q = true) :
    (a.parts p m f).Fits (.ione mk) (mk a) := by
  exact Parts.fits (x := idxField a.x) (y := noField) hl h rfl rfl rfl (count_first _) (.register _) (.nothing _)
    (fun h => by rw [Row.build, h.xI])

theorem II.fits {mk : II → Instr} {a : II} (h : a.wf q = true) :
    (a.parts p m f).Fits (.ii mk) (mk a) := by
  exact Parts.fits (x := idxField a.x) (y := idxField a.y) hl h rfl rfl rfl rfl (.register _) (.register _)
    (fun h => by rw [Row.build, h.xI, h.yI])

theorem ITri.fits {mk : ITri → Instr} {a : ITri} (h : a.wf q = true) :
    (a.parts p m f).Fits (.itri mk) (mk a) := by
  obtain ⟨hz, hn⟩ := Bool.and_eq_true_iff.mp h
  exact Parts.fits (x := idxField a.x) (y := idxField a.y) hl hn rfl rfl rfl rfl (.register _) (.register _)
    (fun h => by rw [Row.build, h.xI, h.yI, Parts.zI!_eq h.small rfl])
    (thr := thrI_part (z := some a.z) hz) (thrReq := nofun)

theorem IIG.fits {mk : IIG → Instr} {a : IIG} (h : a.wf q = true) :
    (a.parts p m f).Fits (.iig mk) (mk a) := by
  obtain ⟨hz, hn⟩ := Bool.and_eq_true_iff.mp h
  exact Parts.fits (x := idxField a.x) (y := idxField a.y) hl hn rfl rfl rfl rfl (.register _) (.register _)
    (fun h => by rw [Row.build, h.xI, h.yI, Parts.zG!_eq h.small hz rfl])
    (thr := thrG_part (some a.z)) (thrReq := nofun)

theorem IG.fits {mk : IG → Instr} {a : IG} (h : a.wf q = true) :
    (a.parts p m f).Fits (.ig mk) (mk a) := by
  exact Parts.fits (x := idxField a.x) (y := a.y.field) hl h rfl rfl rfl rfl (.register _) (.register _)
    (fun h => by rw [Row.build, h.xI, h.yG])

theorem IGG.fits {mk : IGG → Instr} {a : IGG} (h : a.wf q = true) :
    (a.parts p m f).Fits (.igg mk) (mk a) := by
  obtain ⟨hz, hn⟩ := Bool.and_eq_true_iff.mp h
  exact Parts.fits (x := idxField a.x) (y := a.y.field) hl hn rfl rfl rfl rfl (.register _) (.register _)
    (fun h => by rw [Row.build, h.xI, h.yG, Parts.zG_eq h.small hz rfl])
    (thr := thrG_part a.z)

theorem TAdv.fits {mk : TAdv → Instr} {a : TAdv} (h : a.wf q = true) :
    (a.parts p m f).Fits (.tadv mk) (mk a) := by
  obtain ⟨hz, hn⟩ := Bool.and_eq_true_iff.mp h
  exact Parts.fits (x := idxField a.x) (y := a.y.field) hl hn rfl rfl rfl rfl (.register _) (.register _)
    (fun h => by rw [Row.build, h.xI, h.yG, Parts.zG_eq h.small hz rfl, Parts.imm_zero h.small (Need.imx_le hn) rfl])
    (thr := thrG_part a.z) (imx := immPart_part a.imm)

theorem AMem.fits {r : OrdRule} {mk : AMem → Instr} {a : AMem} (h : a.wf r q = true) :
    (a.parts p m f).Fits (.amem r mk) (mk a) := by
  obtain ⟨h, hn⟩ := Bool.and_eq_true_iff.mp h
  obtain ⟨ho, hz⟩ := Bool.and_eq_true_iff.mp h
  exact Parts.fits (x := idxField a.x) (y := a.y.field) hl hn rfl rfl rfl rfl (.register _) (.register _)
    (fun h => by rw [Row.build, h.xI, h.yG, Parts.zG_eq h.small hz rfl, Parts.imm_zero h.small (Need.imx_le hn) rfl, Parts.ord_eq h.small rfl])
    (thr := thrG_part a.z) (ord := ordPart_part ho) (imx := immPart_part a.imm)

theorem MChol.fits {mk : MChol → Instr} {a : MChol} (h : a.wf q = true) :
    (a.parts p m f).Fits (.mchol mk) (mk a) := by
  obtain ⟨hz, hn⟩ := Bool.and_eq_true_iff.mp h
  exact Parts.fits (x := idxField a.x) (y := noField) hl hn rfl rfl rfl (count_first _) (.register _) (.nothing _)
    (fun h => by rw [Row.build, h.xI, Parts.zG_eq h.small hz rfl])
    (thr := thrG_part a.z)

theorem MBin.fits {mk : MBin → Instr} {a : MBin} (h : a.wf q = true) :
    (a.parts p m f).Fits (.mbin mk) (mk a) := by
  obtain ⟨hz, hn⟩ := Bool.and_eq_true_iff.mp h
  exact Parts.fits (x := idxField a.x) (y := idxField a.y) hl hn rfl rfl rfl rfl (.register _) (.register _)
    (fun h => by rw [Row.build, h.xI, h.yI, Parts.zI_eq h.small rfl, Parts.prd_eq h.small rfl])
    (thr := thrI_part hz) (prd := prdPart_part a.prd)

theorem MTri.fits {mk : MTri → Instr} {a : MTri} (h : a.wf q = true) :
    (a.parts p m f).Fits (.mtri mk) (mk a) := by
  obtain ⟨hz, hn⟩ := Bool.and_eq_true_iff.mp h
  exact Parts.fits (x := idxField a.x) (y := idxField a.y) hl hn rfl rfl rfl rfl (.register _) (.register _)
    (fun h => by rw [Row.build, h.xI, h.yI, Parts.zI!_eq h.small rfl, Parts.prd_eq h.small rfl])
    (thr := thrI_part (z := some a.z) hz) (thrReq := nofun) (prd := prdPart_part a.prd)

theorem MUn.fits {mk : MUn → Instr} {a : MUn} (h : a.wf q = true) :
    (a.parts p m f).Fits (.mun mk) (mk a) := by
  exact Parts.fits (x := idxField a.x) (y := idxField a.y) hl h rfl rfl rfl rfl (.register _) (.register _)
    (fun h => by rw [Row.build, h.xI, h.yI, Parts.prd_eq h.small rfl])
    (prd := prdPart_part a.prd)

theorem MSum.fits {mk : MSum → Instr} {a : MSum} (h : a.wf q = true) :
    (a.parts p m f).Fits (.msum mk) (mk a) := by
  obtain ⟨hz, hn⟩ := Bool.and_eq_true_iff.mp h
  exact Parts.fits (x := a.x.field) (y := idxField a.y) hl hn rfl rfl rfl rfl (.register _) (.register _)
    (fun h => by rw [Row.build, h.xG, h.yI, Parts.zG_eq h.small hz rfl, Parts.prd_eq h.small rfl])
    (thr := thrG_part a.z) (prd := prdPart_part a.prd)

theorem MChk.fits {mk : MChk → Instr} {a : MChk} (h : a.wf q = true) :
    (a.parts p m f).Fits (.mchk mk) (mk a) := by
  exact Parts.fits (x := a.x.field) (y := idxField a.y) hl h rfl rfl rfl rfl (.register _) (.register _)
    (fun h => by rw [Row.build, h.xG, h.yI, Parts.prd_eq h.small rfl])
    (prd := prdPart_part a.prd)

theorem UOrd.fits {r : OrdRule} {mk : UOrd → Instr} {a : UOrd} (h : a.wf r q = true) :
    (a.parts p m f).Fits (.uord r mk) (mk a) := by
  obtain ⟨ho, hn⟩ := Bool.and_eq_true_iff.mp h
  exact Parts.fits (x := noField) (y := noField) hl hn rfl rfl rfl rfl (.nothing _) (.nothing _)
    (fun h => by rw [Row.build, Parts.ord_eq h.small rfl])
    (ord := ordPart_part ho)

theorem GOrd.fits {r : OrdRule} {mk : GOrd → Instr} {a : GOrd} (h : a.wf r q = true) :
    (a.parts p m f).Fits (.gord r mk) (mk a) := by
  obtain ⟨ho, hn⟩ := Bool.and_eq_true_iff.mp h
  exact Parts.fits (x := a.x.field) (y := noField) hl hn rfl rfl rfl (count_first _) (.register _) (.nothing _)
    (fun h => by rw [Row.build, h.xG, Parts.ord_eq h.small rfl])
    (ord := ordPart_part ho)

theorem GBinO.fits {r : OrdRule} {mk : GBinO → Instr} {a : GBinO} (h : a.wf r q = true) :
    (a.parts p m f).Fits (.gbino r mk) (mk a) := by
  obtain ⟨h, hn⟩ := Bool.and_eq_true_iff.mp h
  obtain ⟨ho, hz⟩ := Bool.and_eq_true_iff.mp h
  exact Parts.fits (x := a.x.field) (y := a.y.field) hl hn rfl rfl rfl rfl (.register _) (.register _)
    (fun h => by rw [Row.build, h.xG, h.yG, Parts.zG_eq h.small hz rfl, Parts.ord_eq h.small rfl])
    (thr := thrG_part a.z) (ord := ordPart_part ho)

theorem IIG.fits_even {mk : IIG → Instr} {a : IIG} (h : a.wfEven q = true) : (a.parts p m f).Fits (.mrfn mk) (mk a) := by
  obtain ⟨h, hw⟩ := Bool.and_eq_true_iff.mp h
  obtain ⟨hz, hn⟩ := Bool.and_eq_true_iff.mp hw
  exact Parts.fits (x := idxField a.x) (y := idxField a.y) hl hn rfl rfl rfl rfl (.register _) (.register _)
    (fun h => by rw [Row.build, h.xI, h.yI, Parts.zG!_eq h.small hz rfl])
    (thr := thrG_part (some a.z)) (thrReq := nofun) (baseOk := fun e => by rw [Row.baseOk, e.xI, e.yI, h])

theorem II.fits_mmam {mk : II → Instr} {a : II} (h : a.wfMmam q = true) : (a.partsMmam p m f).Fits (.mmam mk) (mk a) := by
  obtain ⟨hz, hn⟩ := Bool.and_eq_true_iff.mp h
  exact Parts.fits (x := noField) (y := idxField a.x) hl hn rfl rfl rfl (count_second _) (.nothing _) (.register _)
    (fun h => by rw [Row.build, h.yI, Parts.zI!_eq h.small rfl]) (thr := thrI_part (z := some a.y) hz) (thrReq := nofun)

theorem Atom.fits {o : PairRule} {fx : Bool} {mk : Atom → Instr} {a : Atom} (h : a.wf o fx q = true) :
    (a.parts p m f).Fits (.atom o fx mk) (mk a) := by
  obtain ⟨h, hn⟩ := Bool.and_eq_true_iff.mp h
  obtain ⟨h, hx⟩ := Bool.and_eq_true_iff.mp h
  obtain ⟨h, hz⟩ := Bool.and_eq_true_iff.mp h
  obtain ⟨hr, ho⟩ := Bool.and_eq_true_iff.mp h
  have hfmx : Part (fmxPart a.fmt) a.fmt.isSome (fun p => p % 16 = 0 ∧ fx = true) :=
    .map fun v hv => have := v.code_lt; ⟨by omega, by omega, by cases fx <;> simp_all⟩
  exact Parts.fits (x := a.x.field) (y := a.y.field) hl hn rfl rfl rfl rfl (.register _) (.register _)
    (fun h => by
      rw [Row.build, h.xG, h.yG, Parts.zG!_eq h.small hz rfl, Parts.imm_zero h.small (Need.imx_le hn) rfl, Parts.ord_eq h.small rfl,
        Parts.fmt_eq h.small rfl])
    (thr := thrG_part (some a.z)) (thrReq := nofun) (ord := ordPart_part ho) (fmx := hfmx) (imx := immPart_part a.imm)
    (baseOk := fun h => (congrArg o.ok h.xG).trans hr)

theorem unit_fits {i : Instr} (hn : Need.ok {} q = true) : Parts.Fits (.unit i) { page := p, maj := m, fn := f } i :=
  Parts.fits (x := noField) (y := noField) hl hn rfl rfl rfl rfl (.nothing _) (.nothing _) (fun _ => rfl)

theorem AZero.fits {mk : AZero → Instr} {a : AZero} (h : a.wf q = true) : (a.parts p m f).Fits (.azero mk) (mk a) := by
  have hy : a.q56.toNat < 2 := Bool.toNat_lt a.q56
  refine Parts.fits (x := idxField a.x) (y := bitsField a.q56.toNat (by omega)) hl h rfl rfl rfl (count_first _) (.register _) (.literal _ _)
    (fun h => ?_) (baseOk := fun h => ?_)
  · have hb : (a.q56.toNat == 1) = a.q56 := by cases a.q56 <;> rfl
    rw [Row.build, h.xI, h.rawY]
    exact congrArg (fun b => some (mk ⟨a.x, b⟩)) hb
  · rw [Row.baseOk, h.rawY]
    exact decide_eq_true hy

theorem Num8.fits {mk : Num8 → Instr} {a : Num8} (h : a.wf q = true) : (a.parts p m f).Fits (.num mk) (mk a) := by
  have hn := a.n.isLt
  refine Parts.fits (x := bitsField (a.n.toNat / 16) (by omega)) (y := bitsField (a.n.toNat % 16) (by omega)) hl h rfl rfl rfl rfl
    (.literal _ _) (.literal _ _) (fun h => ?_)
  rw [Row.build, h.rawX, h.rawY]
  have hb : BitVec.ofNat 8 (a.n.toNat / 16 * 16 + a.n.toNat % 16) = a.n := by rw [Nat.div_add_mod', BitVec.ofNat_toNat, BitVec.setWidth_eq]
  exact congrArg (fun n => some (mk ⟨n⟩)) hb

theorem VSlide.fits {mk : VSlide → Instr} {a : VSlide} (h : a.wf q = true) : (a.parts p m f).Fits (.vslide mk) (mk a) := by
  obtain ⟨x, src, fmt, prd⟩ := a
  cases src with
  | own d =>
    exact Parts.fits (x := idxField x) (y := d.field) hl h rfl rfl rfl rfl (.register _) (.register _)
      (fun h => by
        rw [Row.build, h.xI, h.yG, Parts.zG_eq (z := none) h.small rfl rfl, Parts.fmt_eq h.small rfl, Parts.prd_eq h.small rfl])
      (fmx := fmxPart_part fmt) (prd := prdPart_part prd)
  | other y d =>
    obtain ⟨hz, hn⟩ := Bool.and_eq_true_iff.mp h
    exact Parts.fits (x := idxField x) (y := idxField y) hl hn rfl rfl rfl rfl (.register _) (.register _)
      (fun h => by
        rw [Row.build, h.xI, h.yI, Parts.zG_eq (z := some d) h.small hz rfl, Parts.fmt_eq h.small rfl, Parts.prd_eq h.small rfl])
      (thr := thrG_part (some d)) (fmx := fmxPart_part fmt) (prd := prdPart_part prd)

theorem Spawn.fits {mk : Spawn → Instr} {a : Spawn} (h : a.wf q = true) : (a.parts p m f).Fits (.spawn mk) (mk a) := by
  obtain ⟨x, target⟩ := a
  obtain ⟨hz, hn⟩ := Bool.and_eq_true_iff.mp h
  cases target with
  | label off =>
    exact Parts.fits (x := x.field) (y := noField) hl hn rfl rfl rfl (count_first _) (.register _) (.nothing _)
      (fun h => by rw [Row.build, h.xG, Parts.zG_eq (z := none) h.small rfl rfl, Parts.imm_label h.small (Need.imx_le hn) rfl])
      (imx := immPayloads_part _ _ off) (imxMin := Nat.le_max_left _ _)
  | reg z =>
    exact Parts.fits (x := x.field) (y := noField) hl hn rfl rfl rfl (count_first _) (.register _) (.nothing _)
      (fun h => by rw [Row.build, h.xG, Parts.zG_eq (z := some z) h.small hz rfl]) (thr := thrG_part (some z))

theorem Spawn2.fits {o : PairRule} {mk : Spawn2 → Instr} {a : Spawn2} (h : a.wf o q = true) : (a.parts p m f).Fits (.spawn2 o mk) (mk a) := by
  obtain ⟨x, y, target⟩ := a
  obtain ⟨h, hn⟩ := Bool.and_eq_true_iff.mp h
  obtain ⟨hy, hz⟩ := Bool.and_eq_true_iff.mp h
  cases target with
  | label off =>
    exact Parts.fits (x := x.field) (y := y.field) hl hn rfl rfl rfl rfl (.register _) (.register _)
      (fun h => by rw [Row.build, h.xG, h.yG, Parts.zG_eq (z := none) h.small rfl rfl, Parts.imm_label h.small (Need.imx_le hn) rfl])
      (imx := immPayloads_part _ _ off) (imxMin := Nat.le_max_left _ _) (baseOk := fun h => (congrArg o.ok h.yG).trans hy)
  | reg z =>
    exact Parts.fits (x := x.field) (y := y.field) hl hn rfl rfl rfl rfl (.register _) (.register _)
      (fun h => by rw [Row.build, h.xG, h.yG, Parts.zG_eq (z := some z) h.small hz rfl]) (thr := thrG_part (some z))
      (baseOk := fun h => (congrArg o.ok h.yG).trans hy)

theorem GImm.fits {mk : GImm → Instr} {a : GImm} (h : a.wf q = true) : (a.parts p m f).Fits (.gimm mk) (mk a) := by
  obtain ⟨hp, hq, hm, -⟩ := hl
  have h4 : immWords 7 a.imm ≤ 4 := Need.imx_le h
  have hi := immBase_lt (immWords 7 a.imm) 7 a.imm
  refine Parts.fits (x := a.x.field) (y := bitsField (immBase (immWords 7 a.imm) 7 a.imm / 8) (by omega))
    ⟨hp, hq, hm, Nat.mod_lt _ (by omega)⟩ h rfl rfl rfl (count_first _) (.register _) (.literal _ _) (fun e => ?_) (imx := immPayloads_part _ _ _)
  have hb : (a.parts p m f).raw.y * 8 + (a.parts p m f).raw.fn = immBase (immWords 7 a.imm) 7 a.imm := by
    rw [e.rawY, Parts.raw_fn e.small]
    exact Nat.div_add_mod' ..
  rw [Row.build, e.xG, hb, Parts.imm_eq e.small h4 (by omega) (immFits_immWords h4) rfl]

theorem JOff.fits {mk : JOff → Instr} {a : JOff} (h : a.wf q = true) : (a.parts p m f).Fits (.joff mk) (mk a) := by
  obtain ⟨hp, hq, hm, -⟩ := hl
  have h4 : immWords 11 a.off ≤ 4 := Need.imx_le h
  have hi := immBase_lt (immWords 11 a.off) 11 a.off
  refine Parts.fits (x := bitsField (immBase (immWords 11 a.off) 11 a.off / 128) (by omega))
    (y := bitsField (immBase (immWords 11 a.off) 11 a.off / 8 % 16) (by omega))
    ⟨hp, hq, hm, Nat.mod_lt _ (by omega)⟩ h rfl rfl rfl rfl (.literal _ _) (.literal _ _) (fun e => ?_) (imx := immPayloads_part _ _ _)
  have hb : (a.parts p m f).raw.x * 128 + (a.parts p m f).raw.y * 8 + (a.parts p m f).raw.fn = immBase (immWords 11 a.off) 11 a.off := by
    rw [e.rawX, e.rawY, Parts.raw_fn e.small]
    simp only [bitsField, JOff.parts]
    omega
  rw [Row.build, hb, Parts.imm_eq e.small h4 (by omega) (immFits_immWords h4) rfl]

theorem GCsr.fits {write : Bool} {mk : GCsr → Instr} {a : GCsr} (h : a.wf write q = true) : (a.parts p m f).Fits (.csr write mk) (mk a) := by
  obtain ⟨hw, hn⟩ := Bool.and_eq_true_iff.mp h
  have h4 : immWords 4 (w64 a.csr.addr) ≤ 4 := Need.imx_le hn
  refine Parts.fits (x := a.x.field) (y := bitsField (immBase (immWords 4 (w64 a.csr.addr)) 4 (w64 a.csr.addr)) (immBase_lt _ 4 _))
    hl hn rfl rfl rfl (count_first _) (.register _) (.literal _ _) (fun e => ?_) (imx := immPayloads_part _ _ _)
  have hc : csrAt ((a.parts p m f).raw.imm 4 (a.parts p m f).raw.y) = some a.csr := by
    rw [e.rawY]
    exact (congrArg csrAt (Parts.imm_eq e.small h4 (by omega) (immFits_immWords h4) rfl)).trans (csrAt_addr a.csr)
  have hw : (write && a.csr.readOnly) = false := (Bool.not_eq_true' _).mp hw
  simp only [Row.build, e.xG, hc, hw, Bool.false_eq_true, if_false]

theorem GShift.fits {mk : GShift → Instr} {a : GShift} (hf : f < 4) (h : a.wf q = true) : (a.parts p m f).Fits (.gshift mk) (mk a) := by
  obtain ⟨hp, hq, hm, -⟩ := hl
  have hi := a.amount.isLt
  refine Parts.fits (x := a.x.field) (y := bitsField (a.amount.val % 16) (by omega))
    ⟨hp, hq, hm, by simp only [GShift.parts]; omega⟩ h rfl rfl rfl (count_first _) (.register _) (.literal _ _) (fun e => ?_) (imx := ?_)
  · have hn : (a.parts p m f).imx.headD 0 % 2 * 32 + (a.parts p m f).fn % 2 * 16 + a.amount.val % 16 = a.amount.val := by
      simp only [GShift.parts]
      split <;> simp <;> omega
    rw [Row.build, e.xG, e.rawY, Parts.raw_fn e.small, Parts.raw_imx e.small]
    refine congrArg (fun n => some (mk ⟨a.x, n⟩)) (Fin.ext ?_)
    exact (congrArg (· % 64) hn).trans (Nat.mod_eq_of_lt hi)
  · simp only [GShift.parts]
    split
    · exact .absent
    · exact ⟨rfl, by simp, by simp; rfl, fun _ => Nat.le_refl _⟩

theorem MCol.fits {mk : MCol → Instr} {a : MCol} (h : a.wf q = true) : (a.parts p m f).Fits (.mcol mk) (mk a) := by
  obtain ⟨x, y, z, prd⟩ := a
  obtain ⟨hz, hn⟩ := Bool.and_eq_true_iff.mp h
  have hz : ∀ v ∈ z, MCol.zOk v = true := by
    rintro ⟨d, g⟩ rfl
    cases d <;> exact hz
  refine Parts.fits (x := idxField x) (y := idxField y) hl hn rfl rfl rfl rfl (.register _) (.register _)
    (fun h => ?_) (thr := .map fun v hv => takesThr_mcol (hz v hv)) (prd := prdPart_part prd)
  rw [Row.build, h.xI, h.yI, Parts.prd_eq h.small rfl, Raw.zG, Raw.ext, Parts.raw_z h.small, Parts.raw_thr h.small]
  cases z with
  | none => rfl
  | some v =>
    obtain ⟨d, g⟩ := v
    obtain ⟨hg, -⟩ := MCol.zOk_iff.mp (hz _ rfl)
    have hm : d.code < 4 := by cases d <;> decide
    have hq : (g.code * 16 + d.code) / 16 = g.code := by omega
    have h4 : (g.code * 16 + d.code) % 16 % 4 = d.code := by omega
    simp only [MCol.parts, Option.map_some, hq, h4, gCode_code hg]
    cases d <;> rfl
end

theorem getElem?_eight {r : Row} {n : Nat} (h : n < 8) : [r, r, r, r, r, r, r, r][n]? = some r := by
  interval_cases n <;> rfl

/-- The base bits of an immediate stand in FN too (R102, R103, R108). -/
theorem Parts.Fits.decodes_eight {row : Row} {e : Parts} {i : Instr} (hf : e.Fits row i)
    (hm : (opcodePage e.page)[e.maj]? = some [row, row, row, row, row, row, row, row]) : e.Decodes i :=
  hf.decodes hm (getElem?_eight hf.small.fn)

/-- Bit 4 of a shift amount stands in FN (R102). -/
theorem Parts.Fits.decodes_shift {row : Row} {e : Parts} {i : Instr} {fns : List Row} {f n : Nat} (hf : e.Fits row i)
    (hm : (opcodePage e.page)[e.maj]? = some fns) (h0 : fns[f * 2]? = some row) (h1 : fns[f * 2 + 1]? = some row) (hfn : e.fn = f * 2 + n % 2) :
    e.Decodes i := by
  refine hf.decodes hm ?_
  rcases Nat.mod_two_eq_zero_or_one n with h | h
  · rwa [hfn, h]
  · rwa [hfn, h]

/-- The words of a well-formed instruction's encoding decode to it (R79). -/
theorem parts_decodes {i : Instr} {e : Parts} (h : i.wf = true) (he : i.parts = some e) : e.Decodes i := by
  cases i with
  | add a | sub a | and a | or a | xor a | shl a | shr a | sra a | mul a | mulh a | mulhn a | min a | max a | minn a | maxn a | ceq a
  | cne a | clt a | cge a | cltn a | cgen a | tst a | div a | divn a | rem a | remn a | bfx a | bfxn a | bfi a | rol a | ror a | fadd a
  | fsub a | fmul a | fdiv a | fmin a | fmax a | feq a | flt a | fle a | funo a | rlaunch a =>
    cases he
    exact (GBin.fits (by decide) h).decodes rfl rfl
  | not a | mov a | sxw a | zxw a | sxb a | sxh a | clz a | popc a | rev a | ctz a | fsqrt a | fabs a | fneg a | cvtif a | cvtfi a | cvtfb a
  | cvtbf a | cvtfh a | cvthf a | falloc a | pub a | rquery a | ctxsave a | purge a | tlbinv a =>
    cases he
    exact (GUn.fits (by decide) h).decodes rfl rfl
  | movi a | addi a | bnz a | bz a =>
    cases he
    exact (GImm.fits (f := 0) (by decide) h).decodes_eight rfl
  | shli a | shri a | srai a | rori a =>
    cases he
    exact (GShift.fits (by decide) (by decide) h).decodes_shift rfl rfl rfl rfl
  | jr a | callr a | flagr a | flagc a | tmark a | aacq a | mwait a | mstat a | syncq a | syncc a | ffree a | tdrop a | tabort a | rwait a
  | grank a | gsize a | repart a | ctxload a =>
    cases he
    exact (GOne.fits (by decide) h).decodes rfl rfl
  | ret | nop | yield | trapf | arel | sync | tend | tbmc | eret | halt =>
    cases he
    exact (unit_fits (q := 1) (by decide) (by decide)).decodes rfl rfl
  | j a | call a =>
    cases he
    exact (JOff.fits (f := 0) (by decide) h).decodes_eight rfl
  | ldb a | ldh a | ldw a | ldd a | ldbs a | ldhs a | ldws a | ldq a | stb a | sth a | stw a | std a | stq a | jadd a | binit a | bexp a
  | barr a | copy a | bwait a | btest a | cwm a | cwait a | ctset a =>
    cases he
    exact (GMem.fits (by decide) h).decodes rfl rfl
  | selnz a | selz a | fma a | fms a | fnma a =>
    cases he
    exact (GTri.fits (by decide) h).decodes rfl rfl
  | lea1 a | lea2 a | lea4 a | lea8 a | lea16 a =>
    cases he
    exact (GLea.fits (by decide) h).decodes rfl rfl
  | sysc a | bkpt a =>
    cases he
    exact (Num8.fits (by decide) h).decodes rfl rfl
  | rdc a | wrc a =>
    cases he
    exact (GCsr.fits (by decide) h).decodes rfl rfl
  | vadd a | vsub a | vmul a | vmin a | vmax a | vand a | vor a | vxor a | vfma a | vfms a | vshl a | vshr a | vsra a | vdiv a | vsel a
  | vperm a =>
    cases he
    exact (VBin.fits (by decide) h).decodes rfl rfl
  | vabs a | vneg a | vcvt a | vpack a | vunpk a | vqds a | vexp a | vrcp a | vrsq a | verf a =>
    cases he
    exact (VUn.fits (by decide) h).decodes rfl rfl
  | vceq a | vcne a | vclt a | vcle a | vcgt a | vcge a =>
    cases he
    exact (VTri.fits (by decide) h).decodes rfl rfl
  | pand a | por a | pxor a =>
    cases he
    exact (PBin.fits (by decide) h).decodes rfl rfl
  | pnot a =>
    cases he
    exact (PUn.fits (by decide) h).decodes rfl rfl
  | pset a =>
    cases he
    exact (PSet.fits (by decide) h).decodes rfl rfl
  | pcnt a | pfirst a =>
    cases he
    exact (PCount.fits (by decide) h).decodes rfl rfl
  | vld a | vlds a | vldb a | vst a | vsts a =>
    cases he
    exact (VMem.fits (by decide) h).decodes rfl rfl
  | vgath a | vscat a =>
    cases he
    exact (VGather.fits (by decide) h).decodes rfl rfl
  | vrsum a | vrmax a | vrmin a =>
    cases he
    exact (VRed.fits (by decide) h).decodes rfl rfl
  | vext a =>
    cases he
    exact (VExt.fits (by decide) h).decodes rfl rfl
  | vbcst a =>
    cases he
    exact (VBcst.fits (by decide) h).decodes rfl rfl
  | vslide a =>
    cases he
    obtain ⟨x, d | ⟨y, d⟩, fmt, prd⟩ := a
    · exact (VSlide.fits (q := 1) (a := ⟨x, .own d, fmt, prd⟩) (by decide) h).decodes rfl rfl
    · exact (VSlide.fits (q := 1) (a := ⟨x, .other y d, fmt, prd⟩) (by decide) h).decodes rfl rfl
  | vsett a =>
    cases he
    exact (VSet.fits (by decide) h).decodes rfl rfl
  | vlen a =>
    cases he
    exact (VLen.fits (by decide) h).decodes rfl rfl
  | viota a =>
    cases he
    exact (VIota.fits (by decide) h).decodes rfl rfl
  | mma a | mmaz a | mmah a | mmazh a =>
    cases he
    exact (ITri.fits (by decide) h).decodes rfl rfl
  | azero a =>
    cases he
    exact (AZero.fits (by decide) h).decodes rfl rfl
  | aload a | astore a =>
    cases he
    exact (AMem.fits (by decide) h).decodes rfl rfl
  | arowv a | avrow a =>
    cases he
    exact (IIG.fits (by decide) h).decodes rfl rfl
  | ascale a | tname a =>
    cases he
    exact (IG.fits (by decide) h).decodes rfl rfl
  | tset a | tget a | tshape a =>
    cases he
    exact (IGG.fits (by decide) h).decodes rfl rfl
  | tadv a =>
    cases he
    exact (TAdv.fits (by decide) h).decodes rfl rfl
  | mchol a =>
    cases he
    exact (MChol.fits (by decide) h).decodes rfl rfl
  | mtrsl a | mtrsu a =>
    cases he
    exact (II.fits (by decide) h).decodes rfl rfl
  | mrfn a =>
    cases he
    exact (IIG.fits_even (by decide) h).decodes rfl rfl
  | madd a | msub a | mmul a | mmk a =>
    cases he
    exact (MBin.fits (by decide) h).decodes rfl rfl
  | mscl a | maff a =>
    cases he
    exact (MTri.fits (by decide) h).decodes rfl rfl
  | mneg a | mrelu a | mexp a | msig a | msqr a | mmean a | mvar a =>
    cases he
    exact (MUn.fits (by decide) h).decodes rfl rfl
  | mcol a =>
    cases he
    exact (MCol.fits (by decide) h).decodes rfl rfl
  | msum a =>
    cases he
    exact (MSum.fits (by decide) h).decodes rfl rfl
  | mchk a =>
    cases he
    exact (MChk.fits (by decide) h).decodes rfl rfl
  | mmam a =>
    cases he
    exact (II.fits_mmam (by decide) h).decodes rfl rfl
  | mastm a | maldm a | jinit a =>
    cases he
    exact (PMem.fits (by decide) h).decodes rfl rfl
  | spawn a =>
    cases he
    exact (Spawn.fits (by decide) h).decodes rfl rfl
  | spawna a | spawnf a =>
    cases he
    exact (Spawn2.fits (by decide) h).decodes rfl rfl
  | gbar a | fence a | fencee a =>
    cases he
    exact (UOrd.fits (by decide) h).decodes rfl rfl
  | gbara a | gbarw a =>
    cases he
    exact (GOrd.fits (by decide) h).decodes rfl rfl
  | donate a =>
    cases he
    exact (GBinO.fits (by decide) h).decodes rfl rfl
  | aadd a | aand a | aor a | axor a | amin a | amax a | aswp a | abinc a | abdec a | afadd a | amadd a | acas a | acas2 a =>
    cases he
    exact (Atom.fits (by decide) h).decodes rfl rfl
  | flush a | inval a | pref a =>
    cases he
    exact (YMem.fits (by decide) h).decodes rfl rfl
  | tfpin a | tfrel a =>
    cases he
    exact (IOne.fits (by decide) h).decodes rfl rfl
  | _ => cases he

end Sys2Proof

end

-- Fetching, and a step of a ready context (O57)
section
/-! Fetching from the own TCM, one word after another (R79, R315), and what a step does by the turn the schedule asks for (log entry 4). -/

set_option Elab.async false

namespace Sys2Proof

theorem encode_eq_raw {i : Instr} {e : Parts} (he : i.parts = some e) : encode i = e.raw.ps ++ [e.raw.base] := by
  rw [encode, he]
  exact e.words_eq

/-- The words of a well-formed instruction are PFX words that scan, at most four, and a base word; they decode to it (R67, R79). -/
theorem exists_words {i : Instr} (h : i.wf = true) (hp : i.parts.isSome = true) :
    ∃ w : Raw, w.ps ++ [w.base] = encode i ∧ Scans w.ps ∧ w.ps.length ≤ 4 ∧ isPfx w.base = false ∧ decodeRaw w = .ok i := by
  obtain ⟨e, he⟩ := Option.isSome_iff_exists.mp hp
  have hd := parts_decodes h he
  exact ⟨e.raw, (encode_eq_raw he).symm, e.scans hd.small hd.words, hd.words, e.isPfx_base hd.small, hd.decode⟩

end Sys2Proof

namespace Sys2Proof.Machine

/-! Fetching from the TCM window. -/

theorem homeBytes_add (s : State) (k pa a b : Nat) : homeBytes s k pa (a + b) = homeBytes s k pa a ++ homeBytes s k (pa + a) b := by
  simp [homeBytes, List.range_add, Function.comp_def, Nat.add_assoc]

theorem length_leBytes (n v : Nat) : (leBytes n v).length = n := by
  induction n generalizing v with
  | zero => rfl
  | succ n ih => rw [leBytes, List.length_cons, ih]

theorem word_of_leBytes (w : Word16) : BitVec.ofNat 16 (leNat (leBytes 2 w.toNat)) = w := by
  have h := w.isLt
  apply BitVec.eq_of_toNat_eq
  simp only [leBytes, leNat, BitVec.toNat_ofNat]
  omega

/-- A byte of a TCM stands at its own address of memory, and in no line of an L2. -/
theorem homeBad_of_tcm (s : State) {key pa k off : Nat} (h : storageOf pa = .tcm k off) (hd : isDram pa = false) :
    homeBad s key pa = Store.get false s.poison pa := by
  have hc : memCell s pa = pa := by rw [memCell, h]
  have hl : homeLine s key pa = none := by rw [homeLine, hd, if_neg Bool.false_ne_true]
  rw [homeBad, hl, hc]

theorem homeByte_of_tcm (s : State) {key pa k off : Nat} (h : storageOf pa = .tcm k off) (hd : isDram pa = false) :
    homeByte s key pa = Store.get blankByte s.mem pa := by
  have hc : memCell s pa = pa := by rw [memCell, h]
  have hl : homeLine s key pa = none := by rw [homeLine, hd, if_neg Bool.false_ne_true]
  rw [homeByte, hl]
  simp only [storedByte, hd, hc, Bool.false_and, Bool.false_eq_true, if_false]

theorem isPoisoned_of_uncached (s : State) {c n : Nat} {p : Place} (h : p.cached = false) :
    isPoisoned s c p n = (List.range n).any (fun i => homeBad s p.key (p.pa + i)) := by
  simp only [isPoisoned, h, Bool.false_eq_true, if_false]

theorem loadPlace_of_tcm (s : State) {c n k off : Nat} {p : Place} {pol : Policy} (hp : p.cached = false) (h : storageOf p.pa = .tcm k off) :
    loadPlace s c p n pol = (s, homeBytes s 0 p.pa n, k == ctxStall c) := by
  simp only [loadPlace, hp, h, Bool.false_eq_true, if_false]

theorem fetchWord_of_translate {s : State} {va : Nat} {l : Located} {bs : List Byte} {b : Bool}
    (hc : cachedText s.myStall (ptbrAsid s.me.ptbr) va = none) (ht : translate s va ⟨2, false, false, !s.me.pl⟩ = .ok (s, l))
    (hp : isPoisoned s s.cur l.place 2 = false) (hr : loadPlace s s.cur l.place 2 .nal = (s, bs, b)) :
    fetchWord s va = .ok (s, BitVec.ofNat 16 (leNat bs)) := by
  simp only [fetchWord, hc, ht, hp, hr, Bool.false_eq_true, if_false]

section
variable {s : State} {va n : Nat} (hin : s.inTcm va n) (hbad : s.intact va n)
include hin

theorem tcmPlace_add (d : Nat) : (s.tcmPlace (va + d)).pa = (s.tcmPlace va).pa + d := by
  obtain ⟨-, hlo, -⟩ := hin
  simp only [State.tcmPlace]
  omega

theorem storageOf_tcmPlace {i : Nat} (hi : i < n) : ∃ off, storageOf ((s.tcmPlace va).pa + i) = .tcm (ctxStall s.cur) off := by
  obtain ⟨hl, hlo, hhi⟩ := hin
  have hk : ctxStall s.cur < 512 * 8192 := by
    unfold ctxLimit at hl
    unfold ctxStall
    omega
  refine ⟨va - tcmWindow + i, ?_⟩
  rw [State.tcmPlace, Nat.add_assoc]
  exact storageOf_tcm hk (by omega)

theorem isDram_tcmPlace {i : Nat} (hi : i < n) : isDram ((s.tcmPlace va).pa + i) = false := by
  obtain ⟨hl, hlo, hhi⟩ := hin
  refine decide_eq_false ?_
  simp only [State.tcmPlace, tcmBase]
  omega

/-- The bytes of a TCM are those of memory alone. -/
theorem homeBytes_tcmPlace {t : State} (hm : s.mem = t.mem) : homeBytes s 0 (s.tcmPlace va).pa n = homeBytes t 0 (s.tcmPlace va).pa n := by
  refine List.map_congr_left fun i hi => ?_
  have hn := List.mem_range.mp hi
  obtain ⟨off, ho⟩ := storageOf_tcmPlace hin hn
  have hd := isDram_tcmPlace hin hn
  rw [homeByte_of_tcm s ho hd, homeByte_of_tcm t ho hd, hm]

include hbad
theorem homeBad_tcmPlace {i : Nat} (hi : i < n) : homeBad s 0 ((s.tcmPlace va).pa + i) = false := by
  obtain ⟨off, ho⟩ := storageOf_tcmPlace hin hi
  exact (homeBad_of_tcm s ho (isDram_tcmPlace hin hi)).trans (hbad i hi)

theorem isPoisoned_tcmPlace {c m : Nat} (hm : m ≤ n) : isPoisoned s c (s.tcmPlace va) m = false := by
  rw [isPoisoned_of_uncached s rfl, List.any_eq_false]
  intro i hi
  exact Bool.eq_false_iff.mp (homeBad_tcmPlace hin hbad (Nat.lt_of_lt_of_le (List.mem_range.mp hi) hm))

theorem fetchWord_tcm (ht : s.myStall.texts = []) (hn : 2 ≤ n) {w : Word16}
    (hw : homeBytes s 0 (s.tcmPlace va).pa 2 = leBytes 2 w.toNat) : fetchWord s va = .ok (s, w) := by
  have hp := isPoisoned_tcmPlace hin hbad (c := s.cur) hn
  obtain ⟨off, ho⟩ := storageOf_tcmPlace hin (i := 0) (by omega)
  rw [Nat.add_zero] at ho
  have hr : loadPlace s s.cur (s.tcmPlace va) 2 .nal = (s, leBytes 2 w.toNat, ctxStall s.cur == ctxStall s.cur) :=
    (loadPlace_of_tcm s rfl ho).trans (by rw [hw])
  obtain ⟨hl, hlo, hhi⟩ := hin
  have htr : translate s va ⟨2, false, false, !s.me.pl⟩ = .ok (s, ⟨s.tcmPlace va, 0⟩) := translate_tcm s hl va _ hlo (by omega)
  have hc : cachedText s.myStall (ptbrAsid s.me.ptbr) va = none := by
    rw [cachedText, ht]
    rfl
  rw [fetchWord_of_translate hc htr hp hr, word_of_leBytes]
end

theorem fetchFrom_tcm {s : State} {b : Word16} (ht : s.myStall.texts = []) (hb : isPfx b = false) (rest : List Word16) {va k : Nat}
    {done : List Word16} (hs : Scans (done ++ rest)) (hin : s.inTcm va (2 * (rest.length + 1))) (hbad : s.intact va (2 * (rest.length + 1)))
    (hbytes : homeBytes s 0 (s.tcmPlace va).pa (2 * (rest.length + 1)) = (rest ++ [b]).flatMap (fun w => leBytes 2 w.toNat))
    (hk : rest.length < k) : fetchFrom k s va done = .ok (s, .ok ⟨done ++ rest, b⟩) := by
  induction rest generalizing va k done with
  | nil =>
    obtain ⟨k, rfl⟩ := Nat.exists_eq_succ_of_ne_zero (Nat.ne_of_gt hk)
    have hw := fetchWord_tcm hin hbad ht (Nat.le_refl 2) (w := b) (by simpa using hbytes)
    simp [fetchFrom, hw, scanStep, hb]
  | cons w rest ih =>
    obtain ⟨k, rfl⟩ := Nat.exists_eq_succ_of_ne_zero (Nat.ne_of_gt (Nat.zero_lt_of_lt hk))
    rw [List.length_cons] at hin hbad hbytes hk
    rw [show 2 * (rest.length + 1 + 1) = 2 + 2 * (rest.length + 1) by ring] at hin hbad hbytes
    rw [homeBytes_add, List.cons_append, List.flatMap_cons] at hbytes
    obtain ⟨h1, h2⟩ := List.append_inj hbytes (by simp [homeBytes, length_leBytes])
    have hw := fetchWord_tcm hin hbad ht (by omega) h1
    have hstep : scanStep done w = .more (done ++ [w]) := hs done w rest rfl
    rw [← tcmPlace_add hin] at h2
    have hrest := ih (va := va + 2) (k := k) (done := done ++ [w]) (by rwa [List.append_assoc]) ?_ ?_ h2 (by omega)
    · simp only [fetchFrom, hw, hstep, hrest, List.append_assoc, List.singleton_append]
    · obtain ⟨hl, hlo, hhi⟩ := hin
      exact ⟨hl, by omega, by omega⟩
    · intro i hi
      rw [tcmPlace_add hin, Nat.add_assoc]
      exact hbad (2 + i) (by omega)

end Sys2Proof.Machine

namespace Sys2Proof.Machine

/-! A step, by what the schedule asks for. -/

section
variable {s : State} {c : Nat} {e : Event} {r : List Turn}

theorem step_issue (h : s.sched = .issue c :: r) : step s = issueOn c { s with tick := s.tick + 1, sched := r } := by
  simp only [step, h]

theorem step_step (h : s.sched = .step c :: r) : step s = stepHalted c { s with tick := s.tick + 1, sched := r } := by
  simp only [step, h]

theorem step_event (h : s.sched = .event e :: r) : step s = exec e.instr { s with tick := s.tick + 1, sched := r } := by
  simp only [step, h]

theorem step_idle (h : s.sched = []) (hd : s.due = []) (hr : nextReady { s with tick := s.tick + 1 } = none) :
    step s = .next { s with tick := s.tick + 1 } := by
  simp only [h, hd] at hr
  simp only [step, h, hd, hr]

theorem step_due {l : List Event} (h : s.sched = []) (hd : s.due = e :: l)
    (hr : nextReady { s with tick := s.tick + 1 } = none ∨ s.tick % 2 = 1) : step s = exec e.instr { s with tick := s.tick + 1, due := l } := by
  rcases hn : nextReady { s with tick := s.tick + 1 } with _ | ⟨c, m, u⟩
  · simp only [h, hd] at hn
    simp only [step, h, hd, hn]
  · have ho : s.tick % 2 = 1 := hr.resolve_left (by rw [hn]; nofun)
    simp only [h, hd] at hn
    simp only [step, h, hd, hn]
    exact if_pos (by omega)

theorem step_ready {l : List Nat} {w : State} (h : s.sched = []) (hr : nextReady { s with tick := s.tick + 1 } = some (c, l, w))
    (hd : s.due = [] ∨ s.tick % 2 = 0) : step s = issueOn c { w with sched := l.map .issue } := by
  rcases hl : s.due with _ | ⟨e, m⟩
  · simp only [h, hl] at hr
    simp only [step, h, hl, hr]
  · have ho : s.tick % 2 = 0 := hd.resolve_left (by rw [hl]; nofun)
    simp only [h, hl] at hr
    simp only [step, h, hl, hr]
    exact if_neg (by omega)

end

/-! A turn of a context. -/

section
variable {s s1 : State} {c : Nat}

theorem issueOn_beyond (h : ctxLimit ≤ c) : issueOn c s = .fault .noSuchUnit := if_pos h

theorem issueOn_not_ready (h : c < ctxLimit) (hi : canIssue s c = false) : issueOn c s = .next s := by
  rw [issueOn, if_neg (Nat.not_le.mpr h), hi]
  rfl

theorem issueOn_preempt (h : c < ctxLimit) (hi : canIssue s c = true) (hp : (s.ctx c).preemptDue = true) (hm : isMidway s c = false) :
    issueOn c s = .next (takePreempt { s with cur := c } c) := by
  rw [issueOn, if_neg (Nat.not_le.mpr h), hi, hp, hm]
  rfl

theorem issueOn_ready (h : c < ctxLimit) (hi : canIssue s c = true) (hp : (s.ctx c).preemptDue = false ∨ isMidway s c = true) :
    issueOn c s = if (s.ctx c).stepping || isMidway s c then endTurn (isMidway s c) c (issueDecoded { s with cur := c })
      else issueDecoded { s with cur := c } := by
  have hpm : ((s.ctx c).preemptDue && !isMidway s c) = false := by
    rcases hp with hp | hp <;> simp [hp]
  rw [issueOn, if_neg (Nat.not_le.mpr h), hi, hpm]
  rfl

theorem issueOn_plain (h : c < ctxLimit) (hi : canIssue s c = true) (hp : (s.ctx c).preemptDue = false) (hs : (s.ctx c).stepping = false)
    (hm : isMidway s c = false) : issueOn c s = issueDecoded { s with cur := c } := by
  rw [issueOn_ready h hi (.inl hp), hs, hm]
  exact if_neg Bool.false_ne_true

theorem issueDecoded_stop {e : Stop} (h : fetch s = .error e) : issueDecoded s = finish s (.error e) := by
  rw [issueDecoded, h]

theorem issueDecoded_illegal {e : Illop} (h : fetch s = .ok (s1, .error e)) :
    issueDecoded s = .next (s1.trap s1.cur (decodeTrap e)) := by
  rw [issueDecoded, h]

theorem issueDecoded_bad {e : Illop} {w : Raw} (h : fetch s = .ok (s1, .ok w)) (hd : decodeRaw w = .error e) :
    issueDecoded s = .next (s1.trap s1.cur (decodeTrap e)) := by
  simp only [issueDecoded, h, hd]

theorem issueDecoded_instr {i : Instr} {w : Raw} (h : fetch s = .ok (s1, .ok w)) (hd : decodeRaw w = .ok i) :
    issueDecoded s = exec i (beginIssue s1 w) := by
  simp only [issueDecoded, h, hd]

theorem endTurn_stepping {t : State} (m : Bool) (hi : hasIssued t c = true) (hs : (t.ctx c).stepping = true) :
    endTurn m c (.next t) = .next (haltContext (dropVisits (t.updCtx c (fun v => { v with stepping := false })) (.issue c)) c) := by
  simp only [endTurn, hi, hs, Bool.not_true, Bool.false_eq_true, if_false, if_true]

theorem stepHalted_eq (c : Nat) (s : State) : stepHalted c s =
    if (s.ctx c).st = .halt then issueOn c ((resumeContext s c).updCtx c (fun v => { v with stepping := true })) else .next s := by
  by_cases h : (s.ctx c).st = .halt <;> simp [stepHalted, h]

/-- A well-formed instruction's words at the PC, in the own TCM, are fetched, and decode to it (R67, R79, R315). -/
theorem fetch_encode {i : Instr} (hw : i.wf = true) (hp : i.parts.isSome = true) (ht : s.myStall.texts = [])
    (hin : s.inTcm s.me.pc.toNat (2 * (encode i).length)) (hbad : s.intact s.me.pc.toNat (2 * (encode i).length))
    (hb : homeBytes s 0 (s.tcmPlace s.me.pc.toNat).pa (2 * (encode i).length) = (encode i).flatMap (fun w => leBytes 2 w.toNat)) :
    ∃ w, w.ps ++ [w.base] = encode i ∧ fetch s = .ok (s, .ok w) ∧ decodeRaw w = .ok i := by
  obtain ⟨w, he, hscan, hlen, hbase, hd⟩ := exists_words hw hp
  refine ⟨w, he, ?_, hd⟩
  have hl : (encode i).length = w.ps.length + 1 := by rw [← he, List.length_append, List.length_singleton]
  rw [hl] at hin hbad hb
  rw [← he] at hb
  exact fetchFrom_tcm ht hbase w.ps hscan hin hbad hb (by omega)

theorem step_encode {u : State} {pc n : Nat} {i : Instr} {r : List Turn} (hu : u = { s with tick := s.tick + 1, sched := r, cur := c })
    (hpc : pc = u.me.pc.toNat) (hn : n = 2 * (encode i).length) (hsched : s.sched = .issue c :: r) (hc : c < ctxLimit)
    (hi : canIssue s c = true) (hp : u.me.preemptDue = false) (hst : u.me.stepping = false) (hm : isMidway s c = false)
    (ht : u.myStall.texts = []) (hw : i.wf = true) (hparts : i.parts.isSome = true) (hin : u.inTcm pc n) (hbad : u.intact pc n)
    (hb : homeBytes s 0 (u.tcmPlace pc).pa n = (encode i).flatMap (fun w => leBytes 2 w.toNat)) :
    ∃ w, w.ps ++ [w.base] = encode i ∧ step s = exec i (beginIssue u w) := by
  have hb' := (homeBytes_tcmPlace hin (t := s) (by rw [hu])).trans hb
  subst hpc hn
  obtain ⟨w, he, hf, hd⟩ := fetch_encode hw hparts ht hin hbad hb'
  subst hu
  have hready : issueOn c { s with tick := s.tick + 1, sched := r } = issueDecoded { s with tick := s.tick + 1, sched := r, cur := c } :=
    issueOn_plain hc hi hp hst hm
  exact ⟨w, he, (step_issue hsched).trans (hready.trans (issueDecoded_instr hf hd))⟩

end

/-! What issuing notes. -/

section
variable (s : State) (w : Raw)

theorem beginIssue_eq : beginIssue s w = { s with ctxs := (beginIssue s w).ctxs, stalls := (beginIssue s w).stalls } := rfl

theorem me_beginIssue : (beginIssue s w).me = { s.me with len := 2 * (w.ps.length + 1), waited := false }  := by
  simp [beginIssue, State.me, State.upd]

theorem ctx_beginIssue {c : Nat} (h : c ≠ s.cur) : (beginIssue s w).ctx c = s.ctx c := by
  simp [beginIssue, State.ctx_upd_ne s _ h]

theorem stall_beginIssue {k : Nat} (h : k ≠ ctxStall s.cur) : (beginIssue s w).stall k = s.stall k :=
  (State.stall_updStall _ _ _ _).trans (if_neg h)

theorem myStall_beginIssue : (beginIssue s w).myStall =
    if onVPort w then { s.myStall with vPtr := s.cur % 64, ptrV := true, ptrOld := s.myStall.vPtr }
    else { s.myStall with sPtr := s.cur % 64, ptrV := false, ptrOld := s.myStall.sPtr } :=
  State.stall_updStall_same _ _ _

end

end Sys2Proof.Machine

namespace Sys2Proof
open Machine

/-- Settles O57, by the turn that the schedule asks for; the words of a well-formed instruction are fetched one by one from the TCM and
decode back to it (`fetch_encode`). -/
theorem stepRunsDecoded : Obligations.step_runs_decoded := by
  unfold Obligations.step_runs_decoded
  refine ⟨?_, ?_, ?_, ?_, ?_, ?_, ?_⟩
  · intro s c r hsched u v
    have hstep : step s = issueOn c u := step_issue hsched
    rw [hstep]
    refine ⟨issueOn_beyond, issueOn_not_ready, issueOn_preempt, fun hc hi hp => ?_⟩
    rw [issueOn_ready hc hi hp]
    refine ⟨fun e he => ?_, fun s1 e he => ?_, fun s1 w he => ⟨fun i hd => ?_, fun e hd => ?_⟩⟩
    · rw [issueDecoded_stop he]
    · rw [issueDecoded_illegal he]
    · rw [issueDecoded_instr he hd]
    · rw [issueDecoded_bad he hd]
  · intro s c r i hsched hc u pc n hi hp hst hm ht hw hparts hin hbad hb
    exact step_encode rfl rfl rfl hsched hc hi hp hst hm ht hw hparts hin hbad hb
  · exact fun s w => ⟨beginIssue_eq s w, me_beginIssue s w, fun _ => ctx_beginIssue s w, fun _ => stall_beginIssue s w, myStall_beginIssue s w⟩
  · exact fun s t c => endTurn_stepping _
  · intro s c r h
    rw [step_step h, stepHalted_eq]
    rfl
  · exact fun s e r => step_event
  · exact fun s h => ⟨step_idle h, fun e r => step_due h, fun c l w => step_ready h⟩

end Sys2Proof

end

-- A halt lifted under a log that lies in registers (O54)
section
/-!
When a stall's halt is lifted, the contexts that waited for a channel of its arcade run again, and a log of their stall records that
(R392, R397). No premise of O54 keeps the log's page off the register block of a hall: here WRITTEN reads 8 and the record falls on IDATA of
arcade 1, so the log writes a register of the halted context that ISEL selects (R396).
-/

set_option Elab.async false

namespace Sys2Proof.Machine

/-- A translation of page 0 to the page of the Inspector's registers in the register block of hall 0 (Table 13-5). -/
def inspectorPage : Tlb := ⟨0, 0, 2 ^ 12, 0x30000001000, 0, true, false, false, 0, false, 0⟩

/-- Context 0 waits for a channel of arcade 0. -/
def tracedCtx : Ctx :=
  { Ctx.reset 0 with st := .wmsg, wait := .slot 0 0, ptbr := 9, walked := [inspectorPage], logTime := (Config.freeCyc 0 0).toNat / 2 ^ 28 }

/-- Stall 0 is halted and logs state changes; its trace buffer lies in `inspectorPage`, where WRITTEN reads 8. ISEL of arcade 1 selects `g5` of
the halted context 512, which holds all ones. -/
def tracingState : State :=
  { State.reset with
    mem := [(0x30000001000, 8)]
    gfile := [(16389, BitVec.allOnes 64)]
    ctxs := [(0, tracedCtx), (512, { Ctx.reset 0 with st := .halt })]
    stalls := [(0, { Stall.reset 0 with tracec := 1, halted := true })]
    arcades := [(1, { Arcade.reset with isel := 5 * 2 ^ 12 })] }

/-- After the halt of stall 0 is lifted. -/
def resumedState : State :=
  (tracingState.updStall 0 (fun v => { v with halted := false })).updCtx 0 (fun v => { v with halted := false })

/-- When context 0 runs again, before the change is logged. -/
def wokenState : State := (resumedState.updCtx 0 (fun v => { v with wait := .none })).updCtx 0 (fun v => { v with st := .run })

/-- A place of that page. -/
def inspectorPlace (off : Nat) : Place := ⟨0x30000001000 + off, false, false, 0, 0⟩

/-! A log whose page holds registers. -/

theorem logWrite_hallRegs {s : State} {c h off : Nat} {p : Place} {bs : List Byte} (hr : isRemote c p = false) (hc : p.cached = false)
    (hs : storageOf p.pa = .hallRegs h off) : logWrite s c p bs = writeHallRegBytes s h off bs := by
  simp [logWrite, performThrough, performAt, plainStore, isDevice, hr, hc, hs]

theorem logTimed_of_eq {s : State} {c r : Nat} (h : (s.ctx c).logTime = (Config.freeCyc (ctxStall c) s.tick).toNat / 2 ^ 28) :
    logTimed s c r = logRecord s c r := if_pos h

/-- A record with room in the buffer: the record, then WRITTEN (R397). -/
theorem logRecord_eq {s : State} {c r base cap n : Nat} {w d q : Located} (hb : logBase (s.stall (ctxStall c)).tracec.toNat c = base)
    (hc : logCap (s.stall (ctxStall c)).tracec.toNat = cap) (h0 : translateNow s c base logAcc = .ok (s, w))
    (h8 : translateNow s c (base + 8) logAcc = .ok (s, d)) (hn : logRead s c w.place 8 = (s, n)) (hlt : n < cap)
    (hq : translateNow s c (base + 0x40 + 4 * (n % cap)) logAcc = .ok (s, q)) :
    logRecord s c r = logWrite (logWrite s c q.place (leBytes 4 r)) c w.place (leBytes 8 (n + 1)) := by
  simp only [logRecord, hb, hc, h0, h8, hn, hq, decide_eq_false (Nat.not_le.mpr hlt), Bool.and_false, Bool.false_eq_true, if_false]

theorem logRecord_wokenState (r : Nat) : logRecord wokenState 0 r =
    logWrite (logWrite wokenState 0 (inspectorPlace 0x60) (leBytes 4 r)) 0 (inspectorPlace 0) (leBytes 8 9) :=
  logRecord_eq (s := wokenState) (c := 0) (r := r) (base := 0) (cap := 1008) (n := 8) (w := ⟨inspectorPlace 0, 0⟩)
    (d := ⟨inspectorPlace 8, 0⟩) (q := ⟨inspectorPlace 0x60, 0⟩) rfl rfl rfl rfl rfl (by decide) rfl

/-- IDATA of arcade 1 after a record: its low half is the record. -/
def recordedWord (r : Nat) : Word := w64 (replaceBytes 64 (BitVec.allOnes 64) 0 (leBytes 4 r)).toNat

theorem recordedWord_ne {r : Nat} (h : r < 2 ^ 28) : recordedWord r ≠ BitVec.allOnes 64 := by
  intro he
  have hb : (recordedWord r).getLsbD 31 = true := by rw [he]; rfl
  have hl : leNat (leBytes 4 r) = r := by
    simp only [leBytes, leNat, BitVec.toNat_ofNat]
    omega
  have hr : (BitVec.ofNat 64 r).getLsbD 31 = false := by
    rw [BitVec.getLsbD_ofNat, Nat.testBit_lt_two_pow (by omega), Bool.and_false]
  have hm : (BitVec.ofNat 64 (onesAt 32 0)).getLsbD 31 = true := rfl
  simp only [recordedWord, BitVec.ofNat_toNat, BitVec.setWidth_eq, replaceBytes, hl, show (leBytes 4 r).length = 4 from rfl, Nat.mul_zero,
    pow_zero, Nat.mul_one, BitVec.getLsbD_or, BitVec.getLsbD_and, BitVec.getLsbD_not, hm, hr] at hb
  exact absurd hb (by decide)

theorem logWrite_record (r : Nat) : logWrite wokenState 0 (inspectorPlace 0x60) (leBytes 4 r) = inspectWrite wokenState 1 (recordedWord r) := by
  have hreg (n : Nat) : writeHallReg wokenState 0 0x1060 n = inspectWrite wokenState 1 (w64 n) := rfl
  have hold : hallReg wokenState 0 (0x1060 / 8 * 8) = (BitVec.allOnes 64).toNat := rfl
  rw [logWrite_hallRegs rfl rfl rfl (h := 0) (off := 0x1060), writeHallRegBytes, if_neg (by simp [leBytes]), if_neg (by simp [leBytes]), hold]
  exact hreg _

theorem gfile_record (x : Word) : (inspectWrite wokenState 1 x).gfile = Store.set 0 [(16389, BitVec.allOnes 64)] 16389 x := rfl

theorem gfile_written (s : State) : (logWrite s 0 (inspectorPlace 0) (leBytes 8 9)).gfile = s.gfile := by
  have hw : writeHallRegBytes s 0 0x1000 (leBytes 8 9) = writeHallReg s 0 0x1000 9 := rfl
  rw [logWrite_hallRegs rfl rfl rfl (h := 0) (off := 0x1000), hw]
  rfl

theorem gfile_logRecord_wokenState {r : Nat} (h : r < 2 ^ 28) : (logRecord wokenState 0 r).gfile ≠ tracingState.gfile := by
  rw [logRecord_wokenState, gfile_written, logWrite_record, gfile_record]
  intro he
  have hv := congrArg (Store.get 0 · 16389) he
  simp only [Store.get_set] at hv
  exact recordedWord_ne h hv

/-! What lifting a halt leads to. -/

theorem causeOnce_gfile (s : State) (e : Event) : (s.causeOnce e).gfile = s.gfile := by
  unfold State.causeOnce
  split <;> rfl

theorem foldl_cause_gfile {α : Type} (e : Event) (l : List α) (s : State) : (l.foldl (fun t _ => t.cause e) s).gfile = s.gfile := by
  induction l generalizing s with
  | nil => rfl
  | cons _ l ih => exact ih (s.cause e)

theorem resumeStall_gfile (s : State) (k : Nat) : (resumeStall s k).gfile =
    (thawCarter ((stallContexts s k).foldl resumeContext (s.updStall k (fun v => { v with halted := false }))) k).gfile := by
  simp only [resumeStall, foldl_cause_gfile, causeOnce_gfile]

theorem thawCarter_gfile {s : State} {k : Nat} (h : carterFrozen s (stallArcade k) = false) :
    (thawCarter s k).gfile = (wakeSlots s (stallArcade k) (fun _ => true)).gfile := by
  simp only [thawCarter, h, Bool.false_eq_true, if_false, causeOnce_gfile]

theorem exists_logState_run {s : State} {c : Nat} (h : bitOf (s.stall (ctxStall c)).tracec.toNat 0 = true) :
    ∃ r < 2 ^ 28, logState s c .run = logTimed s c r :=
  ⟨0 * 2 ^ 28 + (Config.freeCyc (ctxStall c) s.tick).toNat % 2 ^ 28, by omega, if_neg (by rw [h]; nofun)⟩

/-- A context that waited runs again, and its stall logs that. -/
theorem wake_eq_logTimed {s u : State} {c : Nat} (hu : s.updCtx c (fun v => { v with wait := .none }) = u) (hh : isHalted u c = false)
    (hr : (u.ctx c).st ≠ .run) (hs : (u.ctx c).st ≠ .halt) (ht : bitOf (u.stall (ctxStall c)).tracec.toNat 0 = true) :
    ∃ r < 2 ^ 28, wake s c = logTimed (u.updCtx c (fun v => { v with st := .run })) c r := by
  obtain ⟨r, hlt, hl⟩ := exists_logState_run (s := u.updCtx c (fun v => { v with st := .run })) ht
  exact ⟨r, hlt, by rw [wake, hu, enter, hh, Bool.and_false, if_neg Bool.false_ne_true, if_neg (not_or.mpr ⟨hr, hs⟩), hl]⟩

theorem wake_resumed : (wake resumedState 0).gfile ≠ tracingState.gfile := by
  obtain ⟨r, hlt, h⟩ := wake_eq_logTimed (s := resumedState) (c := 0) rfl rfl nofun nofun rfl
  have hw : wake resumedState 0 = logRecord wokenState 0 r := h.trans (logTimed_of_eq rfl)
  rw [hw]
  exact gfile_logRecord_wokenState hlt

theorem wakeWhere_gfile {s : State} {f : Wait → Bool} {l : List Nat}
    (h : (s.ctxs.filter (fun e => f e.2.wait && e.2.dying.isNone)).map (·.1) = l) : (wakeWhere s f).gfile = (l.foldl wake s).gfile := by
  simp only [wakeWhere, h]

theorem wakeSlots_resumed : (wakeSlots resumedState 0 (fun _ => true)).gfile = (wake resumedState 0).gfile :=
  wakeWhere_gfile (l := [0]) rfl

/-- Lifting the halt of stall 0 writes `g5` of the halted context 512. -/
theorem resumeStall_tracingState : (resumeStall tracingState 0).gfile ≠ tracingState.gfile := by
  have hr : (stallContexts tracingState 0).foldl resumeContext (tracingState.updStall 0 (fun v => { v with halted := false })) =
      resumedState := rfl
  rw [resumeStall_gfile, hr, thawCarter_gfile rfl]
  exact fun h => wake_resumed (wakeSlots_resumed.symm.trans h)

end Sys2Proof.Machine

namespace Sys2Proof
open Machine

/-- Refutes O54: a resumed stall wakes the contexts that waited for a channel of its arcade, and logs that (R397); where the log's page is
that of the Inspector's registers, a record falls on IDATA and is written to a register of a halted context, so the main file is not as it
was. -/
theorem not_platformEvents : ¬ Obligations.platform_events := by
  unfold Obligations.platform_events
  rintro ⟨h, -⟩
  obtain ⟨-, t, ht, -, hg, -⟩ := h tracingState 0 0
  have he : exec (.crossTrigger 0 false) tracingState = .next (resumeStall tracingState 0) := rfl
  cases he.symm.trans ht
  exact resumeStall_tracingState hg

end Sys2Proof

end

-- Division (O4)
section
/-!
The divisions of R41 work on naturals of any width; here they are said of bit vectors: `BitVec.toInt` is the value that the signed forms
divide, and the two operands that overflow are `BitVec.intMin` and `BitVec.allOnes`.
-/

set_option Elab.async false

namespace Sys2Proof.Machine

/-! Two's complement values. -/

@[simp] theorem signedOf_toNat {w : Nat} (x : BitVec w) : signedOf w x.toNat = x.toInt := by
  rw [signedOf, Nat.mod_eq_of_lt x.isLt, BitVec.toInt_eq_toNat_cond]
  norm_cast

theorem ofNat_wrapTo (w : Nat) (z : Int) : BitVec.ofNat w (wrapTo w z) = BitVec.ofInt w z := by
  rw [wrapTo, BitVec.ofInt, BitVec.ofNatLT_eq_ofNat]
  norm_cast

theorem toInt_eq_least_iff {x : Word} : x.toInt = -(2 : Int) ^ (64 - 1) ↔ x = BitVec.intMin 64 :=
  BitVec.toInt_inj (y := BitVec.intMin 64)

theorem toInt_eq_neg_one_iff {x : Word} : x.toInt = -1 ↔ x = BitVec.allOnes 64 :=
  BitVec.toInt_inj (y := BitVec.allOnes 64)

theorem toNat_eq_zero_iff {x : Word} : x.toNat = 0 ↔ x = 0 := BitVec.toNat_inj (y := 0)

/-! The divisions (R41, R100). -/

/-- DZ where the divisor is zero, and OF for the signed division of the least value by -1 (R41). -/
def divisionFlags (signed : Bool) (a b : Word) : FlagSet :=
  if b = 0 then flagDZ else if signed = true ∧ a = BitVec.intMin 64 ∧ b = BitVec.allOnes 64 then flagOF else 0

theorem flagIf_overflow (a b : Word) :
    flagIf (decide (a.toInt = -(2 : Int) ^ (64 - 1)) && decide (b.toInt = -1)) flagOF =
      if a = BitVec.intMin 64 ∧ b = BitVec.allOnes 64 then flagOF else 0 := by
  simp only [flagIf, toInt_eq_least_iff, toInt_eq_neg_one_iff, Bool.and_eq_true, decide_eq_true_eq]

theorem word64_divide_zero (signed : Bool) (a : Word) : word64 (divide signed 64) a 0 = ⟨BitVec.allOnes 64, flagDZ⟩ := rfl

theorem word64_remainder_zero (signed : Bool) (a : Word) : word64 (remainder signed 64) a 0 = ⟨a, flagDZ⟩ := by
  have h : remainder signed 64 a.toNat (0 : Word).toNat = ⟨a.toNat % 2 ^ 64, flagDZ⟩ := if_pos rfl
  simp only [word64, h, BitVec.toNat_mod_cancel, BitVec.ofNat_toNat, BitVec.setWidth_eq]

theorem word64_divide_signed (a b : Word) : word64 (divide true 64) a b =
    ⟨if b = 0 then BitVec.allOnes 64 else BitVec.ofInt 64 (Int.tdiv a.toInt b.toInt), divisionFlags true a b⟩ := by
  obtain rfl | h := eq_or_ne b 0
  · exact word64_divide_zero true a
  · simp only [word64, divide, divisionFlags, BitVec.toNat_mod_cancel, toNat_eq_zero_iff, h, if_false, if_true, true_and,
      signedOf_toNat, flagIf_overflow, ofNat_wrapTo]

theorem word64_divide_unsigned (a b : Word) : word64 (divide false 64) a b =
    ⟨if b = 0 then BitVec.allOnes 64 else BitVec.ofNat 64 (a.toNat / b.toNat), divisionFlags false a b⟩ := by
  obtain rfl | h := eq_or_ne b 0
  · exact word64_divide_zero false a
  · simp only [word64, divide, divisionFlags, BitVec.toNat_mod_cancel, toNat_eq_zero_iff, h, if_false, Bool.false_eq_true, false_and]

theorem word64_remainder_signed (a b : Word) : word64 (remainder true 64) a b =
    ⟨if b = 0 then a else BitVec.ofInt 64 (Int.tmod a.toInt b.toInt), divisionFlags true a b⟩ := by
  obtain rfl | h := eq_or_ne b 0
  · exact word64_remainder_zero true a
  · simp only [word64, remainder, divisionFlags, BitVec.toNat_mod_cancel, toNat_eq_zero_iff, h, if_false, if_true, true_and,
      signedOf_toNat, flagIf_overflow, ofNat_wrapTo]

theorem word64_remainder_unsigned (a b : Word) : word64 (remainder false 64) a b =
    ⟨if b = 0 then a else BitVec.ofNat 64 (a.toNat % b.toNat), divisionFlags false a b⟩ := by
  obtain rfl | h := eq_or_ne b 0
  · exact word64_remainder_zero false a
  · simp only [word64, remainder, divisionFlags, BitVec.toNat_mod_cancel, toNat_eq_zero_iff, h, if_false, Bool.false_eq_true, false_and]

/-- A binary instruction with its operands in the window makes the register step of its result. -/
theorem runGBin_registerStep {f : Word → Word → Flagged Word} {a : GBin} {s : State} {w : Word} {g : FlagSet} (hx : s.reads a.x = true)
    (hy : s.reads a.y = true) (hz : s.readsZ a.z = true) (hf : f (s.first a) (s.second a) = ⟨w, g⟩) :
    ∃ t, runGBin f a s = .next t ∧ RegisterStep s t a.x w g := by
  refine ⟨_, runGBin_next f a s hx hy hz, ?_⟩
  rw [hf]
  exact complete_registerStep s a.x w g

end Sys2Proof.Machine

namespace Sys2Proof
open Machine

/-- Settles O4: each form is a binary instruction (`runGBin_registerStep`), and what its division gives on naturals is the value and the
flags of R41 on words. -/
theorem divisionResults : Obligations.division_results := by
  unfold Obligations.division_results
  refine List.forall_mem_cons.mpr ⟨?div, List.forall_mem_cons.mpr ⟨?divn, List.forall_mem_cons.mpr ⟨?rem,
    List.forall_mem_singleton.mpr ?remn⟩⟩⟩ <;> intro a s hx hy hz
  case div => exact runGBin_registerStep hx hy hz (word64_divide_signed _ _)
  case divn => exact runGBin_registerStep hx hy hz (word64_divide_unsigned _ _)
  case rem => exact runGBin_registerStep hx hy hz (word64_remainder_signed _ _)
  case remn => exact runGBin_registerStep hx hy hz (word64_remainder_unsigned _ _)

end Sys2Proof

end

-- Decoding an encoding (O58, O59)
section
/-! The decoder reads the prefix words of an instruction one by one and stops at its base word (R67, R79); so the words of an encoding
decode to its instruction, and what follows them is not read. -/

set_option Elab.async false

namespace Sys2Proof

/-- With `done` read, prefix words `ps` that scan are read up to the base word after them. -/
theorem decodeFrom_of_scans {done ps rest : List Word16} {b : Word16} {i : Instr} (hs : Scans (done ++ ps)) (hb : isPfx b = false)
    (hd : decodeRaw ⟨done ++ ps, b⟩ = .ok i) : decodeFrom done (ps ++ b :: rest) = .instr i ((done ++ ps).length + 1) := by
  induction ps generalizing done with
  | nil =>
    have hbase : scanStep done b = .base done b := by simp [scanStep, hb]
    rw [List.append_nil] at hd ⊢
    simp only [List.nil_append, decodeFrom, hbase, hd]
  | cons w ps ih =>
    have hmore : scanStep done w = .more (done ++ [w]) := hs done w ps rfl
    rw [List.append_cons done w ps] at hs hd ⊢
    simp only [List.cons_append, decodeFrom, hmore, ih hs hd]

/-- Settles O59: the words of a well-formed instruction are prefix words that scan and a base word that together decode to it
(`exists_words`), and the decoder stops there. -/
theorem decodeEncode : Obligations.decode_encode := by
  unfold Obligations.decode_encode
  intro i rest hw hp
  obtain ⟨w, he, hscan, -, hbase, hd⟩ := exists_words hw hp
  have hdec : decodeFrom [] (w.ps ++ w.base :: rest) = .instr i (w.ps.length + 1) := decodeFrom_of_scans hscan hbase hd
  rw [← he, List.append_assoc, List.length_append, List.length_singleton]
  exact hdec

/-- Words that are the encoding of a well-formed instruction decode to it. -/
theorem decode_of_eq_encode {ws : List Word16} {i : Instr} (he : ws = encode i) (hw : i.wf = true) (hp : i.parts.isSome = true) :
    decode ws = .instr i ws.length := by
  subst he
  have hd := decodeEncode i [] hw hp
  rwa [List.append_nil] at hd

/-- Settles O58: each sequence of words is what the encoder writes for its well-formed instruction, so it decodes to it (O59). -/
theorem decodeWords : Obligations.decode_words := by
  unfold Obligations.decode_words
  intro e he
  obtain ⟨hwords, hwf, hparts⟩ : e.1 = encode e.2 ∧ e.2.wf = true ∧ e.2.parts.isSome = true := by
    revert e
    decide
  exact decode_of_eq_encode hwords hwf hparts

end Sys2Proof

end

-- Elements of vector registers, and the steps that write them (O23, O24, O26, O27)
section
/-! A register read as elements of one width, a register built of elements (R132, R134), and the step of a vector instruction that
writes one: its active elements are the results, the others are as they were. -/

set_option Elab.async false

namespace Sys2Proof.Machine

/-! Registers as elements. -/

theorem elem_lt (w : Nat) (v : VWord) (i : Nat) : elem w v i < 2 ^ w := Nat.mod_lt _ (Nat.two_pow_pos w)

theorem elem_mod (w : Nat) (v : VWord) (i : Nat) : elem w v i % 2 ^ w = elem w v i := Nat.mod_mod ..

theorem foldr_elems_lt (w : Nat) (l : List Nat) : l.foldr (fun x a => x % 2 ^ w + 2 ^ w * a) 0 < 2 ^ (w * l.length) := by
  induction l with
  | nil => exact Nat.one_pos
  | cons x l ih =>
    have hx := Nat.mod_lt x (Nat.two_pow_pos w)
    rw [List.foldr_cons, List.length_cons, Nat.mul_succ, Nat.add_comm (w * _), Nat.pow_add]
    calc _ < 2 ^ w + 2 ^ w * _ := Nat.add_lt_add_right hx _
      _ = 2 ^ w * (_ + 1) := by rw [Nat.mul_succ, Nat.add_comm]
      _ ≤ 2 ^ w * 2 ^ (w * l.length) := Nat.mul_le_mul_left _ ih

theorem digit_foldr_elems (w : Nat) (l : List Nat) (i : Nat) :
    l.foldr (fun x a => x % 2 ^ w + 2 ^ w * a) 0 / 2 ^ (w * i) % 2 ^ w = l.getD i 0 % 2 ^ w := by
  induction l generalizing i with
  | nil => simp
  | cons x l ih =>
    cases i with
    | zero => simp
    | succ i =>
      have hx := Nat.mod_lt x (Nat.two_pow_pos w)
      rw [List.foldr_cons, Nat.mul_succ, Nat.add_comm (w * i), Nat.pow_add, ← Nat.div_div_eq_div_mul,
        Nat.add_mul_div_left _ _ (Nat.two_pow_pos w), Nat.div_eq_of_lt hx, Nat.zero_add, ih, List.getD_cons_succ]

/-- An element of a register built of elements, where they fit in it. -/
theorem elem_packElems {w : Nat} {l : List Nat} (h : w * l.length ≤ 1024) (i : Nat) : elem w (packElems w l) i = l.getD i 0 % 2 ^ w := by
  have hl := Nat.lt_of_lt_of_le (foldr_elems_lt w l) (Nat.pow_le_pow_right Nat.two_pos h)
  rw [elem, packElems, BitVec.toNat_ofNat, Nat.mod_eq_of_lt hl, digit_foldr_elems]

theorem width_mul_count (w : Nat) : w * (1024 / w) ≤ 1024 := Nat.mul_div_le 1024 w

theorem width_pos (t : Fmt) : 0 < t.width := by cases t <;> decide

/-- A built result holds the results of the active elements and keeps the others (R134). -/
theorem elem_buildElems {w n : Nat} (h : w * n ≤ 1024) (act : Nat → Bool) (old : VWord) (f : Nat → Flagged Nat) {i : Nat} (hi : i < n) :
    elem w (buildElems w n act old f).val i = if act i then (f i).val % 2 ^ w else elem w old i := by
  rw [buildElems, elem_packElems (by simpa using h)]
  simp only [List.map_map, List.getD_eq_getElem?_getD, List.getElem?_map, List.getElem?_range hi, Option.map_some, Option.getD_some,
    Function.comp_apply]
  split
  · rfl
  · exact elem_mod ..

theorem flags_buildElems (w n : Nat) (act : Nat → Bool) (old : VWord) (f : Nat → Flagged Nat) :
    (buildElems w n act old f).flags = (List.range n).foldl (fun g i => g ||| (if act i then (f i).flags else 0)) 0 := by
  simp only [buildElems, List.foldl_map, apply_ite Flagged.flags]

/-! Steps that write elements. -/

/-- A built result written to its register is an element step. -/
theorem completeV_elementStep (s : State) (x : Idx) {w n : Nat} (h : w * n ≤ 1024) (act : Nat → Bool) (f : Nat → Flagged Nat) :
    ElementStep s (s.completeV x (buildElems w n act (s.v x) f)) x w n act f 0 := by
  refine ⟨(buildElems w n act (s.v x) f).val, ?_, fun i hi => elem_buildElems h act _ f hi⟩
  rw [← flags_buildElems w n act (s.v x), show ∀ g : FlagSet, g ||| 0 = g from fun _ => BitVec.or_zero]
  exact completeV_vectorStep s x _

/-- An element step depends on its results at the active elements alone, and on their values within the width. -/
theorem ElementStep.congr {s t : State} {x : Idx} {w n : Nat} {act : Nat → Bool} {f g : Nat → Flagged Nat} {e : FlagSet}
    (h : ElementStep s t x w n act f e) (hv : ∀ i, (f i).val % 2 ^ w = (g i).val % 2 ^ w) (hf : ∀ i, (f i).flags = (g i).flags) :
    ElementStep s t x w n act g e := by
  obtain ⟨r, hs, hr⟩ := h
  refine ⟨r, ?_, fun i hi => ?_⟩
  · simpa only [hf] using hs
  · simpa only [hv] using hr i hi

/-- An instruction that writes a built result makes its element step. -/
theorem exists_elementStep {o : Answer} {s : State} {x : Idx} {w n : Nat} {act : Nat → Bool} {f g : Nat → Flagged Nat}
    (e : o = .next (s.completeV x (buildElems w n act (s.v x) f))) (h : w * n ≤ 1024) (hv : ∀ i, (f i).val % 2 ^ w = (g i).val % 2 ^ w)
    (hf : ∀ i, (f i).flags = (g i).flags) : ∃ u, o = .next u ∧ ElementStep s u x w n act g 0 :=
  ⟨_, e, (completeV_elementStep s x h act f).congr hv hf⟩

theorem Except.ok_bind {ε α β : Type} (a : α) (k : α → Except ε β) : ((.ok a : Except ε α) >>= k) = k a := rfl

theorem requireType_ok {ok : Fmt → Bool} {t : Fmt} (h : ok t = true) : requireType ok t = .ok () := if_pos h

theorem requireType_combo {ok : Fmt → Bool} {t : Fmt} (h : ok t = false) : requireType ok t = .error vecCombo :=
  if_neg (Bool.eq_false_iff.mp h)

theorem acceptsAny_of_ne {t : Fmt} (h : t ≠ .fa56) : acceptsAny t = true := bne_iff_ne.mpr h

/-- The checks of two vector operands and of a Z that may be one. -/
theorem checkVs_bind {s : State} {x y : Idx} {z : Option Idx} {k : Unit → Except Stop State} (hx : s.readsV x = true)
    (hy : s.readsV y = true) (hz : s.readsVZ z = true) :
    (s.me.checkV 0 x >>= fun _ => s.me.checkV 1 y >>= fun _ => s.me.checkVZ z >>= k) = k () := by
  rw [checkV_ok (of_decide_eq_true hx), checkV_ok (of_decide_eq_true hy), checkVZ_ok hz]
  rfl

/-- The checks of two vector operands. -/
theorem checkVV_bind {s : State} {x y : Idx} {k : Unit → Except Stop State} (hx : s.readsV x = true) (hy : s.readsV y = true) :
    (s.me.checkV 0 x >>= fun _ => s.me.checkV 1 y >>= k) = k () := by
  rw [checkV_ok (of_decide_eq_true hx), checkV_ok (of_decide_eq_true hy)]
  rfl

/-- The register of the first source of a vector instruction: X without THR, but Y for VFMA and VFMS, whose third source is X (R136). -/
def vecFirst (op : VecOp) (a : VBin) : Idx := if a.z.isSome || op == .fma || op == .fms then a.y else a.x

theorem vecFirst_of_plain {op : VecOp} (h : (op == .fma || op == .fms) = false) (a : VBin) :
    vecFirst op a = if a.z.isSome then a.y else a.x := by
  rw [vecFirst, Bool.or_assoc, h, Bool.or_false]

theorem vecFirst_of_fused {op : VecOp} (h : (op == .fma || op == .fms) = true) (a : VBin) : vecFirst op a = a.y := by
  rw [vecFirst, Bool.or_assoc, h, Bool.or_true, if_pos rfl]

/-- A vector instruction with its operands in the window and a type it accepts writes the results of its elements. -/
theorem runVBin_next {op : VecOp} {ok : Fmt → Bool} {a : VBin} {s : State} (hx : s.readsV a.x = true) (hy : s.readsV a.y = true)
    (hz : s.readsVZ a.z = true) (ht : ok (a.fmt.getD s.me.vt) = true) :
    let t := a.fmt.getD s.me.vt
    let w := t.width
    let n := 1024 / w
    runVBin op ok a s = .next (s.completeV a.x (buildElems w n (isActive s a.prd w (min s.me.vl.toNat n)) (s.v a.x)
      (fun i => vecElem op t s.mode (elem w (s.v (vecFirst op a)) i) (elem w (s.v (a.z.getD a.y)) i) (elem w (s.v a.x) i)))) := by
  intro t w n
  unfold runVBin
  rw [checkVs_bind hx hy hz]
  simp only [elemType, requireType_ok ht]
  rw [vecFirst]
  cases a.z with
  | none => cases op <;> rfl
  | some z => rfl

theorem runVUn_next {ok : Fmt → Bool} {f : Fmt → RMode → Nat → Flagged Nat} {a : VUn} {s : State} (hx : s.readsV a.x = true)
    (hy : s.readsV a.y = true) (ht : ok (a.fmt.getD s.me.vt) = true) :
    let t := a.fmt.getD s.me.vt
    let w := t.width
    let n := 1024 / w
    runVUn ok f a s = .next (s.completeV a.x (buildElems w n (isActive s a.prd w (min s.me.vl.toNat n)) (s.v a.x)
      (fun i => f t s.mode (elem w (s.v a.y) i)))) := by
  intro t w n
  unfold runVUn
  rw [checkVV_bind hx hy]
  simp only [elemType, requireType_ok ht]
  rfl

theorem acceptsInt_of_int {t : Fmt} {signed : Bool} (h : t.int? = some signed) : acceptsInt t = true := by rw [acceptsInt, h]; rfl

theorem acceptsArith_of_int {t : Fmt} {signed : Bool} (h : t.int? = some signed) : acceptsArith t = true := by
  rw [acceptsArith, h]
  rfl

theorem vecElem_int {op : VecOp} {t : Fmt} {signed : Bool} (h : t.int? = some signed) (m : RMode) (a b c : Nat) :
    vecElem op t m a b c = vecInt op signed t.width a b c := by
  simp only [vecElem, h]

/-! Integer elements (R40, R41). -/

theorem wrapTo_mod (w : Nat) (z : Int) : wrapTo w z % 2 ^ w = wrapTo w z := by
  refine Nat.mod_eq_of_lt ?_
  have h : (0 : Int) < 2 ^ w := by positivity
  have := Int.emod_lt_of_pos z h
  rw [wrapTo]
  zify
  rw [Int.toNat_of_nonneg (Int.emod_nonneg _ h.ne')]
  exact this

theorem wrapTo_natCast (w k : Nat) : wrapTo w (k : Int) = k % 2 ^ w := by
  rw [wrapTo]
  norm_cast

/-- An element wraps to itself whatever its sign. -/
theorem wrapTo_intElem (signed : Bool) (w x : Nat) : wrapTo w (intElem signed w x) = x % 2 ^ w := by
  have hk : wrapTo w ((x % 2 ^ w : Nat) : Int) = x % 2 ^ w := by rw [wrapTo_natCast, Nat.mod_mod]
  cases signed with
  | false => exact hk
  | true =>
    simp only [intElem, if_true, signedOf]
    split
    · exact hk
    · rw [wrapTo, Int.sub_emod_right]
      exact hk

theorem signedOf_succ (k : Nat) {x : Nat} (hx : x < 2 ^ (k + 1)) :
    signedOf (k + 1) x = if x < 2 ^ k then (x : Int) else (x : Int) - 2 * ((2 ^ k : Nat) : Int) := by
  rw [signedOf, Nat.mod_eq_of_lt hx, Nat.pow_succ]
  push_cast
  rw [Int.pow_succ]
  grind

theorem signedOf_eq_least_iff {w x : Nat} (hw : 0 < w) (hx : x < 2 ^ w) : signedOf w x = -((2 : Int) ^ (w - 1)) ↔ x = 2 ^ (w - 1) := by
  obtain ⟨k, rfl⟩ := Nat.exists_eq_add_of_lt hw
  rw [Nat.zero_add] at hx ⊢
  have hk : (2 : Int) ^ (k + 1 - 1) = ((2 ^ k : Nat) : Int) := by push_cast; rfl
  have hp := Nat.two_pow_pos k
  rw [signedOf_succ k hx, hk, Nat.add_sub_cancel]
  rw [Nat.pow_succ] at hx
  generalize 2 ^ k = p at *
  split <;> omega

theorem signedOf_eq_neg_one_iff {w x : Nat} (hw : 0 < w) (hx : x < 2 ^ w) : signedOf w x = -1 ↔ x = 2 ^ w - 1 := by
  obtain ⟨k, rfl⟩ := Nat.exists_eq_add_of_lt hw
  rw [Nat.zero_add] at hx ⊢
  have hp := Nat.two_pow_pos k
  rw [signedOf_succ k hx]
  rw [Nat.pow_succ] at hx ⊢
  generalize 2 ^ k = p at *
  split <;> omega

/-- The quotient of two elements (R41) as their exact quotient, wrapped. -/
theorem divide_elems (signed : Bool) {w a b : Nat} (hw : 0 < w) (ha : a < 2 ^ w) (hb : b < 2 ^ w) :
    divide signed w a b = if b = 0 then ⟨2 ^ w - 1, flagDZ⟩
      else ⟨wrapTo w (Int.tdiv (intElem signed w a) (intElem signed w b)),
        if signed = true ∧ a = 2 ^ (w - 1) ∧ b = 2 ^ w - 1 then flagOF else 0⟩ := by
  rw [divide, Nat.mod_eq_of_lt hb, Nat.mod_eq_of_lt ha]
  split
  · rfl
  · cases signed with
    | true => simp only [intElem, if_true, flagIf, signedOf_eq_least_iff hw ha, signedOf_eq_neg_one_iff hw hb, Bool.and_eq_true,
        decide_eq_true_eq, true_and]
    | false =>
      simp only [intElem, Bool.false_eq_true, if_false, false_and, Nat.mod_eq_of_lt ha, Nat.mod_eq_of_lt hb]
      rw [← Int.ofNat_tdiv, wrapTo_natCast, Nat.mod_eq_of_lt (Nat.lt_of_le_of_lt (Nat.div_le_self a b) ha)]

/-! Results of elements. -/

/-- Two results agree within a width: the same bits there and the same flags. -/
def SameIn (w : Nat) (p q : Flagged Nat) : Prop := p.val % 2 ^ w = q.val % 2 ^ w ∧ p.flags = q.flags

theorem SameIn.rfl {w : Nat} {p : Flagged Nat} : SameIn w p p := ⟨Eq.refl _, Eq.refl _⟩

theorem SameIn.of_eq {w : Nat} {p q : Flagged Nat} (h : p = q) : SameIn w p q := h ▸ SameIn.rfl

/-- A vector instruction that runs `op` writes to each active element what agrees with `op` of its sources. -/
theorem runVBin_elements {op : VecOp} {ok : Fmt → Bool} {a : VBin} {s : State} {f : Nat → Flagged Nat} (hx : s.readsV a.x = true)
    (hy : s.readsV a.y = true) (hz : s.readsVZ a.z = true) (ho : ok (a.fmt.getD s.me.vt) = true)
    (hf : let t := a.fmt.getD s.me.vt
      ∀ i, SameIn t.width (vecElem op t s.mode (elem t.width (s.v (vecFirst op a)) i) (elem t.width (s.v (a.z.getD a.y)) i)
        (elem t.width (s.v a.x) i)) (f i)) :
    let t := a.fmt.getD s.me.vt
    ∃ u, runVBin op ok a s = .next u ∧ ElementStep s u a.x t.width (1024 / t.width)
      (isActive s a.prd t.width (min s.me.vl.toNat (1024 / t.width))) f 0 :=
  exists_elementStep (runVBin_next hx hy hz ho) (width_mul_count _) (fun i => (hf i).1) (fun i => (hf i).2)

theorem runVUn_elements {ok : Fmt → Bool} {h : Fmt → RMode → Nat → Flagged Nat} {a : VUn} {s : State} {f : Nat → Flagged Nat}
    (hx : s.readsV a.x = true) (hy : s.readsV a.y = true) (ho : ok (a.fmt.getD s.me.vt) = true)
    (hf : let t := a.fmt.getD s.me.vt
      ∀ i, SameIn t.width (h t s.mode (elem t.width (s.v a.y) i)) (f i)) :
    let t := a.fmt.getD s.me.vt
    ∃ u, runVUn ok h a s = .next u ∧ ElementStep s u a.x t.width (1024 / t.width)
      (isActive s a.prd t.width (min s.me.vl.toNat (1024 / t.width))) f 0 :=
  exists_elementStep (runVUn_next hx hy ho) (width_mul_count _) (fun i => (hf i).1) (fun i => (hf i).2)

section
variable {op : VecOp} {ok : Fmt → Bool} {a : VBin} {s : State} {signed : Bool} {f : Nat → Flagged Nat} (hx : s.readsV a.x = true)
  (hy : s.readsV a.y = true) (hz : s.readsVZ a.z = true)
include hx hy hz

/-- An instruction that runs `op` on integer elements writes what agrees with `op` of its two sources (Table 05-3). -/
theorem runVBin_integers (hp : (op == .fma || op == .fms) = false) (ho : ok (a.fmt.getD s.me.vt) = true)
    (ht : (a.fmt.getD s.me.vt).int? = some signed)
    (hf : let w := (a.fmt.getD s.me.vt).width
      ∀ i, SameIn w (vecInt op signed w (elem w (s.v (if a.z.isSome then a.y else a.x)) i) (elem w (s.v (a.z.getD a.y)) i)
        (elem w (s.v a.x) i)) (f i)) :
    let t := a.fmt.getD s.me.vt
    ∃ u, runVBin op ok a s = .next u ∧ ElementStep s u a.x t.width (1024 / t.width)
      (isActive s a.prd t.width (min s.me.vl.toNat (1024 / t.width))) f 0 := by
  refine runVBin_elements hx hy hz ho fun i => ?_
  rw [vecElem_int ht, vecFirst_of_plain hp]
  exact hf i

/-- A multiplication with addition takes Y, the second source and X. -/
theorem runVBin_integers_fused (hp : (op == .fma || op == .fms) = true) (ht : (a.fmt.getD s.me.vt).int? = some signed)
    (hf : let w := (a.fmt.getD s.me.vt).width
      ∀ i, vecInt op signed w (elem w (s.v a.y) i) (elem w (s.v (a.z.getD a.y)) i) (elem w (s.v a.x) i) = f i) :
    let t := a.fmt.getD s.me.vt
    ∃ u, runVBin op acceptsArith a s = .next u ∧ ElementStep s u a.x t.width (1024 / t.width)
      (isActive s a.prd t.width (min s.me.vl.toNat (1024 / t.width))) f 0 := by
  refine runVBin_elements hx hy hz (acceptsArith_of_int ht) fun i => .of_eq ?_
  rw [vecElem_int ht, vecFirst_of_fused hp]
  exact hf i

/-- A bitwise operation does the same to elements of every type. -/
theorem runVBin_bits (hp : (op == .fma || op == .fms) = false) (ht : a.fmt.getD s.me.vt ≠ .fa56)
    (hf : let t := a.fmt.getD s.me.vt
      ∀ i, vecElem op t s.mode (elem t.width (s.v (if a.z.isSome then a.y else a.x)) i) (elem t.width (s.v (a.z.getD a.y)) i)
        (elem t.width (s.v a.x) i) = f i) :
    let t := a.fmt.getD s.me.vt
    ∃ u, runVBin op acceptsAny a s = .next u ∧ ElementStep s u a.x t.width (1024 / t.width)
      (isActive s a.prd t.width (min s.me.vl.toNat (1024 / t.width))) f 0 := by
  refine runVBin_elements hx hy hz (acceptsAny_of_ne ht) fun i => .of_eq ?_
  rw [vecFirst_of_plain hp]
  exact hf i

end

theorem runVUn_integers {op : VecOp} {a : VUn} {s : State} {signed : Bool} {f : Nat → Flagged Nat} (hx : s.readsV a.x = true)
    (hy : s.readsV a.y = true) (ht : (a.fmt.getD s.me.vt).int? = some signed)
    (hf : let w := (a.fmt.getD s.me.vt).width
      ∀ i, vecInt op signed w (elem w (s.v a.y) i) 0 0 = f i) :
    let t := a.fmt.getD s.me.vt
    ∃ u, runVUn acceptsArith (fun t m x => vecElem op t m x 0 0) a s = .next u ∧ ElementStep s u a.x t.width (1024 / t.width)
      (isActive s a.prd t.width (min s.me.vl.toNat (1024 / t.width))) f 0 :=
  runVUn_elements hx hy (acceptsArith_of_int ht) fun i => .of_eq ((vecElem_int ht ..).trans (hf i))

theorem vecElem_and (t : Fmt) (m : RMode) (a b c : Nat) : vecElem .and t m a b c = ⟨Nat.land a b, 0⟩ := by cases t <;> rfl
theorem vecElem_or (t : Fmt) (m : RMode) (a b c : Nat) : vecElem .or t m a b c = ⟨Nat.lor a b, 0⟩ := by cases t <;> rfl
theorem vecElem_xor (t : Fmt) (m : RMode) (a b c : Nat) : vecElem .xor t m a b c = ⟨Nat.xor a b, 0⟩ := by cases t <;> rfl

/-- The lesser of two elements, which is one of them, is the lesser of their values, wrapped. -/
theorem intElem_min (signed : Bool) (w a b : Nat) : SameIn w ⟨if intElem signed w a ≤ intElem signed w b then a else b, 0⟩
    ⟨wrapTo w (min (intElem signed w a) (intElem signed w b)), 0⟩ := by
  refine ⟨?_, rfl⟩
  rw [min_def]
  split <;> rw [wrapTo_intElem, Nat.mod_mod]

theorem intElem_max (signed : Bool) (w a b : Nat) : SameIn w ⟨if intElem signed w a ≤ intElem signed w b then b else a, 0⟩
    ⟨wrapTo w (max (intElem signed w a) (intElem signed w b)), 0⟩ := by
  refine ⟨?_, rfl⟩
  rw [max_def]
  split <;> rw [wrapTo_intElem, Nat.mod_mod]

theorem vecInt_abs (signed : Bool) (w a b c : Nat) : vecInt .abs signed w a b c =
    ⟨wrapTo w (if intElem signed w a < 0 then -intElem signed w a else intElem signed w a), 0⟩ := by
  have h (x : Int) : ((x.natAbs : Nat) : Int) = if x < 0 then -x else x := by split <;> omega
  rw [vecInt, h]

end Sys2Proof.Machine

namespace Sys2Proof
open Machine

/-- Settles O23: each instruction runs one operation of Table 05-3 on its elements, and on integers that operation gives the stated
value; VMIN and VMAX give one of their sources, which wraps to itself. -/
theorem vectorIntegerElements : Obligations.vector_integer_elements := by
  unfold Obligations.vector_integer_elements
  refine ⟨?arith, ?fused, ?shift, ?div, ?bits, ?unary⟩
  case arith =>
    refine List.forall_mem_cons.mpr ⟨?add, List.forall_mem_cons.mpr ⟨?sub, List.forall_mem_cons.mpr ⟨?mul, List.forall_mem_cons.mpr
      ⟨?min, List.forall_mem_singleton.mpr ?max⟩⟩⟩⟩ <;> intro a s signed hx hy hz t ht
    case add => exact runVBin_integers hx hy hz rfl (acceptsArith_of_int ht) ht fun _ => .rfl
    case sub => exact runVBin_integers hx hy hz rfl (acceptsArith_of_int ht) ht fun _ => .rfl
    case mul => exact runVBin_integers hx hy hz rfl (acceptsArith_of_int ht) ht fun _ => .rfl
    case min => exact runVBin_integers hx hy hz rfl (acceptsArith_of_int ht) ht fun _ => intElem_min ..
    case max => exact runVBin_integers hx hy hz rfl (acceptsArith_of_int ht) ht fun _ => intElem_max ..
  case fused =>
    refine List.forall_mem_cons.mpr ⟨?fma, List.forall_mem_singleton.mpr ?fms⟩ <;> intro a s signed hx hy hz t ht
    case fma => exact runVBin_integers_fused hx hy hz rfl ht fun _ => rfl
    case fms => exact runVBin_integers_fused hx hy hz rfl ht fun _ => rfl
  case shift =>
    refine List.forall_mem_cons.mpr ⟨?shl, List.forall_mem_cons.mpr ⟨?shr, List.forall_mem_singleton.mpr ?sra⟩⟩ <;>
      intro a s signed hx hy hz t ht
    case shl => exact runVBin_integers hx hy hz rfl (acceptsInt_of_int ht) ht fun _ => ⟨(wrapTo_mod ..).trans (wrapTo_natCast ..), rfl⟩
    case shr => exact runVBin_integers hx hy hz rfl (acceptsInt_of_int ht) ht fun _ => .rfl
    case sra => exact runVBin_integers hx hy hz rfl (acceptsInt_of_int ht) ht fun _ => .rfl
  case div =>
    intro a s signed hx hy hz t ht
    exact runVBin_integers hx hy hz rfl (acceptsArith_of_int ht) ht fun _ =>
      .of_eq (divide_elems signed (width_pos t) (elem_lt ..) (elem_lt ..))
  case bits =>
    refine List.forall_mem_cons.mpr ⟨?and, List.forall_mem_cons.mpr ⟨?or, List.forall_mem_singleton.mpr ?xor⟩⟩ <;> intro a s hx hy hz t ht
    case and => exact runVBin_bits hx hy hz rfl ht fun _ => vecElem_and ..
    case or => exact runVBin_bits hx hy hz rfl ht fun _ => vecElem_or ..
    case xor => exact runVBin_bits hx hy hz rfl ht fun _ => vecElem_xor ..
  case unary =>
    refine List.forall_mem_cons.mpr ⟨?abs, List.forall_mem_singleton.mpr ?neg⟩ <;> intro a s signed hx hy t ht
    case abs => exact runVUn_integers hx hy ht fun _ => vecInt_abs ..
    case neg => exact runVUn_integers hx hy ht fun _ => rfl

end Sys2Proof

end

-- Floating-point elements (O24)
section
/-! The operations of Table 05-3 and the functions of R149 on elements of a floating-point format. -/

set_option Elab.async false

namespace Sys2Proof.Machine

theorem acceptsArith_of_float {t : Fmt} (h : t ∈ [Fmt.fp32, .bf16, .fp16]) : acceptsArith t = true := by
  revert t
  decide

theorem int?_of_float {t : Fmt} {f : FloatFmt} (h : t.float? = some f) : t.int? = none := by
  cases t with
  | fp32 | bf16 | fp16 | e4m3 | e5m2 | fa56 => rfl
  | _ => cases h

theorem vecElem_float {op : VecOp} {t : Fmt} {f : FloatFmt} (h : t.float? = some f) (m : RMode) (a b c : Nat) :
    vecElem op t m a b c = vecFloat op f m a b c := by
  simp only [vecElem, int?_of_float h, h]

/-- An instruction that runs `op` on floating-point elements writes `g` of the values of its two sources, where that is what `op` gives. -/
theorem runVBin_floats {op : VecOp} {g : FloatFmt → RMode → FVal → FVal → FVal → Flagged FVal} (hp : (op == .fma || op == .fms) = false)
    (hg : ∀ f m a b c, vecFloat op f m a b c = encodeFlagged f (g f m (f.decode a) (f.decode b) .nan))
    {a : VBin} {s : State} {f : FloatFmt} (hx : s.readsV a.x = true) (hy : s.readsV a.y = true) (hz : s.readsVZ a.z = true)
    (ht : a.fmt.getD s.me.vt ∈ [Fmt.fp32, .bf16, .fp16]) (hf : (a.fmt.getD s.me.vt).float? = some f) :
    let t := a.fmt.getD s.me.vt
    ∃ u, runVBin op acceptsArith a s = .next u ∧ ElementStep s u a.x t.width (1024 / t.width)
      (isActive s a.prd t.width (min s.me.vl.toNat (1024 / t.width)))
      (fun i => encodeFlagged f (g f s.mode (f.decode (elem t.width (s.v (if a.z.isSome then a.y else a.x)) i))
        (f.decode (elem t.width (s.v (a.z.getD a.y)) i)) .nan)) 0 := by
  refine runVBin_elements hx hy hz (acceptsArith_of_float ht) fun i => SameIn.of_eq ?_
  rw [vecElem_float hf, vecFirst_of_plain hp, hg]

theorem runVBin_floats_fused {op : VecOp} {g : FVal → FVal} (hp : (op == .fma || op == .fms) = true)
    (hg : ∀ f m a b c, vecFloat op f m a b c = encodeFlagged f (f.finish m (FVal.fma m (f.decode a) (f.decode b) (g (f.decode c)))))
    {a : VBin} {s : State} {f : FloatFmt} (hx : s.readsV a.x = true) (hy : s.readsV a.y = true) (hz : s.readsVZ a.z = true)
    (ht : a.fmt.getD s.me.vt ∈ [Fmt.fp32, .bf16, .fp16]) (hf : (a.fmt.getD s.me.vt).float? = some f) :
    let t := a.fmt.getD s.me.vt
    let el (r : Idx) (i : Nat) : FVal := f.decode (elem t.width (s.v r) i)
    ∃ u, runVBin op acceptsArith a s = .next u ∧ ElementStep s u a.x t.width (1024 / t.width)
      (isActive s a.prd t.width (min s.me.vl.toNat (1024 / t.width)))
      (fun i => encodeFlagged f (f.finish s.mode (FVal.fma s.mode (el a.y i) (el (a.z.getD a.y) i) (g (el a.x i))))) 0 := by
  refine runVBin_elements hx hy hz (acceptsArith_of_float ht) fun i => SameIn.of_eq ?_
  rw [vecElem_float hf, vecFirst_of_fused hp, hg]

theorem runVUn_floats {op : VecOp} {g : FVal → FVal} (hg : ∀ f m a b c, vecFloat op f m a b c = ⟨f.encode (g (f.decode a)), 0⟩)
    {a : VUn} {s : State} {f : FloatFmt} (hx : s.readsV a.x = true) (hy : s.readsV a.y = true)
    (ht : a.fmt.getD s.me.vt ∈ [Fmt.fp32, .bf16, .fp16]) (hf : (a.fmt.getD s.me.vt).float? = some f) :
    let t := a.fmt.getD s.me.vt
    ∃ u, runVUn acceptsArith (fun t m x => vecElem op t m x 0 0) a s = .next u ∧ ElementStep s u a.x t.width (1024 / t.width)
      (isActive s a.prd t.width (min s.me.vl.toNat (1024 / t.width)))
      (fun i => ⟨f.encode (g (f.decode (elem t.width (s.v a.y) i))), 0⟩) 0 := by
  refine runVUn_elements hx hy (acceptsArith_of_float ht) fun i => SameIn.of_eq ?_
  rw [vecElem_float hf, hg]

theorem runVFun_elements {h : RMode → FVal → Flagged FVal} {a : VUn} {s : State} (hx : s.readsV a.x = true) (hy : s.readsV a.y = true)
    (ht : a.fmt.getD s.me.vt = .fp32) :
    ∃ u, runVFun h a s = .next u ∧ ElementStep s u a.x 32 32 (isActive s a.prd 32 (min s.me.vl.toNat 32))
      (fun i => encodeFlagged fp32 (h s.mode (fp32.decode (elem 32 (s.v a.y) i)))) 0 := by
  have hw : (a.fmt.getD s.me.vt).width = 32 := congrArg Fmt.width ht
  have := runVUn_elements (ok := acceptsFp32) (h := fun _ m x => encodeFlagged fp32 (h m (fp32.decode x))) hx hy (by rw [ht]; rfl)
    (fun _ => SameIn.rfl)
  simp only [hw] at this
  exact this

end Sys2Proof.Machine

namespace Sys2Proof
open Machine

/-- Settles O24: each instruction runs one operation of Table 05-3, or one function of R149, on the values of its elements and rounds what
it gives to the element format. -/
theorem vectorFloatElements : Obligations.vector_float_elements := by
  unfold Obligations.vector_float_elements
  refine ⟨?arith, ?fused, ?unary, ?functions⟩
  case arith =>
    refine List.forall_mem_cons.mpr ⟨?add, List.forall_mem_cons.mpr ⟨?sub, List.forall_mem_cons.mpr ⟨?mul, List.forall_mem_cons.mpr
      ⟨?div, List.forall_mem_cons.mpr ⟨?min, List.forall_mem_singleton.mpr ?max⟩⟩⟩⟩⟩ <;> intro a s hx hy hz t f ht hf
    case add => exact runVBin_floats rfl (fun _ _ _ _ _ => rfl) hx hy hz ht hf
    case sub => exact runVBin_floats rfl (fun _ _ _ _ _ => rfl) hx hy hz ht hf
    case mul => exact runVBin_floats rfl (fun _ _ _ _ _ => rfl) hx hy hz ht hf
    case div => exact runVBin_floats rfl (fun _ _ _ _ _ => rfl) hx hy hz ht hf
    case min => exact runVBin_floats rfl (fun _ _ _ _ _ => rfl) hx hy hz ht hf
    case max => exact runVBin_floats rfl (fun _ _ _ _ _ => rfl) hx hy hz ht hf
  case fused =>
    refine List.forall_mem_cons.mpr ⟨?fma, List.forall_mem_singleton.mpr ?fms⟩ <;> intro a s hx hy hz t f ht hf
    case fma => exact runVBin_floats_fused rfl (fun _ _ _ _ _ => rfl) hx hy hz ht hf
    case fms => exact runVBin_floats_fused rfl (fun _ _ _ _ _ => rfl) hx hy hz ht hf
  case unary =>
    refine List.forall_mem_cons.mpr ⟨?abs, List.forall_mem_singleton.mpr ?neg⟩ <;> intro a s hx hy t f ht hf
    case abs => exact runVUn_floats (fun _ _ _ _ _ => rfl) hx hy ht hf
    case neg => exact runVUn_floats (fun _ _ _ _ _ => rfl) hx hy ht hf
  case functions =>
    refine List.forall_mem_cons.mpr ⟨?exp, List.forall_mem_cons.mpr ⟨?rcp, List.forall_mem_cons.mpr ⟨?rsq, List.forall_mem_singleton.mpr
      ?erf⟩⟩⟩ <;> intro a s hx hy ht
    case exp => exact runVFun_elements hx hy ht
    case rcp => exact runVFun_elements hx hy ht
    case rsq => exact runVFun_elements hx hy ht
    case erf => exact runVFun_elements hx hy ht

end Sys2Proof

end

-- Vector compares and predicates (O25)
section
/-! The lane bits of a predicate, and the instructions that write or count them (R137, R138). -/

set_option Elab.async false

namespace Sys2Proof.Machine

/-- The sum of `b` ones for each number below `n` that meets `f`, as `lanesOf` builds it. -/
def laneSum (b : Nat) (f : Nat → Bool) (n : Nat) : Nat :=
  (List.range n).foldl (fun a i => if f i then a + onesAt b (i * b) else a) 0

theorem laneSum_succ (b : Nat) (f : Nat → Bool) (n : Nat) :
    laneSum b f (n + 1) = 2 ^ (n * b) * (if f n then 2 ^ b - 1 else 0) + laneSum b f n := by
  have h : laneSum b f (n + 1) = if f n then laneSum b f n + onesAt b (n * b) else laneSum b f n := by
    rw [laneSum, List.range_succ, List.foldl_append]
    rfl
  rw [h]
  split
  · rw [onesAt, Nat.add_comm, Nat.mul_comm]
  · rw [Nat.mul_zero, Nat.zero_add]

theorem laneSum_lt (b : Nat) (f : Nat → Bool) (n : Nat) : laneSum b f n < 2 ^ (n * b) := by
  induction n with
  | zero => simp [laneSum]
  | succ n ih =>
    have hp := Nat.two_pow_pos b
    have hd : (if f n then 2 ^ b - 1 else 0) + 1 ≤ 2 ^ b := by split <;> omega
    rw [laneSum_succ, Nat.succ_mul, Nat.pow_add]
    nlinarith

theorem testBit_laneSum (b : Nat) (f : Nat → Bool) (n : Nat) {i j : Nat} (hi : i < n) (hj : j < b) :
    (laneSum b f n).testBit (i * b + j) = f i := by
  induction n with
  | zero => omega
  | succ n ih =>
    rw [laneSum_succ, Nat.testBit_two_pow_mul_add _ (laneSum_lt b f n)]
    rcases Nat.lt_succ_iff_lt_or_eq.mp hi with h | rfl
    · rw [if_pos (by nlinarith), ih h]
    · rw [if_neg (by omega), Nat.add_sub_cancel_left]
      cases f i with
      | true => simp [hj]
      | false => simp

/-- Every lane bit of an element that fits is its condition (R137). -/
theorem getLsbD_lanesOf {w n : Nat} (h : n * (w / 8) ≤ 128) (f : Nat → Bool) {i j : Nat} (hi : i < n) (hj : j < w / 8) :
    (lanesOf w n f).getLsbD (i * (w / 8) + j) = f i := by
  have hk : i * (w / 8) + j < 128 := by nlinarith
  have hb := testBit_laneSum (w / 8) f n hi hj
  rw [lanesOf, BitVec.getLsbD_ofNat, decide_eq_true hk, Bool.true_and]
  exact hb

theorem lanes_le (w : Nat) : 1024 / w * (w / 8) ≤ 128 := by
  have h : 1024 / w * (w / 8) * 8 ≤ 1024 := calc
    _ = 1024 / w * (w / 8 * 8) := Nat.mul_assoc ..
    _ ≤ 1024 / w * w := Nat.mul_le_mul_left _ (Nat.div_mul_le_self w 8)
    _ ≤ 1024 := Nat.div_mul_le_self 1024 w
  omega

theorem checkPVV_bind {s : State} {x y z : Idx} {k : Unit → Except Stop State} (hx : x.val < 8) (hy : s.readsV y = true)
    (hz : s.readsV z = true) : (checkP 0 x >>= fun _ => s.me.checkV 1 y >>= fun _ => s.me.checkV 2 z >>= k) = k () := by
  rw [checkP_ok hx, checkV_ok (of_decide_eq_true hy), checkV_ok (of_decide_eq_true hz)]
  rfl

/-- A compare of elements it accepts writes for each lane bit of an element whether it is active and meets the condition (R137). -/
theorem runVCmp_lanes {k : VecCond} {a : VTri} {s : State} (hx : a.x.val < 8) (hy : s.readsV a.y = true) (hz : s.readsV a.z = true)
    (ht : acceptsArith (a.fmt.getD s.me.vt) = true) {c : Nat → Nat → Bool} (hc : ∀ p q, condElem k (a.fmt.getD s.me.vt) p q = c p q) :
    let w := (a.fmt.getD s.me.vt).width
    ∃ u p, runVCmp k a s = .next u ∧ PredicateStep s u a.x p ∧ ∀ i j, i < 1024 / w → j < w / 8 → p.getLsbD (i * (w / 8) + j) =
      (isActive s a.prd w (min s.me.vl.toNat (1024 / w)) i && c (elem w (s.v a.y) i) (elem w (s.v a.z) i)) := by
  intro w
  refine ⟨_, lanesOf w (1024 / w) fun i => isActive s a.prd w (min s.me.vl.toNat (1024 / w)) i && c (elem w (s.v a.y) i) (elem w (s.v a.z) i),
    ?_, completeP_predicateStep s a.x _, fun i j hi hj => getLsbD_lanesOf (lanes_le w) _ hi hj⟩
  unfold runVCmp
  rw [checkPVV_bind hx hy hz]
  simp only [elemType, requireType_ok ht, hc]
  rfl

theorem condElem_int {k : VecCond} {t : Fmt} {signed : Bool} (h : t.int? = some signed) (p q : Nat) :
    condElem k t p q = condInt k (intElem signed t.width p) (intElem signed t.width q) := by
  simp only [condElem, h]

theorem condElem_float {k : VecCond} {t : Fmt} {f : FloatFmt} (h : t.float? = some f) (p q : Nat) :
    condElem k t p q = condFloat k (f.decode p) (f.decode q) := by
  simp only [condElem, int?_of_float h, fmtValue, h]

/-- A compare of integers and of floating-point elements, by what its condition says of values of each. -/
theorem runVCmp_conditions {k : VecCond} {ci : Int → Int → Bool} {cf : FVal → FVal → Bool} (hi : ∀ x y, condInt k x y = ci x y)
    (hf : ∀ x y, condFloat k x y = cf x y) {a : VTri} {s : State} (hx : a.x.val < 8) (hy : s.readsV a.y = true) (hz : s.readsV a.z = true) :
    let t := a.fmt.getD s.me.vt
    let w := t.width
    let act := isActive s a.prd w (min s.me.vl.toNat (1024 / w))
    (∀ signed, t.int? = some signed → ∃ u p, runVCmp k a s = .next u ∧ PredicateStep s u a.x p ∧
      ∀ i j, i < 1024 / w → j < w / 8 → p.getLsbD (i * (w / 8) + j) =
        (act i && ci (intElem signed w (elem w (s.v a.y) i)) (intElem signed w (elem w (s.v a.z) i)))) ∧
    (∀ f, t ∈ [Fmt.fp32, .bf16, .fp16] → t.float? = some f → ∃ u p, runVCmp k a s = .next u ∧ PredicateStep s u a.x p ∧
      ∀ i j, i < 1024 / w → j < w / 8 → p.getLsbD (i * (w / 8) + j) =
        (act i && cf (f.decode (elem w (s.v a.y) i)) (f.decode (elem w (s.v a.z) i)))) :=
  ⟨fun _ ht => runVCmp_lanes hx hy hz (acceptsArith_of_int ht) fun p q => (condElem_int ht p q).trans (hi ..),
   fun _ ht hv => runVCmp_lanes hx hy hz (acceptsArith_of_float ht) fun p q => (condElem_float hv p q).trans (hf ..)⟩

theorem FVal.lt_nan (x y : FVal) (h : FVal.lt x y = true) : x.isNan = false ∧ y.isNan = false := by
  cases x with
  | nan => cases h
  | inf _ | fin _ _ _ => cases y with
    | nan => cases h
    | inf _ | fin _ _ _ => exact ⟨rfl, rfl⟩

/-- Less than says of itself that neither operand is a NaN. -/
theorem FVal.lt_eq (x y : FVal) : FVal.lt x y = (!x.isNan && !y.isNan && FVal.lt x y) := by
  cases h : FVal.lt x y with
  | false => rw [Bool.and_false]
  | true =>
    obtain ⟨hx, hy⟩ := FVal.lt_nan x y h
    rw [hx, hy]
    rfl

theorem FVal.eq_eq (x y : FVal) : FVal.eq x y = (!x.isNan && !y.isNan && FVal.eq x y) := by
  rw [FVal.eq]
  cases x.isNan <;> cases y.isNan <;> rfl

theorem FVal.not_eq (x y : FVal) : (!FVal.eq x y) = (x.isNan || y.isNan || !FVal.eq x y) := by
  rw [FVal.eq]
  cases x.isNan <;> cases y.isNan <;> rfl

theorem FVal.lt_swap (x y : FVal) : FVal.lt y x = (!x.isNan && !y.isNan && FVal.lt y x) := by
  rw [Bool.and_comm (!x.isNan)]
  exact FVal.lt_eq y x

theorem FVal.le_swap (x y : FVal) : FVal.le y x = (!x.isNan && !y.isNan && !FVal.lt x y) := by
  rw [FVal.le, Bool.and_comm (!y.isNan)]

/-! Predicates (R138). -/

theorem runPBin_predicateStep {f : Word128 → Word128 → Word128} {a : PBin} {s : State} (hx : a.x.val < 8) (hy : a.y.val < 8)
    (hz : a.z.all (fun z => decide (z.val < 8)) = true) : ∃ u, runPBin f a s = .next u ∧
      PredicateStep s u a.x (f (s.me.pred (if a.z.isSome then a.y else a.x).val) (s.me.pred (a.z.getD a.y).val)) := by
  obtain ⟨x, y, z⟩ := a
  refine ⟨_, ?_, completeP_predicateStep s x _⟩
  unfold runPBin
  rw [checkP_ok hx, checkP_ok hy]
  cases z with
  | none => rfl
  | some z =>
    have hz : checkP 2 z = .ok () := checkP_ok (of_decide_eq_true hz)
    simp only [hz]
    rfl

theorem execPnot_predicateStep {a : PUn} {s : State} (hx : a.x.val < 8) (hy : a.y.val < 8) :
    ∃ u, execPnot a s = .next u ∧ PredicateStep s u a.x (~~~(s.me.pred a.y.val)) := by
  refine ⟨_, ?_, completeP_predicateStep s a.x _⟩
  unfold execPnot
  rw [checkP_ok hx, checkP_ok hy]
  rfl

/-- PSET sets the lanes of the elements below Y. -/
theorem execPset_lanes {a : PSet} {s : State} (hx : a.x.val < 8) (hy : s.reads a.y = true) (ht : s.me.vt ≠ .fa56) :
    let w := s.me.vt.width
    ∃ u p, execPset a s = .next u ∧ PredicateStep s u a.x p ∧
      ∀ i j, i < 1024 / w → j < w / 8 → p.getLsbD (i * (w / 8) + j) = decide (i < (s.g a.y).toNat) := by
  intro w
  refine ⟨_, lanesOf w (1024 / w) fun i => decide (i < (s.g a.y).toNat), ?_, completeP_predicateStep s a.x _, fun i j hi hj =>
    getLsbD_lanesOf (lanes_le w) _ hi hj⟩
  unfold execPset
  rw [checkP_ok hx, checkG_ok hy, requireType_ok (acceptsAny_of_ne ht)]
  rfl

theorem dvd_width (t : Fmt) : 8 ∣ t.width := by cases t <;> decide

theorem lane_of_elem (t : Fmt) (i : Nat) : i * t.width / 8 = i * (t.width / 8) := Nat.mul_div_assoc i (dvd_width t)

theorem runPCount_registerStep {f : State → Idx → Nat} {a : PCount} {s : State} (hx : s.reads a.x = true) (hy : a.y.val < 8)
    (ht : s.me.vt ≠ .fa56) : ∃ u, runPCount f a s = .next u ∧ RegisterStep s u a.x (BitVec.ofNat 64 (f s a.y)) 0 := by
  refine ⟨_, ?_, complete_registerStep s a.x _ 0⟩
  unfold runPCount
  rw [checkG_ok hx, checkP_ok hy, requireType_ok (acceptsAny_of_ne ht)]
  rfl

theorem setElems_eq (s : State) (y : Idx) : setElems s y =
    (List.range (1024 / s.me.vt.width)).filter (fun i => (s.me.pred y.val).getLsbD (i * (s.me.vt.width / 8))) := by
  simp only [setElems, elemCount, lane_of_elem]

/-- The first number below `n` that meets a condition, or `n`. -/
theorem head_filter_range (p : Nat → Bool) (n : Nat) : let k := ((List.range n).filter p).head?.getD n
    k ≤ n ∧ (∀ i, i < k → p i = false) ∧ (k < n → p k = true) := by
  rw [List.head?_filter]
  cases h : (List.range n).find? p with
  | none =>
    simp only [List.find?_range_eq_none, Bool.not_eq_true'] at h
    exact ⟨le_rfl, h, fun hk => absurd hk (lt_irrefl n)⟩
  | some k =>
    simp only [List.find?_range_eq_some, List.mem_range, Bool.not_eq_true'] at h
    obtain ⟨hp, hk, hb⟩ := h
    exact ⟨Nat.le_of_lt hk, hb, fun _ => hp⟩

end Sys2Proof.Machine

namespace Sys2Proof
open Machine

/-- Settles O25: a compare writes the lanes of its elements (`runVCmp_lanes`), PSET those of the elements below Y, and PCNT and PFIRST go
through the elements whose lowest lane is set. -/
theorem vectorComparesAndPredicates : Obligations.vector_compares_and_predicates := by
  unfold Obligations.vector_compares_and_predicates
  refine ⟨?compare, ?binary, fun a s hx hy => ?not, fun a s hx hy ht => ?set, fun a s hx hy ht => ⟨?count, ?first⟩⟩
  case compare =>
    refine List.forall_mem_cons.mpr ⟨?eq, List.forall_mem_cons.mpr ⟨?ne, List.forall_mem_cons.mpr ⟨?lt, List.forall_mem_cons.mpr
      ⟨?le, List.forall_mem_cons.mpr ⟨?gt, List.forall_mem_singleton.mpr ?ge⟩⟩⟩⟩⟩ <;> intro a s hx hy hz
    case eq => exact runVCmp_conditions (k := .eq) (fun _ _ => rfl) FVal.eq_eq hx hy hz
    case ne => exact runVCmp_conditions (k := .ne) (fun _ _ => rfl) FVal.not_eq hx hy hz
    case lt => exact runVCmp_conditions (k := .lt) (fun _ _ => rfl) FVal.lt_eq hx hy hz
    case le => exact runVCmp_conditions (k := .le) (fun _ _ => rfl) (fun _ _ => rfl) hx hy hz
    case gt => exact runVCmp_conditions (k := .gt) (fun _ _ => rfl) FVal.lt_swap hx hy hz
    case ge => exact runVCmp_conditions (k := .ge) (fun _ _ => rfl) FVal.le_swap hx hy hz
  case binary =>
    refine List.forall_mem_cons.mpr ⟨?and, List.forall_mem_cons.mpr ⟨?or, List.forall_mem_singleton.mpr ?xor⟩⟩ <;> intro a s hx hy hz
    case and => exact runPBin_predicateStep hx hy hz
    case or => exact runPBin_predicateStep hx hy hz
    case xor => exact runPBin_predicateStep hx hy hz
  case not =>
    rw [BitVec.allOnes_xor]
    exact execPnot_predicateStep hx hy
  case set =>
    exact execPset_lanes hx hy ht
  case count =>
    rw [List.countP_eq_length_filter, ← setElems_eq]
    exact runPCount_registerStep (f := fun s y => (setElems s y).length) hx hy ht
  case first =>
    obtain ⟨u, hu, hr⟩ := runPCount_registerStep (f := fun s y => (setElems s y).head?.getD (elemCount s.me.vt)) hx hy ht
    have hk := head_filter_range (fun i => (s.me.pred a.y.val).getLsbD (i * (s.me.vt.width / 8))) (1024 / s.me.vt.width)
    rw [← setElems_eq] at hk
    exact ⟨u, _, hu, hr, hk⟩

end Sys2Proof

end

-- Reductions and movement of elements (O26)
section
/-! Reductions, moved elements, the vector type and length (R143, R144, R150, R151): the instructions complete with their value. -/

set_option Elab.async false

namespace Sys2Proof.Machine

theorem runVRed_registerStep {op : VecOp} {a : VRed} {s : State} (hx : s.reads a.x = true) (hy : s.readsV a.y = true)
    (hz : s.readsZ a.z = true) (ht : acceptsArith (a.fmt.getD s.me.vt) = true) :
    let t := a.fmt.getD s.me.vt
    let w := t.width
    let step (p q : Nat) := vecElem op t s.mode p q 0
    let l := (List.range (1024 / w)).map (fun i =>
      if isActive s a.prd w (min s.me.vl.toNat (1024 / w)) i then elem w (s.v a.y) i else redIdentity op t)
    let tree := pairTree step (Nat.log2 (1024 / w)) l 0
    let last := step ((s.g (a.z.getD a.x)).toNat % 2 ^ w) tree.val
    ∃ u, runVRed op a s = .next u ∧ RegisterStep s u a.x (extendElem t last.val) (tree.flags ||| last.flags) := by
  intro t w step l tree last
  refine ⟨_, ?_, complete_registerStep s a.x _ _⟩
  unfold runVRed
  rw [checkG_ok hx, checkV_ok (of_decide_eq_true hy), checkZ_ok hz]
  simp only [elemType, requireType_ok ht]
  rfl

theorem execVext_registerStep {a : VExt} {s : State} (hx : s.reads a.x = true) (hy : s.readsV a.y = true) (hz : s.readsZ a.z = true)
    (ht : a.fmt.getD s.me.vt ≠ .fa56) :
    let t := a.fmt.getD s.me.vt
    let k := (s.g (a.z.getD a.x)).toNat
    ∃ u, execVext a s = .next u ∧
      RegisterStep s u a.x (if k < 1024 / t.width then extendElem t (elem t.width (s.v a.y) k) else 0) 0 := by
  intro t k
  refine ⟨_, ?_, complete_registerStep s a.x _ _⟩
  unfold execVext
  rw [checkG_ok hx, checkV_ok (of_decide_eq_true hy), checkZ_ok hz]
  simp only [elemType, requireType_ok (acceptsAny_of_ne ht)]
  rfl

/-- VBCST writes Y, or the ramp from Y by Z, to the active elements. -/
theorem execVbcst_elements {a : VBcst} {s : State} {f : Nat → Flagged Nat} (hx : s.readsV a.x = true) (hy : s.reads a.y = true)
    (hz : s.readsZ a.z = true) (ht : (if a.z.isSome then acceptsArith else acceptsAny) (a.fmt.getD s.me.vt) = true)
    (hf : let t := a.fmt.getD s.me.vt
      (fun i => match a.z with
        | some z => rampElem t s.mode ((s.g a.y).toNat % 2 ^ t.width) ((s.g z).toNat % 2 ^ t.width) i
        | none => ⟨(s.g a.y).toNat % 2 ^ t.width, 0⟩) = f) :
    let t := a.fmt.getD s.me.vt
    ∃ u, execVbcst a s = .next u ∧ ElementStep s u a.x t.width (1024 / t.width)
      (isActive s a.prd t.width (min s.me.vl.toNat (1024 / t.width))) f 0 := by
  intro t
  subst hf
  refine ⟨_, ?_, completeV_elementStep s a.x (width_mul_count _) _ _⟩
  unfold execVbcst
  rw [checkV_ok (of_decide_eq_true hx), checkG_ok hy, checkZ_ok hz]
  simp only [elemType, requireType_ok ht]
  rfl

theorem execVsel_elements {a : VBin} {s : State} (hx : s.readsV a.x = true) (hy : s.readsV a.y = true) (hz : s.readsVZ a.z = true)
    (ht : a.fmt.getD s.me.vt ≠ .fa56) :
    let w := (a.fmt.getD s.me.vt).width
    let n := 1024 / w
    let act := isActive s a.prd w (min s.me.vl.toNat n)
    ∃ u, execVsel a s = .next u ∧ ElementStep s u a.x w n (fun i => if a.z.isSome then decide (i < min s.me.vl.toNat n) else act i)
      (fun i => ⟨if act i then elem w (s.v a.y) i else elem w (s.v (a.z.getD a.y)) i, 0⟩) 0 := by
  obtain ⟨x, y, z, f, q⟩ := a
  intro w n act
  unfold execVsel
  rw [checkVs_bind hx hy hz]
  simp only [elemType, requireType_ok (acceptsAny_of_ne ht)]
  cases z with
  | some z => exact ⟨_, rfl, completeV_elementStep s x (width_mul_count w) _ _⟩
  | none => exact exists_elementStep rfl (width_mul_count w) (fun _ => congrArg (· % 2 ^ w) (ite_self _).symm) fun _ => rfl

theorem execVperm_elements {a : VBin} {s : State} (hx : s.readsV a.x = true) (hy : s.readsV a.y = true) (hz : s.readsVZ a.z = true)
    (ht : a.fmt.getD s.me.vt ≠ .fa56) :
    let w := (a.fmt.getD s.me.vt).width
    let n := 1024 / w
    ∃ u, execVperm a s = .next u ∧ ElementStep s u a.x w n (isActive s a.prd w (min s.me.vl.toNat n)) (fun i =>
      let j := elem w (s.v (a.z.getD a.y)) i
      ⟨if j < n then elem w (s.v (if a.z.isSome then a.y else a.x)) j else 0, 0⟩) 0 := by
  obtain ⟨x, y, z, f, q⟩ := a
  intro w n
  unfold execVperm
  rw [checkVs_bind hx hy hz]
  simp only [elemType, requireType_ok (acceptsAny_of_ne ht)]
  cases z <;> exact ⟨_, rfl, completeV_elementStep s x (width_mul_count w) _ _⟩

/-- VSLIDE moves the elements of its source, X or Y, by the distance. -/
theorem execVslide_elements {x y : Idx} {d : GReg} {f : Option Fmt} {q : Option Prd} {s : State} {r : SlideSrc}
    (hr : r = .own d ∧ y = x ∨ r = .other y d) (hx : s.readsV x = true) (hy : s.readsV y = true) (hd : s.reads d = true)
    (ht : f.getD s.me.vt ≠ .fa56) :
    let w := (f.getD s.me.vt).width
    let n := 1024 / w
    ∃ u, execVslide ⟨x, r, f, q⟩ s = .next u ∧ ElementStep s u x w n (isActive s q w (min s.me.vl.toNat n)) (fun i =>
      let j := (i : Int) + (s.g d).toInt
      ⟨if 0 ≤ j ∧ j < n then elem w (s.v y) j.toNat else 0, 0⟩) 0 := by
  intro w n
  refine ⟨_, ?_, completeV_elementStep s x (width_mul_count w) _ _⟩
  unfold execVslide
  rw [checkV_ok (of_decide_eq_true hx)]
  obtain ⟨rfl, rfl⟩ | rfl := hr
  · simp only [checkG_ok hd, elemType, requireType_ok (acceptsAny_of_ne ht)]
    rfl
  · simp only [checkV_ok (of_decide_eq_true hy), checkG_ok hd, elemType, requireType_ok (acceptsAny_of_ne ht)]
    rfl

/-- A code written to the field VT of FMTW, in bits (R25). -/
theorem setFmtwField_vt (v : BitVec 16) {n : Nat} (hn : n < 16) :
    BitVec.ofNat 16 (v.toNat - v.toNat / 2 ^ 8 % 2 ^ 4 * 2 ^ 8 + n % 2 ^ 4 * 2 ^ 8) = (v &&& 0xF0FF) ||| (BitVec.ofNat 16 n <<< 8) := by
  have hmask : ∀ i, i < 16 → (BitVec.ofNat 16 0xF0FF).getLsbD i = (decide (i < 8) || decide (12 ≤ i)) := by decide
  have hsplit : v.toNat - v.toNat / 2 ^ 8 % 2 ^ 4 * 2 ^ 8 + n % 2 ^ 4 * 2 ^ 8 = 2 ^ 12 * (v.toNat / 2 ^ 12) + (2 ^ 8 * n + v.toNat % 2 ^ 8) := by
    omega
  change _ = (v &&& BitVec.ofNat 16 0xF0FF) ||| _
  refine BitVec.eq_of_getLsbD_eq fun i hi => ?_
  rw [BitVec.getLsbD_ofNat, decide_eq_true hi, Bool.true_and, hsplit, Nat.testBit_two_pow_mul_add _ (by omega), BitVec.getLsbD_or,
    BitVec.getLsbD_and, hmask i hi, BitVec.getLsbD_shiftLeft, BitVec.getLsbD_ofNat, Nat.testBit_two_pow_mul_add _ (Nat.mod_lt _ (by decide)),
    Nat.testBit_div_two_pow, Nat.testBit_mod_two_pow, BitVec.getLsbD]
  have hhigh (h : 12 ≤ i) : n.testBit (i - 8) = false :=
    Nat.testBit_lt_two_pow (Nat.lt_of_lt_of_le hn (show 2 ^ 4 ≤ 2 ^ (i - 8) from Nat.pow_le_pow_right (by decide) (by omega)))
  rcases lt_or_ge i 8 with h8 | h8
  · simp [h8, show i < 12 by omega]
  · rcases lt_or_ge i 12 with h12 | h12
    · simp [h12, hi, show ¬i < 8 by omega, show ¬12 ≤ i by omega, show i - 8 < 16 by omega]
    · simp [h12, hhigh h12, show ¬i < 12 by omega]

theorem execVsett_steps {a : VSet} {s : State} (hx : s.reads a.x = true) (hy : s.reads a.y = true) (ht : a.fmt.getD s.me.vt ≠ .fa56) :
    let t := a.fmt.getD s.me.vt
    let k := min (s.g a.y).toNat (1024 / t.width)
    ∃ v u, execVsett a s = .next u ∧ RegisterStep v u a.x (BitVec.ofNat 64 k) 0 ∧
      ContextStep s v { s.me with fmtw := (s.me.fmtw &&& 0xF0FF) ||| (BitVec.ofNat 16 t.code <<< 8), vl := BitVec.ofNat 8 k } := by
  intro t k
  refine ⟨s.upd (fun v => { v.setFmtwField 8 4 t.code with vl := BitVec.ofNat 8 k }), _, ?_, complete_registerStep _ a.x _ _, ?_⟩
  · unfold execVsett
    rw [checkG_ok hx, checkG_ok hy]
    simp only [elemType, requireType_ok (acceptsAny_of_ne ht)]
    rfl
  · rw [← setFmtwField_vt s.me.fmtw (Fmt.code_lt t)]
    exact upd_contextStep s _

theorem execVlen_registerStep {a : VLen} {s : State} (hx : s.reads a.x = true) (ht : a.fmt.getD s.me.vt ≠ .fa56) :
    ∃ u, execVlen a s = .next u ∧ RegisterStep s u a.x (BitVec.ofNat 64 (1024 / (a.fmt.getD s.me.vt).width)) 0 := by
  refine ⟨_, ?_, complete_registerStep s a.x _ _⟩
  unfold execVlen
  rw [checkG_ok hx]
  simp only [elemType, requireType_ok (acceptsAny_of_ne ht)]
  rfl

theorem execViota_elements {a : VIota} {s : State} (hx : s.readsV a.x = true) (ht : acceptsArith (a.fmt.getD s.me.vt) = true) :
    let t := a.fmt.getD s.me.vt
    ∃ u, execViota a s = .next u ∧
      ElementStep s u a.x t.width (1024 / t.width) (fun i => decide (i < min s.me.vl.toNat (1024 / t.width)))
        (fun i => match t.float? with
          | some f => ⟨f.encode (FVal.ofInt i), 0⟩
          | none => ⟨i, 0⟩) 0 := by
  intro t
  refine ⟨_, ?_, completeV_elementStep s a.x (width_mul_count _) _ _⟩
  unfold execViota
  rw [checkV_ok (of_decide_eq_true hx)]
  simp only [elemType, requireType_ok ht]
  rfl

end Sys2Proof.Machine

namespace Sys2Proof
open Machine

/-- Settles O26: each instruction passes its checks and completes with the value that the lemma about it gives. -/
theorem vectorReductionsAndMovement : Obligations.vector_reductions_and_movement := by
  unfold Obligations.vector_reductions_and_movement
  refine ⟨?reduce, fun a s hx hy hz ht => ?ext, fun a s hx hy hz => ⟨fun h ht => ?splat, fun z h ht => ?ramp⟩,
    fun a s hx hy hz ht => ⟨?sel, ?perm⟩, fun x y d f q s hx hy hd ht => ?slide, fun a s hx hy ht => ?sett,
    fun a s hx ht => ?len, fun a s hx ht => ?iota⟩
  case reduce =>
    refine List.forall_mem_cons.mpr ⟨?sum, List.forall_mem_cons.mpr ⟨?max, List.forall_mem_singleton.mpr ?min⟩⟩ <;>
      intro a s hx hy hz t w ht
    case sum => exact runVRed_registerStep (op := .add) hx hy hz ht
    case max => exact runVRed_registerStep (op := .max) hx hy hz ht
    case min => exact runVRed_registerStep (op := .min) hx hy hz ht
  case ext => exact execVext_registerStep hx hy hz ht
  case splat => exact execVbcst_elements hx hy hz (by rw [h]; exact acceptsAny_of_ne ht) (by rw [h])
  case ramp => exact execVbcst_elements hx hy hz (by rw [h]; exact ht) (by rw [h]; rfl)
  case sel => exact execVsel_elements hx hy hz ht
  case perm => exact execVperm_elements hx hy hz ht
  case slide =>
    refine List.forall_mem_cons.mpr ⟨?own, List.forall_mem_singleton.mpr ?other⟩
    case own => exact execVslide_elements (.inl ⟨rfl, rfl⟩) hx hx hd ht
    case other => exact execVslide_elements (.inr rfl) hx hy hd ht
  case sett => exact execVsett_steps hx hy ht
  case len => exact execVlen_registerStep hx ht
  case iota => exact execViota_elements hx ht

end Sys2Proof

end

-- Bytes of vector registers (O27, O28)
section
/-! Bytes written into a register, bit by bit and element by element. -/

set_option Elab.async false

namespace Sys2Proof.Machine

theorem leNat_lt (bs : List Byte) : leNat bs < 2 ^ (8 * bs.length) := by
  induction bs with
  | nil => exact Nat.one_pos
  | cons b bs ih =>
    have hb := b.isLt
    rw [leNat, List.length_cons, Nat.mul_succ, Nat.pow_add]
    omega

theorem leNat_leBytes (n v : Nat) : leNat (leBytes n v) = v % 2 ^ (8 * n) := by
  induction n generalizing v with
  | zero => rw [Nat.mul_zero, Nat.pow_zero, Nat.mod_one, leBytes, leNat]
  | succ n ih =>
    rw [leBytes, leNat, ih, BitVec.toNat_ofNat, Nat.mul_succ, Nat.add_comm (8 * n), Nat.pow_add, Nat.mod_mul]

/-- Bytes written at an offset are the bits there; the other bits stay. -/
theorem getLsbD_replaceBytes (w : Nat) (d : BitVec w) (off : Nat) (bs : List Byte) {i : Nat} (hi : i < w) :
    (replaceBytes w d off bs).getLsbD i =
      if 8 * off ≤ i ∧ i < 8 * (off + bs.length) then (leNat bs).testBit (i - 8 * off) else d.getLsbD i := by
  simp only [replaceBytes, onesAt, BitVec.getLsbD_or, BitVec.getLsbD_and, BitVec.getLsbD_not, BitVec.getLsbD_ofNat, hi, decide_true,
    Bool.true_and, Nat.testBit_mul_two_pow, Nat.testBit_two_pow_sub_one]
  by_cases hl : 8 * off ≤ i
  · by_cases hh : i < 8 * (off + bs.length)
    · rw [if_pos ⟨hl, hh⟩, decide_eq_true hl, decide_eq_true (show i - 8 * off < 8 * bs.length by omega)]
      simp
    · have ht : (leNat bs).testBit (i - 8 * off) = false :=
        Nat.testBit_lt_two_pow (Nat.lt_of_lt_of_le (leNat_lt bs) (Nat.pow_le_pow_right (by decide) (by omega)))
      rw [if_neg (fun h => hh h.2), ht, decide_eq_false (show ¬i - 8 * off < 8 * bs.length by omega)]
      simp
  · rw [if_neg (fun h => hl h.1), decide_eq_false hl]
    simp

/-- The bits of an element. -/
theorem testBit_elem (w : Nat) (v : VWord) (i j : Nat) : (elem w v i).testBit j = (decide (j < w) && v.getLsbD (w * i + j)) := by
  rw [elem, Nat.testBit_mod_two_pow, Nat.testBit_div_two_pow, Nat.add_comm, BitVec.getLsbD]

/-- An element within bytes written from byte 0 on. -/
theorem elem_replaceBytes_low {w : Nat} (d : VWord) (bs : List Byte) {i : Nat} (hi : w * (i + 1) ≤ 8 * bs.length) (hl : bs.length ≤ 128) :
    elem w (replaceBytes 1024 d 0 bs) i = leNat bs / 2 ^ (w * i) % 2 ^ w := by
  refine Nat.eq_of_testBit_eq fun j => ?_
  rw [testBit_elem, Nat.testBit_mod_two_pow, Nat.testBit_div_two_pow]
  by_cases hj : j < w
  · have hb : w * i + j < 8 * bs.length := by
      rw [Nat.mul_succ] at hi
      omega
    rw [getLsbD_replaceBytes 1024 d 0 bs (by omega), if_pos ⟨by omega, by omega⟩, Nat.mul_zero, Nat.sub_zero, Nat.add_comm]
  · rw [decide_eq_false hj, Bool.false_and, Bool.false_and]

end Sys2Proof.Machine
end

-- Conversions and packed blocks (O27)
section
/-! VCVT, and the blocks of VPACK, VQDS and VUNPK (R145 to R148). -/

set_option Elab.async false

namespace Sys2Proof.Machine

theorem foldr_elems_concat (w : Nat) (l : List Nat) (x : Nat) : (l ++ [x]).foldr (fun x a => x % 2 ^ w + 2 ^ w * a) 0 =
    l.foldr (fun x a => x % 2 ^ w + 2 ^ w * a) 0 + x % 2 ^ w * 2 ^ (w * l.length) := by
  induction l with
  | nil => simp
  | cons y l ih =>
    rw [List.cons_append, List.foldr_cons, ih, List.foldr_cons, List.length_cons, Nat.mul_succ, Nat.pow_add]
    ring

/-- A block scale is a code of e8m0 (R147). -/
theorem blockScale_lt (pack : Option FloatFmt) (l : List FVal) : blockScale pack l < 256 := by
  have hc (x : Int) : (saturate x 0 254).1.toNat < 256 := by
    unfold saturate
    split
    · decide
    · split
      · decide
      · omega
  unfold blockScale
  dsimp only
  generalize (l.map FVal.abs).foldl FVal.max (.fin false 0 0) = amax
  cases amax with
  | nan => exact (by decide : 255 < 256)
  | inf n => exact (by decide : 254 < 256)
  | fin n m e =>
    dsimp only
    split
    · decide
    · cases pack <;> exact hc _

/-- The code that VPACK and VQDS give element `i` under the scale `e` (R147). -/
def packElem (pack : Option FloatFmt) (a : VUn) (s : State) (e i : Nat) : Flagged Nat :=
  if isActive s a.prd 32 (min s.me.vl.toNat 32) i then
    let x := (fp32.decode (elem 32 (s.v a.y) i)).scale (127 - (e : Int))
    match pack with
    | some q => if e = 255 then ⟨q.nan, 0⟩ else encodeFlagged q (convertSmall q s.mode x)
    | none => roundDs8 x
  else ⟨if pack.isSome then 0x00 else 0x77, 0⟩

/-- VPACK and VQDS write the codes of 32 elements and their scale to the low 33 bytes of X, and leave the others (R147). -/
theorem runPack_block (pack : Option FloatFmt) (a : VUn) (s : State) :
    let act := isActive s a.prd 32 (min s.me.vl.toNat 32)
    let scale := blockScale pack (((List.range 32).filter act).map fun i => fp32.decode (elem 32 (s.v a.y) i))
    let f := packElem pack a s scale
    ∃ w, VectorStep s (runPack pack a s) a.x w ((List.range 32).foldl (fun g i => g ||| (f i).flags) 0) ∧ elem 8 w 32 = scale ∧
      (∀ i, 264 ≤ i → w.getLsbD i = (s.v a.x).getLsbD i) ∧ (∀ i, i < 32 → elem 8 w i = (f i).val % 256) := by
  intro act scale f
  have hs : scale < 256 := blockScale_lt ..
  let codes := (List.range 32).map fun i => (f i).val
  let bytes := leBytes 33 ((codes ++ [scale]).foldr (fun x a => x % 2 ^ 8 + 2 ^ 8 * a) 0)
  have hrun : runPack pack a s = s.completeV a.x ⟨replaceBytes 1024 (s.v a.x) 0 bytes, (List.range 32).foldl (fun g i => g ||| (f i).flags) 0⟩ := by
    have hcode : ((List.range 32).map f).foldr (fun r acc => r.val % 256 + 256 * acc) 0 = codes.foldr (fun x a => x % 2 ^ 8 + 2 ^ 8 * a) 0 := by
      rw [List.foldr_map, List.foldr_map]
      rfl
    have hflags : ((List.range 32).map f).foldl (fun f r => f ||| r.flags) 0 = (List.range 32).foldl (fun g i => g ||| (f i).flags) 0 :=
      List.foldl_map ..
    simp only [bytes]
    rw [foldr_elems_concat, Nat.mod_eq_of_lt (show scale < 2 ^ 8 from hs), ← hcode, ← hflags]
    rfl
  have hlen : bytes.length = 33 := length_leBytes ..
  have hnat : leNat bytes = (codes ++ [scale]).foldr (fun x a => x % 2 ^ 8 + 2 ^ 8 * a) 0 := by
    refine (leNat_leBytes ..).trans (Nat.mod_eq_of_lt ?_)
    have h := foldr_elems_lt 8 (codes ++ [scale])
    rwa [show (codes ++ [scale]).length = 33 by simp [codes]] at h
  have hbyte (i : Nat) (hi : i < 33) : elem 8 (replaceBytes 1024 (s.v a.x) 0 bytes) i = (codes ++ [scale]).getD i 0 % 2 ^ 8 := by
    rw [elem_replaceBytes_low _ _ (by omega) (by omega), hnat, digit_foldr_elems]
  refine ⟨_, hrun ▸ completeV_vectorStep s a.x _, ?_, fun i hi => ?_, fun i hi => ?_⟩
  · rw [hbyte 32 (by decide)]
    simpa [codes] using Nat.mod_eq_of_lt hs
  · by_cases h : i < 1024
    · rw [getLsbD_replaceBytes 1024 _ 0 bytes h, if_neg (by omega)]
    · rw [BitVec.getLsbD_of_ge _ _ (by omega), BitVec.getLsbD_of_ge _ _ (by omega)]
  · rw [hbyte i (by omega)]
    simp [codes, List.getD_eq_getElem?_getD, List.getElem?_append_left, hi]

theorem convertible_iff {t : Fmt} : convertible t = true ↔ t ≠ .fa56 ∧ t ≠ .m64 := by simp [convertible]

section
variable {a : VUn} {s : State} (hx : s.readsV a.x = true) (hy : s.readsV a.y = true)
include hx hy

theorem execVcvt_elements (ht : convertible s.me.vt = true) (hr : convertible (a.fmt.getD s.me.vt) = true) :
    let t := s.me.vt
    let r := a.fmt.getD s.me.vt
    ∃ u, execVcvt a s = .next u ∧ ElementStep s u a.x r.width (1024 / r.width)
      (isActive s a.prd t.width (min s.me.vl.toNat (min (1024 / t.width) (1024 / r.width))))
      (fun i => convertElem t r s.mode (elem t.width (s.v a.y) i)) 0 := by
  intro t r
  refine ⟨_, ?_, completeV_elementStep s a.x (width_mul_count _) _ _⟩
  unfold execVcvt
  rw [checkVV_bind hx hy]
  simp only [elemType, requireType_ok ht, requireType_ok hr]
  rfl

theorem execVpack_next {q : FloatFmt} (ht : s.me.vt = .fp32) (hf : a.fmt = some .e4m3 ∧ q = e4m3 ∨ a.fmt = some .e5m2 ∧ q = e5m2) :
    execVpack a s = .next (runPack (some q) a s) := by
  unfold execVpack
  rw [checkVV_bind hx hy, requireType_ok (by rw [ht]; rfl)]
  obtain ⟨hf, rfl⟩ | ⟨hf, rfl⟩ := hf <;> rw [hf] <;> rfl

theorem execVqds_next (ht : s.me.vt = .fp32) (hf : a.fmt = none ∨ a.fmt = some .ds8) : execVqds a s = .next (runPack none a s) := by
  unfold execVqds
  rw [checkVV_bind hx hy, requireType_ok (by rw [ht]; rfl), if_pos hf]
  rfl

theorem execVunpk_elements {f : Fmt} (ht : s.me.vt = .fp32) (hm : f ∈ [Fmt.e4m3, .e5m2, .ds8]) (hf : a.fmt = some f) :
    let e := elem 8 (s.v a.y) 32
    ∃ u, execVunpk a s = .next u ∧ ElementStep s u a.x 32 32 (isActive s a.prd 32 (min s.me.vl.toNat 32)) (fun i =>
      if e = 255 then ⟨fp32.nan, 0⟩
      else encodeFlagged fp32 (fp32.roundVal s.mode ((fmtValue f (elem 8 (s.v a.y) i)).scale ((e : Int) - 127)))) 0 := by
  intro e
  refine ⟨_, ?_, completeV_elementStep s a.x (by decide) _ _⟩
  unfold execVunpk
  rw [checkVV_bind hx hy, requireType_ok (by rw [ht]; rfl)]
  fin_cases hm <;> rw [hf] <;> rfl

end

/-! The types that they do not accept. -/

/-- A refusal that follows a check of the type is a refusal whatever the type is. -/
theorem requireType_bind_combo {ok : Fmt → Bool} {t : Fmt} {k : Unit → Except Stop State} (h : k () = .error vecCombo) :
    (requireType ok t >>= k) = .error vecCombo := by
  cases ho : ok t with
  | true => rw [requireType_ok ho]; exact h
  | false => rw [requireType_combo ho]; rfl

theorem requireType_bind_refused {ok : Fmt → Bool} {t : Fmt} {k : Unit → Except Stop State} (h : ok t = false) :
    (requireType ok t >>= k) = .error vecCombo := by
  rw [requireType_combo h]
  rfl

/-- An instruction of two vector operands that refuses its types takes ILLCOMBO. -/
theorem exists_comboStep {o : Answer} {s : State} {x y : Idx} {k : Unit → Except Stop State} (hx : s.readsV x = true) (hy : s.readsV y = true)
    (e : o = finish s (s.me.checkV 0 x >>= fun _ => s.me.checkV 1 y >>= k)) (hk : k () = .error vecCombo) (hv : s.me.tvec ≠ 0)
    (hi : s.me.intrap = false) : ∃ u, o = .next u ∧ TrapStep s u 0x02 0 0 := by
  rw [checkVV_bind hx hy, hk] at e
  exact exists_trapStep (t := ⟨.illcombo, 0, 0⟩) hv hi e

end Sys2Proof.Machine

namespace Sys2Proof
open Machine

/-- Settles O27: VCVT writes its converted elements, VPACK and VQDS their block (`runPack_block`), VUNPK the elements of a block; each
checks its types before that. -/
theorem vectorConversions : Obligations.vector_conversions := by
  unfold Obligations.vector_conversions
  intro a s hx hy m t r combo
  refine ⟨fun h1 h2 h3 h4 => ?convert, fun h => ?convertCombo, fun h => ⟨?packType, ?qdsType, ?unpackType⟩, fun h1 h2 => ?packFormat,
    fun h1 h2 => ?qdsFormat, fun h1 h2 h3 => ?unpackFormat, fun ht => ⟨fun f q hf ha => ?pack, fun ha => ?qds, fun f hf ha => ?unpack⟩⟩
  case convert => exact execVcvt_elements hx hy (convertible_iff.mpr ⟨h1, h2⟩) (convertible_iff.mpr ⟨h3, h4⟩)
  case convertCombo =>
    refine exists_comboStep hx hy rfl ?_
    by_cases hc : convertible t = true
    · refine requireType_bind_combo (requireType_bind_refused (Bool.eq_false_iff.mpr fun hr => ?_))
      obtain ⟨ht, ht'⟩ := convertible_iff.mp hc
      obtain ⟨hr, hr'⟩ := convertible_iff.mp hr
      tauto
    · exact requireType_bind_refused (Bool.eq_false_iff.mpr hc)
  case packType => exact exists_comboStep hx hy rfl (requireType_bind_refused (beq_eq_false_iff_ne.mpr h))
  case qdsType => exact exists_comboStep hx hy rfl (requireType_bind_refused (beq_eq_false_iff_ne.mpr h))
  case unpackType => exact exists_comboStep hx hy rfl (requireType_bind_refused (beq_eq_false_iff_ne.mpr h))
  case packFormat =>
    refine exists_comboStep hx hy rfl (requireType_bind_combo ?_)
    split
    · exact absurd ‹_› h1
    · exact absurd ‹_› h2
    · rfl
  case qdsFormat => exact exists_comboStep hx hy rfl (requireType_bind_combo (if_neg (not_or.mpr ⟨h1, h2⟩)))
  case unpackFormat =>
    refine exists_comboStep hx hy rfl (requireType_bind_combo ?_)
    split
    · exact absurd ‹_› h1
    · exact absurd ‹_› h2
    · exact absurd ‹_› h3
    · rfl
  case pack =>
    obtain ⟨w, hw⟩ := runPack_block (some q) a s
    exact ⟨_, w, execVpack_next hx hy ht (hf.imp (And.imp_left fun h => ha.trans (congrArg some h)) (And.imp_left fun h => ha.trans (congrArg some h))), hw⟩
  case qds =>
    obtain ⟨w, hw⟩ := runPack_block none a s
    exact ⟨_, w, execVqds_next hx hy ht ha, hw⟩
  case unpack => exact execVunpk_elements hx hy ht hf ha

end Sys2Proof

end

-- Vector loads (O28)
section
/-! A vector load checks its elements, reads them, and writes what it read element by element (R139, R140, R142, R212). The steps are said
once for a load with any way to name its elements (`runVLoad`); VLDB places the one element it reads as a load would its elements. -/

set_option Elab.async false

namespace Sys2Proof.Machine

/-! Elements placed in a register. -/

theorem width_eq_bytes (t : Fmt) : 8 * (t.width / 8) = t.width := Nat.mul_div_cancel' (dvd_width t)

theorem bytes_pos (t : Fmt) : 0 < t.width / 8 := by cases t <;> decide

theorem bytes_mul_count (t : Fmt) : t.width / 8 * (1024 / t.width) ≤ 128 := by rw [Nat.mul_comm]; exact lanes_le _

/-- Bytes written over an element replace it and leave the others. -/
theorem elem_replaceBytes {size : Nat} (d : VWord) {bs : List Byte} (hb : bs.length = size) {i k : Nat} (hi : size * (i + 1) ≤ 128)
    (hk : size * (k + 1) ≤ 128) : elem (8 * size) (replaceBytes 1024 d (i * size) bs) k = if k = i then leNat bs else elem (8 * size) d k := by
  refine Nat.eq_of_testBit_eq fun j => ?_
  rw [Nat.mul_succ] at hi hk
  have hmul (m : Nat) : 8 * size * m = 8 * (size * m) := Nat.mul_assoc ..
  rw [testBit_elem, hmul, Nat.mul_comm i]
  by_cases hj : j < 8 * size
  · rw [decide_eq_true hj, Bool.true_and, getLsbD_replaceBytes 1024 d _ bs (by omega), hb]
    rcases lt_trichotomy k i with h | rfl | h
    · have := Nat.mul_le_mul_left size h
      rw [Nat.mul_succ] at this
      rw [if_neg (by omega), if_neg h.ne, testBit_elem, hmul, decide_eq_true hj, Bool.true_and]
    · rw [if_pos (by omega), if_pos rfl, Nat.add_sub_cancel_left]
    · have := Nat.mul_le_mul_left size h
      rw [Nat.mul_succ] at this
      rw [if_neg (by omega), if_neg h.ne', testBit_elem, hmul, decide_eq_true hj, Bool.true_and]
  · rw [decide_eq_false hj, Bool.false_and]
    split
    · exact (Nat.testBit_lt_two_pow (Nat.lt_of_lt_of_le (leNat_lt bs) (Nat.pow_le_pow_right (by decide) (by omega)))).symm
    · rw [testBit_elem, decide_eq_false hj, Bool.false_and]

/-- Elements placed in a register stand there, and the others are as they were. -/
theorem elem_placeElements {size n : Nat} (hn : size * n ≤ 128) {got : List (Nat × List Byte)} (hd : (got.map (·.1)).Nodup)
    (hg : ∀ g ∈ got, g.1 < n ∧ g.2.length = size) (v : VWord) {k : Nat} (hk : k < n) :
    elem (8 * size) (placeElements v size (got.map (·.1)) (got.flatMap (·.2))) k = match got.lookup k with
      | some bs => leNat bs
      | none => elem (8 * size) v k := by
  induction got generalizing v with
  | nil => rfl
  | cons g r ih =>
    obtain ⟨i, bs⟩ := g
    obtain ⟨hi, hb⟩ := hg _ List.mem_cons_self
    obtain ⟨hmem, hd⟩ := List.nodup_cons.mp hd
    have hfit {m : Nat} (hm : m < n) : size * (m + 1) ≤ 128 := (Nat.mul_le_mul_left size hm).trans hn
    rw [List.map_cons, List.flatMap_cons, placeElements, List.take_left' hb, List.drop_left' hb,
      ih hd (fun g h => hg g (List.mem_cons_of_mem _ h)), List.lookup_cons]
    by_cases hki : k = i
    · subst hki
      have hnone : r.lookup k = none := List.lookup_eq_none_iff.mpr fun g h => by
        simpa using fun e : k = g.1 => hmem (List.mem_map.mpr ⟨g, h, e.symm⟩)
      rw [hnone, beq_self_eq_true]
      simp only [elem_replaceBytes v hb (hfit hk) (hfit hk), if_pos]
    · rw [beq_eq_false_iff_ne.mpr hki]
      simp only [elem_replaceBytes v hb (hfit hi) (hfit hk), if_neg hki]

/-! The parts of a load. -/

theorem acquireCaches_eq (s : State) (c : Nat) (sc : Scope) : acquireCaches s c sc =
    { s with stalls := (acquireCaches s c sc).stalls, halls := (acquireCaches s c sc).halls, l1 := (acquireCaches s c sc).l1,
             l2 := (acquireCaches s c sc).l2 } := by
  have h1 (t : State) (k : Nat) : bumpL1 t k = { t with stalls := (bumpL1 t k).stalls, l1 := (bumpL1 t k).l1 } := by
    unfold bumpL1
    dsimp only
    split <;> rfl
  have h2 (t : State) (h : Nat) : bumpL2 t h = { t with halls := (bumpL2 t h).halls, l1 := (bumpL2 t h).l1, l2 := (bumpL2 t h).l2 } := by
    unfold bumpL2
    dsimp only
    split <;> rfl
  unfold acquireCaches
  dsimp only
  split <;> split
  · rw [h2, h1]
  · rw [h2]
  · rw [h1]
  · rfl

/-- An acquire writes the caches and their epochs alone. -/
theorem acquireOf_eq (s : State) (q : Option OrdQ) : acquireOf s q =
    { s with stalls := (acquireOf s q).stalls, halls := (acquireOf s q).halls, l1 := (acquireOf s q).l1, l2 := (acquireOf s q).l2 } := by
  unfold acquireOf acquireAt
  split
  · exact acquireCaches_eq ..
  · rfl

@[simp] theorem acquireOf_cur (s : State) (q : Option OrdQ) : (acquireOf s q).cur = s.cur := by rw [acquireOf_eq]
@[simp] theorem acquireOf_ctxs (s : State) (q : Option OrdQ) : (acquireOf s q).ctxs = s.ctxs := by rw [acquireOf_eq]
@[simp] theorem acquireOf_vfile (s : State) (q : Option OrdQ) : (acquireOf s q).vfile = s.vfile := by rw [acquireOf_eq]

@[simp] theorem acquireOf_ctx (s : State) (q : Option OrdQ) (c : Nat) : (acquireOf s q).ctx c = s.ctx c := by
  rw [State.ctx, State.ctx, acquireOf_ctxs]

@[simp] theorem acquireOf_me (s : State) (q : Option OrdQ) : (acquireOf s q).me = s.me := by
  rw [State.me, State.me, acquireOf_cur, acquireOf_ctx]

@[simp] theorem acquireOf_v (s : State) (q : Option OrdQ) (x : Idx) : (acquireOf s q).v x = s.v x := by
  rw [State.v, State.v, State.readV, State.readV, acquireOf_cur, acquireOf_ctx, acquireOf_vfile]

theorem checkElems_cons {size : Nat} {acc : Acc} {s : State} {p : Nat × Nat} {r : List (Nat × Nat)} (h : p.2 % size = 0) :
    checkElems size acc s (p :: r) = (translate s p.2 acc >>= fun q =>
      (if acc.kind = 0 then checkPoison q.1 acc p.2 q.2.place size else pure ()) >>= fun _ =>
        checkElems size acc q.1 r >>= fun u => pure (u.1, ⟨p.1, p.2, q.2.place⟩ :: u.2)) := by
  rw [checkElems, if_neg (not_not.mpr h)]
  refine congrArg _ (funext fun q => ?_)
  dsimp only
  split <;> rfl

theorem checkElems_fst {size : Nat} {acc : Acc} {l : List (Nat × Nat)} {s s1 : State} {es : List ElemAt}
    (h : checkElems size acc s l = .ok (s1, es)) : es.map (·.i) = l.map (·.1) := by
  induction l generalizing s s1 es with
  | nil => cases h; rfl
  | cons p r ih =>
    by_cases hp : p.2 % size = 0
    · rw [checkElems_cons hp] at h
      obtain ⟨q, -, h⟩ := Except.exists_of_bind h
      obtain ⟨-, -, h⟩ := Except.exists_of_bind h
      obtain ⟨u, hu, h⟩ := Except.exists_of_bind h
      cases h
      exact congrArg (p.1 :: ·) (ih hu)
    · rw [checkElems, if_pos hp] at h
      cases h

theorem readElems_fst {c size : Nat} {policy : Policy} {es : List ElemAt} {s s1 : State} {got : List (Nat × List Byte)} {now : Bool}
    (h : readElems c size policy s es = .ok (s1, got, now)) : got.map (·.1) = es.map (·.i) := by
  induction es generalizing s s1 got now with
  | nil => cases h; rfl
  | cons e r ih =>
    obtain ⟨⟨t, bs, b⟩, -, h⟩ := Except.exists_of_bind h
    obtain ⟨⟨t', rest, b'⟩, hr, h⟩ := Except.exists_of_bind h
    cases h
    exact congrArg (e.i :: ·) (ih hr)

/-- The elements that a vector access names are different ones, in the register. -/
theorem checkElems_range {size n : Nat} {acc : Acc} {act : Nat → Bool} {va : Nat → Nat} {s s1 : State} {es : List ElemAt}
    (h : checkElems size acc s (((List.range n).filter act).map (fun k => (k, va k))) = .ok (s1, es)) :
    es.map (·.i) = (List.range n).filter act := by
  rw [checkElems_fst h, List.map_map]
  exact List.map_id _

theorem remoteBlocks_of_own {c : Nat} {es : List ElemAt} (h : es.all (fun m => !isRemote c m.place) = true) : remoteBlocks c es = [] := by
  have hf : es.filter (fun e => isRemote c e.place) = [] := List.filter_eq_nil_iff.mpr fun e he => by
    simpa using List.all_eq_true.mp h e he
  simp [remoteBlocks, hf]

/-- A load of elements of the own package reads them and replies. -/
theorem loadElems_own {s s1 : State} {x size : Nat} {es : List ElemAt} {ord : Option OrdQ} {got : List (Nat × List Byte)} {now : Bool}
    (ho : es.all (fun m => !isRemote s.cur m.place) = true)
    (hr : readElems s.cur size (policyOf ord) (acquireOf s ord) es = .ok (s1, got, now)) :
    loadElems s x size es ord = .ok (reply s1 (.vector x size (got.map (·.1)) false) (got.flatMap (·.2)) now 0) := by
  rw [loadElems, List.filter_eq_self.mpr (List.all_eq_true.mp ho), hr, remoteBlocks_of_own ho]
  rfl

theorem vmemCheck_ok {s : State} {x : Idx} {y : GReg} {z : Except Stop Unit} {f : Option Fmt} (hx : s.readsV x = true)
    (hy : s.reads y = true) (hz : z = .ok ()) (ht : f.getD s.me.vt ≠ .fa56) :
    vmemCheck s x y z f = .ok ((f.getD s.me.vt).width / 8, 1024 / (f.getD s.me.vt).width) := by
  unfold vmemCheck
  rw [checkV_ok (of_decide_eq_true hx), checkG_ok hy, hz]
  simp only [elemType, requireType_ok (acceptsAny_of_ne ht)]
  rfl

theorem reply_now (s : State) (x : Idx) (size : Nat) (l : List Nat) (bs : List Byte) :
    reply s (.vector x.val size l false) bs true 0 = s.completeV x ⟨placeElements (s.v x) size l bs, 0⟩ := rfl

/-- A reply that is there at once writes the elements read to the register (R139). -/
theorem reply_vectorStep {s : State} {x : Idx} {size n : Nat} (hn : size * n ≤ 128) {got : List (Nat × List Byte)}
    (hd : (got.map (·.1)).Nodup) (hg : ∀ g ∈ got, g.1 < n ∧ g.2.length = size) :
    ∃ r, VectorStep s (reply s (.vector x.val size (got.map (·.1)) false) (got.flatMap (·.2)) true 0) x r 0 ∧
      ∀ k, k < n → elem (8 * size) r k = match got.lookup k with
        | some bs => leNat bs
        | none => elem (8 * size) (s.v x) k := by
  rw [reply_now]
  exact ⟨_, completeV_vectorStep s x _, fun _ hk => elem_placeElements hn hd hg (s.v x) hk⟩

/-! The own TCM. -/

theorem readStorage_of_tcm (t : State) {c n k off : Nat} {p : Place} {policy : Policy} (hp : p.cached = false)
    (h : storageOf p.pa = .tcm k off) : readStorage t c p n policy = (t, homeBytes t 0 p.pa n, k == ctxStall c) := by
  have hd : isDevice p.pa = false := by rw [isDevice, h]
  rw [readStorage, hd, if_neg Bool.false_ne_true, h]
  exact loadPlace_of_tcm t hp h

theorem forwarded_none {t : State} {c n : Nat} {p : Place} (hm : p.mtype ≠ 2) (h : newestOverlap (t.ctx c) p.pa n = none) :
    forwarded t c p n = .ok (t, none) := by
  rw [forwarded, h]
  exact if_neg hm

section
variable {s : State} {va n : Nat} (hin : s.inTcm va n)
include hin

theorem translate_inTcm (hn : 0 < n) (acc : Acc) : translate s va acc = .ok (s, ⟨s.tcmPlace va, 0⟩) := by
  obtain ⟨hl, hlo, hhi⟩ := hin
  exact translate_tcm s hl va acc hlo (by omega)

theorem isRemote_tcmPlace (hn : 0 < n) : isRemote s.cur (s.tcmPlace va) = false := by
  obtain ⟨hl, hlo, hhi⟩ := hin
  have hk : ctxStall s.cur < 512 * 8192 := by
    unfold ctxLimit at hl
    unfold ctxStall
    omega
  rw [isRemote, State.tcmPlace, pkgOf_tcmBase hk (by omega)]
  exact bne_self_eq_false _

/-- A load from the own TCM over which no store of the context has issued finds the bytes there at once (R310, R315). -/
theorem readPlace_tcm (hn : 0 < n) {t : State} (hno : newestOverlap (t.ctx s.cur) (s.tcmPlace va).pa n = none) (policy : Policy) :
    readPlace t s.cur (s.tcmPlace va) n policy = .ok (t, homeBytes t 0 (s.tcmPlace va).pa n, true) := by
  obtain ⟨off, ho⟩ := storageOf_tcmPlace hin hn
  rw [Nat.add_zero] at ho
  have hr := readStorage_of_tcm t (c := s.cur) (n := n) (policy := policy) rfl ho
  rw [beq_self_eq_true] at hr
  rw [readPlace, forwarded_none (show 1 ≠ 2 by decide) hno]
  exact congrArg Except.ok hr

end

theorem length_homeBytes {s : State} {k pa n : Nat} : (homeBytes s k pa n).length = n := by rw [homeBytes, List.length_map, List.length_range]

/-- Aligned elements in the own TCM pass their checks, which change nothing. -/
theorem checkElems_tcm {s : State} {size : Nat} (hs : 0 < size) (acc : Acc) {l : List (Nat × Nat)}
    (h : ∀ p ∈ l, s.inTcm p.2 size ∧ p.2 % size = 0 ∧ (acc.kind = 0 → s.intact p.2 size)) :
    checkElems size acc s l = .ok (s, l.map (fun p => ⟨p.1, p.2, s.tcmPlace p.2⟩)) := by
  induction l with
  | nil => rfl
  | cons p r ih =>
    obtain ⟨hin, ha, hp⟩ := h p List.mem_cons_self
    have hpoison : (if acc.kind = 0 then checkPoison s acc p.2 (s.tcmPlace p.2) size else pure ()) = .ok () := by
      split
      · rw [checkPoison, isPoisoned_tcmPlace hin (hp ‹_›) le_rfl]
        rfl
      · rfl
    have hrest := ih fun q hq => h q (List.mem_cons_of_mem _ hq)
    rw [checkElems_cons ha, translate_inTcm hin hs, Except.ok_bind, hpoison, Except.ok_bind, hrest]
    rfl

/-- Elements in the own TCM, over which no store of the context has issued, are read at once. -/
theorem readElems_tcm {s t : State} {size : Nat} (hs : 0 < size) (policy : Policy) {va : Nat → Nat} {l : List Nat}
    (h : ∀ k ∈ l, s.inTcm (va k) size ∧ newestOverlap (t.ctx s.cur) (s.tcmPlace (va k)).pa size = none) :
    readElems s.cur size policy t (l.map fun k => ⟨k, va k, s.tcmPlace (va k)⟩) =
      .ok (t, l.map (fun k => (k, homeBytes t 0 (s.tcmPlace (va k)).pa size)), true) := by
  induction l with
  | nil => rfl
  | cons k r ih =>
    obtain ⟨hin, hno⟩ := h k List.mem_cons_self
    have hread := readPlace_tcm hin hs hno policy
    have hrest := ih fun q hq => h q (List.mem_cons_of_mem _ hq)
    rw [List.map_cons, readElems]
    simp only [hread, Except.ok_bind, hrest]
    rfl

theorem lookup_map_pair {β : Type} (f : Nat → β) (l : List Nat) (k : Nat) :
    (l.map fun i => (i, f i)).lookup k = if k ∈ l then some (f k) else none := by
  split
  · exact List.lookup_graph f ‹_›
  · refine List.lookup_eq_none_iff.mpr fun p hp => ?_
    obtain ⟨i, hi, rfl⟩ := List.mem_map.mp hp
    simpa using fun e : k = i => ‹k ∉ l› (e ▸ hi)

/-- Going on to the next instruction leaves every vector register as it is. -/
theorem advance_vectorStep (s : State) (x : Idx) : VectorStep s s.advance x (s.v x) 0 where
  rest := rfl
  bytes := fun _ _ => rfl
  others := (advance_nextStep s).others
  own := (advance_nextStep s).own.trans (by rw [show s.me.flags ||| 0 = s.me.flags from BitVec.or_zero])
  file := by
    intro n
    split
    · subst n
      rfl
    · rfl

/-! The active elements of an access. -/

/-- The active elements of a vector access in increasing number (R133), and with their addresses (R139). -/
def activeElems (s : State) (f : Option Fmt) (q : Option Prd) : List Nat :=
  let w := (f.getD s.me.vt).width
  (List.range (1024 / w)).filter (isActive s q w (min s.me.vl.toNat (1024 / w)))
def activeAddrs (s : State) (f : Option Fmt) (q : Option Prd) (va : Nat → Nat) : List (Nat × Nat) :=
  (activeElems s f q).map (fun k => (k, va k))

theorem mem_activeElems {s : State} {f : Option Fmt} {q : Option Prd} {k : Nat} : k ∈ activeElems s f q ↔
    k < 1024 / (f.getD s.me.vt).width ∧
      isActive s q (f.getD s.me.vt).width (min s.me.vl.toNat (1024 / (f.getD s.me.vt).width)) k = true := by
  simp [activeElems]

/-- Where each active element comes with bytes, an element has the bytes' value or another as it is active or not. -/
theorem match_lookup_activeElems {s : State} {f : Option Fmt} {q : Option Prd} (bs : Nat → List Byte) {k d : Nat}
    (hk : k < 1024 / (f.getD s.me.vt).width) :
    (match ((activeElems s f q).map fun i => (i, bs i)).lookup k with
      | some b => leNat b
      | none => d) =
    if isActive s q (f.getD s.me.vt).width (min s.me.vl.toNat (1024 / (f.getD s.me.vt).width)) k then leNat (bs k) else d := by
  rw [lookup_map_pair]
  by_cases ha : isActive s q (f.getD s.me.vt).width (min s.me.vl.toNat (1024 / (f.getD s.me.vt).width)) k = true
  · rw [if_pos (mem_activeElems.mpr ⟨hk, ha⟩), if_pos ha]
  · rw [if_neg fun hm => ha (mem_activeElems.mp hm).2, if_neg ha]

/-! Loads with any way to name elements. -/

section
variable {s : State} {x : Idx} {y : GReg} {z : Except Stop Unit} {imm : Word} {ord : Option OrdQ} {f : Option Fmt} {q : Option Prd}
  {off : Nat → Nat → Word} (hx : s.readsV x = true) (hy : s.reads y = true) (hz : z = .ok ()) (ht : f.getD s.me.vt ≠ .fa56)

/-- The model counts the width of an element in its bytes. -/
theorem filter_activeElems (s : State) (f : Option Fmt) (q : Option Prd) :
    let t := f.getD s.me.vt
    (List.range (1024 / t.width)).filter (isActive s q (8 * (t.width / 8)) (effLen s (1024 / t.width))) = activeElems s f q := by
  intro t
  rw [width_eq_bytes]
  rfl

theorem elemAddrs_eq (s : State) (y : GReg) (imm : Word) (f : Option Fmt) (q : Option Prd) (off : Nat → Word) :
    let t := f.getD s.me.vt
    elemAddrs s y imm (elemCount t) (isActive s q (8 * (t.width / 8)) (effLen s (elemCount t))) off =
      activeAddrs s f q (fun k => (s.g y + imm + off k).toNat) := by
  exact congrArg (List.map _) (filter_activeElems s f q)

include hx hy hz ht

theorem runVLoad_eq : let size := (f.getD s.me.vt).width / 8
    runVLoad x y z imm ord f q off s =
      finish s (checkElems size ⟨0, false, true, !s.me.pl⟩ s (activeAddrs s f q fun k => (s.g y + imm + off size k).toNat) >>= fun p =>
        if p.2.isEmpty then pure (acquireOf p.1 ord).advance else loadElems p.1 x.val size p.2 ord) := by
  intro size
  unfold runVLoad
  rw [vmemCheck_ok hx hy hz ht, ← elemAddrs_eq]
  rfl

/-- With no active element only the acquire is made (R142). -/
theorem runVLoad_none {s1 : State} (hc : checkElems ((f.getD s.me.vt).width / 8) ⟨0, false, true, !s.me.pl⟩ s
    (activeAddrs s f q fun k => (s.g y + imm + off ((f.getD s.me.vt).width / 8) k).toNat) = .ok (s1, [])) :
    runVLoad x y z imm ord f q off s = .next (acquireOf s1 ord).advance := by
  rw [runVLoad_eq hx hy hz ht, hc]
  rfl

/-- Checked elements of the own package are read, and the load replies with them. -/
theorem runVLoad_some {s1 s2 : State} {es : List ElemAt} {got : List (Nat × List Byte)} {now : Bool}
    (hc : checkElems ((f.getD s.me.vt).width / 8) ⟨0, false, true, !s.me.pl⟩ s
      (activeAddrs s f q fun k => (s.g y + imm + off ((f.getD s.me.vt).width / 8) k).toNat) = .ok (s1, es))
    (ho : es.all (fun m => !isRemote s1.cur m.place) = true)
    (hr : readElems s1.cur ((f.getD s.me.vt).width / 8) (policyOf ord) (acquireOf s1 ord) es = .ok (s2, got, now)) (he : es ≠ []) :
    runVLoad x y z imm ord f q off s =
      .next (reply s2 (.vector x.val ((f.getD s.me.vt).width / 8) (got.map (·.1)) false) (got.flatMap (·.2)) now 0) := by
  rw [runVLoad_eq hx hy hz ht, hc, Except.ok_bind, List.isEmpty_eq_false_iff.mpr he, if_neg Bool.false_ne_true, loadElems_own ho hr]
  rfl

/-- Elements that are all there at once are written to the register. -/
theorem runVLoad_now {s1 s2 : State} {es : List ElemAt} {got : List (Nat × List Byte)}
    (hc : checkElems ((f.getD s.me.vt).width / 8) ⟨0, false, true, !s.me.pl⟩ s
      (activeAddrs s f q fun k => (s.g y + imm + off ((f.getD s.me.vt).width / 8) k).toNat) = .ok (s1, es))
    (ho : es.all (fun m => !isRemote s1.cur m.place) = true)
    (hr : readElems s1.cur ((f.getD s.me.vt).width / 8) (policyOf ord) (acquireOf s1 ord) es = .ok (s2, got, true)) (he : es ≠ [])
    (hl : ∀ g ∈ got, g.2.length = (f.getD s.me.vt).width / 8) :
    let w := (f.getD s.me.vt).width
    ∃ u r, runVLoad x y z imm ord f q off s = .next u ∧ VectorStep s2 u x r 0 ∧ ∀ k, k < 1024 / w → elem w r k = match got.lookup k with
      | some bs => leNat bs
      | none => elem w (s2.v x) k := by
  intro w
  have hfst := (readElems_fst hr).trans (checkElems_range hc)
  have hd : (got.map (·.1)).Nodup := hfst ▸ List.nodup_range.filter _
  have hg (g : Nat × List Byte) (h : g ∈ got) : g.1 < 1024 / w ∧ g.2.length = w / 8 := by
    have hm : g.1 ∈ got.map (·.1) := List.mem_map_of_mem h
    rw [hfst] at hm
    exact ⟨List.mem_range.mp (List.mem_of_mem_filter hm), hl g h⟩
  obtain ⟨r, hs, hr'⟩ := reply_vectorStep (s := s2) (x := x) (bytes_mul_count (f.getD s.me.vt)) hd hg
  rw [width_eq_bytes] at hr'
  exact ⟨_, r, runVLoad_some hx hy hz ht hc ho hr he, hs, hr'⟩

/-- From the own TCM, with no issued store over the bytes, a vector load completes at once with the bytes of the TCM (R29, R310). -/
theorem runVLoad_tcm :
    let w := (f.getD s.me.vt).width
    let size := w / 8
    let act := isActive s q w (min s.me.vl.toNat (1024 / w))
    let va (k : Nat) : Nat := (s.g y + imm + off size k).toNat
    let pa (k : Nat) : Nat := (s.tcmPlace (va k)).pa
    let s1 := acquireOf s ord
    (∀ k, k < 1024 / w → act k = true → s.inTcm (va k) size ∧ va k % size = 0 ∧ s.intact (va k) size ∧
      newestOverlap s.me (pa k) size = none) →
    ∃ u r, runVLoad x y z imm ord f q off s = .next u ∧ VectorStep s1 u x r 0 ∧
      ∀ k, k < 1024 / w → elem w r k = if act k then leNat (homeBytes s1 0 (pa k) size) else elem w (s.v x) k := by
  intro w size act va pa s1 h
  let l := activeElems s f q
  let es : List ElemAt := l.map fun k => ⟨k, va k, s.tcmPlace (va k)⟩
  have hs : 0 < size := bytes_pos (f.getD s.me.vt)
  have hl (k : Nat) (hk : k ∈ l) : s.inTcm (va k) size ∧ va k % size = 0 ∧ s.intact (va k) size ∧ newestOverlap s.me (pa k) size = none :=
    h k (mem_activeElems.mp hk).1 (mem_activeElems.mp hk).2
  have hc : checkElems size ⟨0, false, true, !s.me.pl⟩ s (activeAddrs s f q va) = .ok (s, es) := by
    refine (checkElems_tcm hs _ fun p hp => ?_).trans (by rw [activeAddrs, List.map_map]; rfl)
    obtain ⟨k, hk, rfl⟩ := List.mem_map.mp hp
    obtain ⟨hin, ha, hi, -⟩ := hl k hk
    exact ⟨hin, ha, fun _ => hi⟩
  by_cases he : es = []
  · rw [he] at hc
    refine ⟨_, _, runVLoad_none hx hy hz ht hc, advance_vectorStep s1 x, fun k hk => ?_⟩
    have hk' : ¬act k = true := fun ha => by
      have hm : k ∈ l := mem_activeElems.mpr ⟨hk, ha⟩
      rw [List.map_eq_nil_iff.mp he] at hm
      cases hm
    rw [if_neg hk', acquireOf_v]
  · have ho : es.all (fun m => !isRemote s.cur m.place) = true := List.all_eq_true.mpr fun m hm => by
      obtain ⟨k, hk, rfl⟩ := List.mem_map.mp hm
      exact Bool.not_eq_true' _ ▸ isRemote_tcmPlace (hl k hk).1 hs
    have hr := readElems_tcm (t := s1) hs (policyOf ord) (va := va) (l := l) fun k hk => by
      obtain ⟨hin, -, -, hno⟩ := hl k hk
      exact ⟨hin, by rw [acquireOf_ctx]; exact hno⟩
    obtain ⟨u, r, hu, hstep, hr⟩ := runVLoad_now hx hy hz ht hc ho hr he fun g hg => by
      obtain ⟨k, -, rfl⟩ := List.mem_map.mp hg
      exact length_homeBytes
    refine ⟨u, r, hu, hstep, fun k hk => ?_⟩
    rw [← acquireOf_v s ord x]
    exact (hr k hk).trans (match_lookup_activeElems (fun k => homeBytes s1 0 (pa k) size) hk)

/-- A vector load, whatever names its elements: what it does with the elements that pass their checks, and from the own TCM. -/
theorem runVLoad_loads :
    let w := (f.getD s.me.vt).width
    let size := w / 8
    let act := isActive s q w (min s.me.vl.toNat (1024 / w))
    let va (k : Nat) : Nat := (s.g y + imm + off size k).toNat
    let pa (k : Nat) : Nat := (s.tcmPlace (va k)).pa
    (∀ (s1 s2 : State) (es : List ElemAt) (got : List (Nat × List Byte)) (now : Bool),
      checkElems size ⟨0, false, true, !s.me.pl⟩ s (((List.range (1024 / w)).filter act).map (fun k => (k, va k))) = .ok (s1, es) →
      es.all (fun m => !isRemote s1.cur m.place) = true →
      readElems s1.cur size (policyOf ord) (acquireOf s1 ord) es = .ok (s2, got, now) → s2.cur = s1.cur →
      got.all (fun g => g.2.length == size) = true →
      (es = [] → ∃ u, runVLoad x y z imm ord f q off s = .next u ∧ NextStep (acquireOf s1 ord) u) ∧
      (es ≠ [] → now = true → ∃ u r, runVLoad x y z imm ord f q off s = .next u ∧ VectorStep s2 u x r 0 ∧
        ∀ k, k < 1024 / w → elem w r k = match got.lookup k with
          | some bs => leNat (bs.take size) % 2 ^ w
          | none => elem w (s2.v x) k) ∧
      (es ≠ [] → now = false → runVLoad x y z imm ord f q off s = .next ((block s2 s1.cur .wmem
        (.reply (.vector x.val size (got.map (·.1)) false) (got.flatMap (·.2)) 0)).cause (.loadReply s1.cur)))) ∧
    ((∀ k, k < 1024 / w → act k = true → s.inTcm (va k) size ∧ va k % size = 0 ∧ s.intact (va k) size ∧
        newestOverlap s.me (pa k) size = none) →
      let s1 := acquireOf s ord
      ∃ u r, runVLoad x y z imm ord f q off s = .next u ∧ VectorStep s1 u x r 0 ∧
        ∀ k, k < 1024 / w → elem w r k = if act k then leNat (homeBytes s1 0 (pa k) size) else elem w (s.v x) k) := by
  intro w size act va pa
  refine ⟨fun s1 s2 es got now hc ho hr hcur hl => ⟨fun he => ?_, fun he hn => ?_, fun he hn => ?_⟩, runVLoad_tcm hx hy hz ht⟩
  · subst he
    exact ⟨_, runVLoad_none hx hy hz ht hc, advance_nextStep _⟩
  · subst hn
    have hlen (g : Nat × List Byte) (hg : g ∈ got) : g.2.length = size := beq_iff_eq.mp (List.all_eq_true.mp hl g hg)
    obtain ⟨u, r, hu, hs, hr⟩ := runVLoad_now hx hy hz ht hc ho hr he hlen
    refine ⟨u, r, hu, hs, fun k hk => (hr k hk).trans ?_⟩
    cases hg : got.lookup k with
    | none => rfl
    | some bs =>
      have hb : bs.length = size := by
        obtain ⟨l1, l2, rfl, -⟩ := List.lookup_eq_some_iff.mp hg
        exact hlen (k, bs) (by simp)
      have hlt : leNat bs < 2 ^ w := by
        have := leNat_lt bs
        rwa [hb, width_eq_bytes] at this
      simp only
      rw [List.take_of_length_le hb.le, Nat.mod_eq_of_lt hlt]
  · subst hn
    rw [runVLoad_some hx hy hz ht hc ho hr he, ← hcur]
    rfl

end

/-! VLDB. -/

theorem startLoad_now {s s1 : State} {va n : Nat} {p : Place} {d : Dest} {ord : Option OrdQ} {bs : List Byte}
    (ho : isRemote s.cur p = false) (hr : readPlace (acquireOf s ord) s.cur p n (policyOf ord) = .ok (s1, bs, true)) :
    startLoad s va p n d ord = .ok (reply s1 d bs true 0) := by
  rw [startLoad]
  simp only [ho, Bool.false_eq_true, if_false, hr]
  rfl

/-- The broadcast of an element places it once for each active element. -/
theorem reply_broadcast (s : State) (x size : Nat) (l : List Nat) {bs : List Byte} (hb : bs.length = size) :
    let got := l.map fun i => (i, bs)
    reply s (.vector x size l true) bs true 0 = reply s (.vector x size (got.map (·.1)) false) (got.flatMap (·.2)) true 0 := by
  intro got
  have h1 : got.map (·.1) = l := by simp [got, Function.comp_def]
  have h2 : (l.map fun _ => bs.take size).flatten = got.flatMap (·.2) := by
    simp [got, List.flatMap_def, Function.comp_def, List.take_of_length_le hb.le]
  simp only [reply, writeDest, if_true, Bool.false_eq_true, if_false, h1, h2]

section
variable {s : State} {a : VMem} (hx : s.readsV a.x = true) (hy : s.reads a.y = true) (hz : s.readsZ a.z = true)
  (ht : a.fmt.getD s.me.vt ≠ .fa56)
include hx hy hz ht

theorem execVldb_none (h : activeElems s a.fmt a.prd = []) : execVldb a s = .next (acquireOf s a.ord).advance := by
  unfold execVldb
  rw [vmemCheck_ok hx hy (checkZ_ok hz) ht]
  simp only [Except.ok_bind, filter_activeElems, h]
  rfl

/-- The element is read once and broadcast to the active ones. -/
theorem execVldb_reply {s1 s2 : State} {m : ElemAt} {bs : List Byte} (h : activeElems s a.fmt a.prd ≠ [])
    (hc : checkElems ((a.fmt.getD s.me.vt).width / 8) ⟨0, false, true, !s.me.pl⟩ s
      [(0, effAddr s a.y a.z a.imm ((a.fmt.getD s.me.vt).width / 8))] = .ok (s1, [m])) (ho : isRemote s1.cur m.place = false)
    (hr : readPlace (acquireOf s1 a.ord) s1.cur m.place ((a.fmt.getD s.me.vt).width / 8) (policyOf a.ord) = .ok (s2, bs, true)) :
    execVldb a s = .next (reply s2 (.vector a.x.val ((a.fmt.getD s.me.vt).width / 8) (activeElems s a.fmt a.prd) true) bs true 0) := by
  unfold execVldb
  rw [vmemCheck_ok hx hy (checkZ_ok hz) ht]
  simp only [Except.ok_bind, filter_activeElems, List.isEmpty_eq_false_iff.mpr h, Bool.false_eq_true, if_false, hc, ho, startLoad_now ho hr]
  rfl

theorem execVldb_now {s1 s2 : State} {m : ElemAt} {bs : List Byte} :
    let w := (a.fmt.getD s.me.vt).width
    let size := w / 8
    let act := isActive s a.prd w (min s.me.vl.toNat (1024 / w))
    (List.range (1024 / w)).any act = true →
    checkElems size ⟨0, false, true, !s.me.pl⟩ s [(0, effAddr s a.y a.z a.imm size)] = .ok (s1, [m]) → isRemote s1.cur m.place = false →
    readPlace (acquireOf s1 a.ord) s1.cur m.place size (policyOf a.ord) = .ok (s2, bs, true) → bs.length = size →
    ∃ u r, execVldb a s = .next u ∧ VectorStep s2 u a.x r 0 ∧
      ∀ k, k < 1024 / w → elem w r k = if act k then leNat bs else elem w (s2.v a.x) k := by
  intro w size act h hc ho hr hb
  let l := activeElems s a.fmt a.prd
  have hl : l ≠ [] := by
    obtain ⟨k, hk, ha⟩ := List.any_eq_true.mp h
    exact List.ne_nil_of_mem (List.mem_filter.mpr ⟨hk, ha⟩)
  let got := l.map fun i => (i, bs)
  have hfst : got.map (·.1) = l := by simp [got, Function.comp_def]
  obtain ⟨r, hs, hr'⟩ := reply_vectorStep (s := s2) (x := a.x) (got := got) (bytes_mul_count (a.fmt.getD s.me.vt))
    (hfst ▸ List.nodup_range.filter _) fun g hg => by
      obtain ⟨k, hk, rfl⟩ := List.mem_map.mp hg
      exact ⟨List.mem_range.mp (List.mem_of_mem_filter hk), hb⟩
  refine ⟨_, r, execVldb_reply hx hy hz ht hl hc ho hr, reply_broadcast s2 a.x.val size l hb ▸ hs, fun k hk => ?_⟩
  have hrk := hr' k hk
  rw [width_eq_bytes] at hrk
  exact hrk.trans (match_lookup_activeElems (fun _ => bs) hk)

theorem execVldb_tcm :
    let w := (a.fmt.getD s.me.vt).width
    let size := w / 8
    let act := isActive s a.prd w (min s.me.vl.toNat (1024 / w))
    let va := effAddr s a.y a.z a.imm size
    let s1 := acquireOf s a.ord
    (List.range (1024 / w)).any act = true → s.inTcm va size → va % size = 0 → s.intact va size →
    newestOverlap s.me (s.tcmPlace va).pa size = none →
    ∃ u r, execVldb a s = .next u ∧ VectorStep s1 u a.x r 0 ∧
      ∀ k, k < 1024 / w → elem w r k = if act k then leNat (homeBytes s1 0 (s.tcmPlace va).pa size) else elem w (s.v a.x) k := by
  intro w size act va s1 h hin ha hi hno
  have hs : 0 < size := bytes_pos (a.fmt.getD s.me.vt)
  have hc : checkElems size ⟨0, false, true, !s.me.pl⟩ s [(0, va)] = .ok (s, [⟨0, va, s.tcmPlace va⟩]) :=
    checkElems_tcm hs _ (List.forall_mem_singleton.mpr ⟨hin, ha, fun _ => hi⟩)
  have hr := readPlace_tcm hin hs (t := s1) (by rw [acquireOf_ctx]; exact hno) (policyOf a.ord)
  have := execVldb_now hx hy hz ht h hc (isRemote_tcmPlace hin hs) hr length_homeBytes
  rwa [acquireOf_v] at this

end

end Sys2Proof.Machine

namespace Sys2Proof
open Machine

/-- Settles O28: VLD, VLDS and VGATH are one load with three ways to name its elements (`runVLoad_loads`); VLDB reads one element and
places it as often as there are active ones. -/
theorem vectorLoads : Obligations.vector_loads := by
  unfold Obligations.vector_loads
  refine ⟨?elements, fun s a hx hy hz ht => ⟨fun h => ?none, fun h => ⟨fun s1 s2 m bs hc ho hr hcur hb => ?now, ?tcm⟩⟩⟩
  case elements =>
    rintro s e (⟨a, rfl | rfl⟩ | ⟨a, rfl⟩)
    · exact fun hx hy hz ht => runVLoad_loads (off := offUnit s a.z) hx hy (checkZ_ok hz) ht
    · exact fun hx hy hz ht => runVLoad_loads (off := offStride s a.z) hx hy (checkZ_ok hz) ht
    · exact fun hx hy hz ht => runVLoad_loads (off := offIndex s a.z) hx hy (checkVZ_ok hz) ht
  case none => exact ⟨_, execVldb_none hx hy hz ht (List.filter_eq_nil_iff.mpr (List.any_eq_false.mp h)), advance_nextStep _⟩
  case now => exact execVldb_now hx hy hz ht h hc ho hr hb
  case tcm => exact execVldb_tcm hx hy hz ht h

end Sys2Proof

end

-- Vector stores (O29)
section
/-! A vector store checks its elements and issues one store for each in increasing number (R141, R309); a release of it is made first
(R142, R312). What issuing does is said for a list of stores (`StoresIssued`), which join the queue one after another. -/

set_option Elab.async false

namespace Sys2Proof.Machine

/-! Room (R309, R310). -/

/-- Neither the queue nor the forwarding table is full with `n` more stores of the context. -/
def hasRoom (s : State) (c n : Nat) : Prop := (s.ctx c).storeQ.length + n ≤ 32 ∧ forwardCount s (ctxStall c) + n ≤ 16

theorem roomFor_of_hasRoom {s : State} {c n : Nat} (h : hasRoom s c n) (near : Bool) : roomFor s c n near = .ok s := by
  obtain ⟨hq, hf⟩ := h
  have hb : (near && decide (16 < forwardCount s (ctxStall c) + n)) = false := by
    rw [decide_eq_false (Nat.not_lt.mpr hf), Bool.and_false]
  rw [roomFor, if_neg (Nat.not_lt.mpr hq)]
  exact if_neg (Bool.eq_false_iff.mp hb)

theorem makeRoom_of_hasRoom {s : State} {c n : Nat} (h : hasRoom s c (n + 1)) (p : Place) : makeRoom s c p = s := by
  obtain ⟨hq, hf⟩ := h
  have hb : (isNearStorage p && decide (16 ≤ forwardCount s (ctxStall c))) = false := by
    rw [decide_eq_false (by omega), Bool.and_false]
  simp only [makeRoom, if_neg (show ¬32 ≤ (s.ctx c).storeQ.length by omega), hb, Bool.false_eq_true, if_false]

/-- One store more in the queue of a context is at most one more in the forwarding table of its stall. -/
theorem forwardCount_push {s t : State} {c : Nat} {q : QStore} (ho : ∀ d, d ≠ c → t.ctx d = s.ctx d)
    (hq : (t.ctx c).storeQ = (s.ctx c).storeQ ++ [q]) : forwardCount t (ctxStall c) ≤ forwardCount s (ctxStall c) + 1 := by
  let f (u : State) (i : Nat) : Nat := (u.ctx (64 * ctxStall c + i)).storeQ.countP (fun q => isNearStorage q.place)
  have hle (i : Nat) : f t i ≤ f s i + if i = c % 64 then 1 else 0 := by
    by_cases hc : 64 * ctxStall c + i = c
    · have hi : i = c % 64 := by
        unfold ctxStall at hc
        omega
      simp only [f, hc, hq, List.countP_append, if_pos hi]
      exact Nat.add_le_add_left (List.countP_le_length (l := [q])) _
    · simp only [f, ho _ hc]
      exact Nat.le_add_right ..
  have hone : ∑ i ∈ Finset.range 64, (if i = c % 64 then 1 else 0) = 1 := by
    rw [Finset.sum_ite_eq', if_pos (Finset.mem_range.mpr (Nat.mod_lt c (by decide)))]
  calc forwardCount t (ctxStall c) = ∑ i ∈ Finset.range 64, f t i := rfl
    _ ≤ ∑ i ∈ Finset.range 64, (f s i + if i = c % 64 then 1 else 0) := Finset.sum_le_sum fun i _ => hle i
    _ = forwardCount s (ctxStall c) + 1 := by rw [Finset.sum_add_distrib, hone]; rfl

/-! Stores that issue. -/

/-- Stores of context `c` have joined its queue: their TBM bits are set and each is due; nothing else changed (R294, R309). -/
structure StoresIssued (s t : State) (c : Nat) (qs : List QStore) : Prop where
  rest : t = { s with ctxs := t.ctxs, due := s.due ++ qs.map (fun _ => .storePerform c) }
  others : ∀ d, d ≠ c → t.ctx d = s.ctx d
  own : t.ctx c = { s.ctx c with
    storeQ := (s.ctx c).storeQ ++ qs, tbm := qs.foldl (fun b q => b ||| tbmBit c q.place) (s.ctx c).tbm }

theorem StoresIssued.nil (s : State) (c : Nat) : StoresIssued s s c [] where
  rest := by simp
  others := fun _ _ => rfl
  own := by simp

theorem pushStore_issued {s : State} {c n : Nat} (h : hasRoom s c (n + 1)) (q : QStore) : StoresIssued s (pushStore s c q) c [q] := by
  rw [pushStore, makeRoom_of_hasRoom h]
  refine ⟨rfl, fun d hd => ?_, ?_⟩
  · rw [State.ctx_cause, State.ctx_updCtx_ne s _ hd]
  · rw [State.ctx_cause, State.ctx_updCtx_same]
    rfl

theorem StoresIssued.append {s t u : State} {c : Nat} {qs rs : List QStore} (h : StoresIssued s t c qs) (h' : StoresIssued t u c rs) :
    StoresIssued s u c (qs ++ rs) where
  rest := by
    rw [h'.rest, h.rest, List.map_append, List.append_assoc]
  others := fun d hd => (h'.others d hd).trans (h.others d hd)
  own := by
    rw [h'.own, h.own, List.foldl_append, List.append_assoc]

/-- Stores for which there is room join the queue one after another. -/
theorem foldl_pushStore_issued {c : Nat} (qs : List QStore) {s : State} (h : hasRoom s c qs.length) :
    StoresIssued s (qs.foldl (fun u q => pushStore u c q) s) c qs := by
  induction qs generalizing s with
  | nil => exact .nil s c
  | cons q r ih =>
    have hq := pushStore_issued h q
    refine hq.append (ih ?_)
    obtain ⟨hl, hf⟩ := h
    have hc := congrArg Ctx.storeQ hq.own
    have hf' := forwardCount_push hq.others hc
    rw [List.length_cons] at hl hf
    refine ⟨?_, by omega⟩
    rw [hc, List.length_append, List.length_singleton]
    omega

/-- The stores that a vector store of register value `v` issues for its elements. -/
def elemEntry (v : VWord) (size : Nat) (q : Option OrdQ) (rel : Bool) (m : ElemAt) : QStore :=
  ⟨m.va, m.place, leBytes size (elem (8 * size) v m.i), rel, (q.map (·.scope)).getD .th, policyOf q, none⟩

/-- The step of a vector store that issues `qs`: as `StoresIssued`, and the context goes on. -/
theorem StoresIssued.advance {s t : State} {qs : List QStore} (h : StoresIssued s t s.cur qs) :
    t.advance = { s with ctxs := t.advance.ctxs, due := s.due ++ qs.map (fun _ => .storePerform s.cur) } ∧
    (∀ key a, homeByte t.advance key a = homeByte s key a) ∧ (∀ c, c ≠ s.cur → t.advance.ctx c = s.ctx c) ∧
    t.advance.me = { s.me with
      storeQ := s.me.storeQ ++ qs, tbm := qs.foldl (fun b q => b ||| tbmBit s.cur q.place) s.me.tbm,
      pc := s.me.nextPc, walked := [], missed := none, saved := none } := by
  obtain ⟨hrest, hothers, hown⟩ := h
  have hcur : t.cur = s.cur := by rw [hrest]
  have hwith (l : List (Nat × Ctx)) : { t with ctxs := l } =
      { s with ctxs := l, due := s.due ++ qs.map (fun _ => .storePerform s.cur) } := by rw [hrest]
  have hadv : t.advance = { s with ctxs := t.advance.ctxs, due := s.due ++ qs.map (fun _ => .storePerform s.cur) } := hwith _
  refine ⟨hadv, fun key a => ?_, fun c hc => ?_, ?_⟩
  · rw [hadv]
    rfl
  · exact (State.ctx_upd_ne t _ (hcur ▸ hc)).trans (hothers c hc)
  · have hme : t.me = _ := (congrArg t.ctx hcur).trans hown
    exact (State.me_upd t _).trans (by rw [hme]; rfl)

/-! Elements that issue. -/

section
variable {s : State} {v : VWord} {size : Nat} {es : List ElemAt} {q : Option OrdQ}
  (ho : es.all (fun m => !isRemote s.cur m.place) = true)
include ho

/-- Without a release the elements issue where there is room (R141). -/
theorem issueElems_plain (hq : releaseOf q = none) (h : hasRoom s s.cur es.length) :
    issueElems s v size es q = .ok ((es.map (elemEntry v size q false)).foldl (fun u e => pushStore u s.cur e) s).advance := by
  rw [issueElems, List.filter_eq_self.mpr (List.all_eq_true.mp ho), remoteBlocks_of_own ho, List.foldl_map]
  simp only [hq, roomFor_of_hasRoom h]
  rfl

/-- A release at `.ac` or narrower lets them join the queue behind the stores it orders (R312). -/
theorem issueElems_narrow {sc : Scope} (hq : releaseOf q = some sc) (hsc : Scope.le .ha sc = false) (h : hasRoom s s.cur es.length) :
    issueElems s v size es q =
      .ok ((es.map (elemEntry v size q true)).foldl (fun u e => pushStore u s.cur e) (narrowRelease s s.cur sc)).advance := by
  rw [issueElems, List.filter_eq_self.mpr (List.all_eq_true.mp ho), remoteBlocks_of_own ho, List.foldl_map]
  simp only [hq, hsc, Bool.false_eq_true, if_false, roomFor_of_hasRoom h]
  rfl

end

theorem storeQ_narrowRelease (s : State) (c d : Nat) (sc : Scope) : ((narrowRelease s c sc).ctx d).storeQ = (s.ctx d).storeQ := by
  rw [narrowRelease, State.ctx_updCtx]
  split
  · subst d
    rfl
  · rfl

theorem hasRoom_narrowRelease {s : State} {c n : Nat} (sc : Scope) (h : hasRoom s c n) : hasRoom (narrowRelease s c sc) c n := by
  simp only [hasRoom, forwardCount, storeQ_narrowRelease]
  exact h

theorem settled_of_drained {s : State} {c : Nat} (h : storeHeldBy (drain s c) c = none) : settled s c = .ok (drain s c) := by
  rw [settled, Option.map_eq_none_iff.mp h]

/-- A release that can be made at once is made, and the rest of the instruction follows (R312). -/
theorem withRelease_of_canRelease {s : State} {sc : Scope} {eng : Bool} {k : State → Except Stop State}
    (h : s.canRelease true (some sc)) : withRelease s sc eng k = k (s.released eng (some sc)) := by
  obtain ⟨hd, hsy⟩ := h sc rfl
  rw [withRelease, withReleaseOf, settled_of_drained hd, Except.ok_bind]
  rw [if_neg fun hs => hs.2 (hsy hs.1).1, if_neg, if_neg]
  · rfl
  · intro hb
    simp only [Bool.true_and, Bool.and_eq_true, beq_iff_eq, bne_iff_ne] at hb
    obtain ⟨-, -, hl⟩ := hsy hb.1
    exact hb.2 (hl rfl)
  · rintro ⟨hs, hb⟩
    obtain ⟨-, hh, -⟩ := hsy hs
    exact Bool.false_ne_true (hh.symm.trans hb)

/-- With a release at `.ha` or wider the release is made first, and each element is performed through in turn (R142, R312). -/
theorem issueElems_wide {s : State} {v : VWord} {size : Nat} {es : List ElemAt} {q : Option OrdQ} {sc : Scope}
    (ho : es.all (fun m => !isRemote s.cur m.place) = true) (hq : releaseOf q = some sc) (hsc : Scope.le .ha sc = true)
    (h : s.canRelease true (some sc)) :
    issueElems s v size es q = .ok (drain (es.foldl (fun t m => (performThrough t s.cur (elemEntry v size q true m)).upd (fun v =>
      { v with tbm := v.tbm ||| tbmBit s.cur m.place })) (s.released (engineOf q) (some sc))) s.cur).advance := by
  rw [issueElems, List.filter_eq_self.mpr (List.all_eq_true.mp ho), remoteBlocks_of_own ho]
  simp only [hq, hsc, if_true, withRelease_of_canRelease h]
  rfl

/-! Stores with any way to name elements. -/

section
variable {s : State} {x : Idx} {y : GReg} {z : Except Stop Unit} {imm : Word} {ord : Option OrdQ} {f : Option Fmt} {q : Option Prd}
  {off : Nat → Nat → Word} (hx : s.readsV x = true) (hy : s.reads y = true) (hz : z = .ok ()) (ht : f.getD s.me.vt ≠ .fa56)
include hx hy hz ht

theorem runVStore_eq : let size := (f.getD s.me.vt).width / 8
    runVStore x y z imm ord f q off s =
      finish s (checkElems size ⟨1, true, true, !s.me.pl⟩ s (activeAddrs s f q fun k => (s.g y + imm + off size k).toNat) >>= fun p =>
        issueElems p.1 (s.v x) size p.2 ord) := by
  intro size
  unfold runVStore
  rw [vmemCheck_ok hx hy hz ht, ← elemAddrs_eq]
  rfl

/-- What a vector store does once its elements have passed their checks: the stores it issues, of the bytes of its elements. -/
theorem runVStore_issues :
    let w := (f.getD s.me.vt).width
    let size := w / 8
    let act := isActive s q w (min s.me.vl.toNat (1024 / w))
    let va (k : Nat) : Nat := (s.g y + imm + off size k).toNat
    let entry (rel : Bool) (m : ElemAt) : QStore :=
      ⟨m.va, m.place, leBytes size (elem w (s.v x) m.i), rel, (ord.map (·.scope)).getD .th, policyOf ord, none⟩
    let issued (s1 u : State) (rel : Bool) (es : List ElemAt) : Prop :=
      u = { s1 with ctxs := u.ctxs, due := s1.due ++ es.map (fun _ => .storePerform s1.cur) } ∧
      (∀ key a, homeByte u key a = homeByte s1 key a) ∧ (∀ c, c ≠ s1.cur → u.ctx c = s1.ctx c) ∧
      u.me = { s1.me with
        storeQ := s1.me.storeQ ++ es.map (entry rel), tbm := es.foldl (fun b m => b ||| tbmBit s1.cur m.place) s1.me.tbm,
        pc := s1.me.nextPc, walked := [], missed := none, saved := none }
    let room (s1 : State) (n : Nat) : Prop := s1.me.storeQ.length + n ≤ 32 ∧ forwardCount s1 (ctxStall s1.cur) + n ≤ 16
    (∀ (s1 : State) (es : List ElemAt),
      checkElems size ⟨1, true, true, !s.me.pl⟩ s (((List.range (1024 / w)).filter act).map (fun k => (k, va k))) = .ok (s1, es) →
      es.all (fun m => !isRemote s1.cur m.place) = true → s1.cur = s.cur →
      let c := s1.cur
      let r := s1.released (engineOf ord) (releaseOf ord)
      (releaseOf ord = none → room s1 es.length → ∃ u, runVStore x y z imm ord f q off s = .next u ∧ issued s1 u false es) ∧
      (∀ sc, releaseOf ord = some sc →
        (Scope.le .ha sc = false → room s1 es.length →
          ∃ u, runVStore x y z imm ord f q off s = .next u ∧ issued (narrowRelease s1 c sc) u true es) ∧
        (Scope.le .ha sc = true → s1.canRelease true (some sc) → r.cur = c →
          runVStore x y z imm ord f q off s = .next (drain (es.foldl (fun t m =>
            (performThrough t c (entry true m)).upd (fun v => { v with tbm := v.tbm ||| tbmBit c m.place })) r) c).advance))) ∧
    ((∀ k, k < 1024 / w → act k = true → s.inTcm (va k) size ∧ va k % size = 0) → releaseOf ord = none →
      room s ((List.range (1024 / w)).countP act) →
      ∃ u, runVStore x y z imm ord f q off s = .next u ∧
        issued s u false (((List.range (1024 / w)).filter act).map (fun k => ⟨k, va k, s.tcmPlace (va k)⟩))) := by
  intro w size act va entry issued room
  have hentry : entry = elemEntry (s.v x) size ord := by
    funext rel m
    rw [elemEntry, width_eq_bytes]
  have hissued {t u : State} {rel : Bool} {es : List ElemAt} (h : StoresIssued t u t.cur (es.map (entry rel))) : issued t u.advance rel es := by
    have := h.advance
    rwa [List.map_map, List.foldl_map] at this
  have hrun {s1 : State} {es : List ElemAt} (hc : checkElems size ⟨1, true, true, !s.me.pl⟩ s (activeAddrs s f q va) = .ok (s1, es)) :
      runVStore x y z imm ord f q off s = finish s (issueElems s1 (s.v x) size es ord) := by
    rw [runVStore_eq hx hy hz ht, hc, Except.ok_bind]
  have hplain {s1 : State} {es : List ElemAt} (hc : checkElems size ⟨1, true, true, !s.me.pl⟩ s (activeAddrs s f q va) = .ok (s1, es))
      (ho : es.all (fun m => !isRemote s1.cur m.place) = true) (hq : releaseOf ord = none) (hroom : room s1 es.length) :
      ∃ u, runVStore x y z imm ord f q off s = .next u ∧ issued s1 u false es := by
    refine ⟨_, ?_, hissued (foldl_pushStore_issued _ (by rwa [List.length_map]))⟩
    rw [hrun hc, issueElems_plain ho hq hroom, hentry]
    rfl
  refine ⟨fun s1 es hc ho _ => ⟨hplain hc ho, fun sc hq => ⟨fun hsc hroom => ?_, fun hsc hrel _ => ?_⟩⟩, fun h hq hroom => ?_⟩
  · have hroom' : hasRoom (narrowRelease s1 s1.cur sc) s1.cur (es.map (entry true)).length := by
      rw [List.length_map]
      exact hasRoom_narrowRelease sc hroom
    refine ⟨_, ?_, hissued (foldl_pushStore_issued _ hroom')⟩
    rw [hrun hc, issueElems_narrow ho hq hsc hroom, hentry]
    rfl
  · rw [hrun hc, issueElems_wide ho hq hsc hrel, hentry, hq]
    rfl
  · have hl (k : Nat) (hk : k ∈ activeElems s f q) : s.inTcm (va k) size ∧ va k % size = 0 :=
      h k (mem_activeElems.mp hk).1 (mem_activeElems.mp hk).2
    have hs : 0 < size := bytes_pos (f.getD s.me.vt)
    refine hplain ((checkElems_tcm hs _ fun p hp => ?_).trans (by rw [activeAddrs, List.map_map]; rfl)) ?_ hq ?_
    · obtain ⟨k, hk, rfl⟩ := List.mem_map.mp hp
      obtain ⟨hin, ha⟩ := hl k hk
      exact ⟨hin, ha, nofun⟩
    · refine List.all_eq_true.mpr fun m hm => ?_
      obtain ⟨k, hk, rfl⟩ := List.mem_map.mp hm
      exact Bool.not_eq_true' _ ▸ isRemote_tcmPlace (hl k hk).1 hs
    · rw [List.length_map, ← List.countP_eq_length_filter]
      exact hroom

end

end Sys2Proof.Machine

namespace Sys2Proof
open Machine

/-- Settles O29: VST, VSTS and VSCAT are one store with three ways to name its elements (`runVStore_issues`). -/
theorem vectorStores : Obligations.vector_stores := by
  unfold Obligations.vector_stores
  rintro s e (⟨a, rfl | rfl⟩ | ⟨a, rfl⟩)
  · exact fun hx hy hz ht => runVStore_issues (off := offUnit s a.z) hx hy (checkZ_ok hz) ht
  · exact fun hx hy hz ht => runVStore_issues (off := offStride s a.z) hx hy (checkZ_ok hz) ht
  · exact fun hx hy hz ht => runVStore_issues (off := offIndex s a.z) hx hy (checkVZ_ok hz) ht

end Sys2Proof

end

-- Accumulator banks
section
/-! The cells of a bank after it is written (R58, R158), and the step of an instruction that changes its own stall. -/

set_option Elab.async false

namespace Sys2Proof.Machine

/-! Cells. -/

theorem size_foldl_set! {α β : Type} (g : β → Nat) (h : β → α) (l : List β) (a : Array α) :
    (l.foldl (fun a e => a.set! (g e) (h e)) a).size = a.size := by
  induction l generalizing a with
  | nil => rfl
  | cons e l ih => rw [List.foldl_cons, ih, Array.set!_eq_setIfInBounds, Array.size_setIfInBounds]

theorem size_bankCells (k : Stall) (p b : Nat) : (bankCells k p b).size = 4096 := by
  rw [bankCells, size_foldl_set!, Array.size_replicate]

theorem getD_set! {α : Type} (a : Array α) (j i : Nat) (x d : α) :
    (a.set! j x).getD i d = if j = i ∧ i < a.size then x else a.getD i d := by
  simp only [Array.set!_eq_setIfInBounds, Array.getD_eq_getD_getElem?, Array.getElem?_setIfInBounds]
  by_cases hj : j = i
  · subst hj
    by_cases h : j < a.size <;> simp [h]
  · simp [hj]

/-- Entries listed at `b` and up for the keys of a range: each cell below the count has its value, also where that is 0 and not listed. -/
theorem getD_foldl_filterMap {b m i : Nat} (f : Nat → BitVec 56) (hi : i < m) (n : Nat) :
    (((List.range n).filterMap (fun i => if f i = 0 then none else some (b + i, f i))).foldl
      (fun a e => a.set! (e.1 - b) e.2) (Array.replicate m 0)).getD i 0 = if i < n then f i else 0 := by
  induction n with
  | zero => simp [hi]
  | succ n ih =>
    rw [List.range_succ, List.filterMap_append, List.foldl_append]
    by_cases h0 : f n = 0
    · simp only [List.filterMap_cons, h0, if_true, List.filterMap_nil, List.foldl_nil, ih]
      grind
    · simp only [List.filterMap_cons, h0, if_false, List.filterMap_nil, List.foldl_cons, List.foldl_nil, Nat.add_sub_cancel_left,
        getD_set!, size_foldl_set!, Array.size_replicate, ih, hi, and_true]
      grind

/-- The entries of a whole bank lie between those of the banks before it and behind it. -/
theorem filter_setBank {k : Stall} {p b lo : Nat} {f : Nat → BitVec 56}
    (h : lo = bankBase p b ∨ lo + 4096 ≤ bankBase p b ∨ bankBase p b + 4096 ≤ lo) :
    (setBank k p b f).acc.filter (fun e => decide (lo ≤ e.1) && decide (e.1 < lo + 4096)) =
      if lo = bankBase p b then (List.range 4096).filterMap (fun i => if f i = 0 then none else some (bankBase p b + i, f i))
      else k.acc.filter (fun e => decide (lo ≤ e.1) && decide (e.1 < lo + 4096)) := by
  have hmid : ∀ e ∈ (List.range 4096).filterMap (fun i => if f i = 0 then none else some (bankBase p b + i, f i)),
      bankBase p b ≤ e.1 ∧ e.1 < bankBase p b + 4096 := by
    intro e he
    obtain ⟨i, hi, he⟩ := List.mem_filterMap.mp he
    have := List.mem_range.mp hi
    split at he
    · cases he
    · cases he
      simpa using this
  simp only [setBank, List.filter_append, List.filter_filter]
  generalize (List.range 4096).filterMap _ = mid at *
  generalize bankBase p b = base at *
  have hin {q : Nat × BitVec 56 → Bool} {l : List (Nat × BitVec 56)} (hq : ∀ e ∈ l, q e = true) : l.filter q = l :=
    List.filter_eq_self.mpr hq
  have hout {q : Nat × BitVec 56 → Bool} {l : List (Nat × BitVec 56)} (hq : ∀ e ∈ l, q e = false) : l.filter q = [] :=
    List.filter_eq_nil_iff.mpr fun e he => Bool.eq_false_iff.mp (hq e he)
  rcases h with rfl | h | h
  · rw [if_pos rfl, hout (by grind), hin (by grind), hout (by grind), List.nil_append, List.append_nil]
  · rw [if_neg (by omega), hout (l := mid) (by grind), hout (q := fun e => _ && decide (base + 4096 ≤ e.1)) (by grind),
      List.append_nil, List.append_nil]
    exact List.filter_congr (by grind)
  · rw [if_neg (by omega), hout (l := mid) (by grind), hout (q := fun e => _ && decide (e.1 < base)) (by grind),
      List.nil_append, List.nil_append]
    exact List.filter_congr (by grind)

/-- A cell of a bank that has been written whole. -/
theorem getD_bankCells_setBank (k : Stall) (p b : Nat) (f : Nat → BitVec 56) {i : Nat} (hi : i < 4096) :
    (bankCells (setBank k p b f) p b).getD i 0 = f i := by
  simp only [bankCells]
  rw [filter_setBank (.inl rfl), if_pos rfl, getD_foldl_filterMap f hi, if_pos hi]

/-- The other banks keep their cells. -/
theorem bankCells_setBank_ne (k : Stall) {p b q c : Nat} (f : Nat → BitVec 56) (hb : b < 2) (hc : c < 2) (h : ¬(q = p ∧ c = b)) :
    bankCells (setBank k p b f) q c = bankCells k q c := by
  simp only [bankCells]
  rw [filter_setBank (by unfold bankBase; omega), if_neg (by unfold bankBase; omega)]

theorem keepsBanks_setBank (k : Stall) (p : Nat) {b : Nat} (f : Nat → BitVec 56) (hb : b < 2) :
    keepsBanks k (setBank k p b f) [(p, b)] := by
  intro q c i hq hc _
  rw [bankCells_setBank_ne k f hb hc (by simpa using hq)]

/-- Both banks of a pair, written one after the other. -/
theorem keepsBanks_setBanks (k : Stall) (p : Nat) (f g : Nat → BitVec 56) :
    keepsBanks k (setBank (setBank k p 0 f) p 1 g) [(p, 0), (p, 1)] := by
  intro q c i hq hc _
  simp only [List.contains_cons, Bool.or_eq_false_iff, beq_eq_false_iff_ne, ne_eq, Prod.mk.injEq] at hq
  obtain ⟨h0, h1, -⟩ := hq
  rw [bankCells_setBank_ne _ g (by decide) hc h1, bankCells_setBank_ne k f (by decide) hc h0]

theorem getD_bankCells_setBanks (k : Stall) (p : Nat) (f g : Nat → BitVec 56) {b i : Nat} (hb : b < 2) (hi : i < 4096) :
    (bankCells (setBank (setBank k p 0 f) p 1 g) p b).getD i 0 = if b = 0 then f i else g i := by
  match b with
  | 0 => rw [bankCells_setBank_ne _ g (by decide) (by decide) (by simp), getD_bankCells_setBank k p 0 f hi, if_pos rfl]
  | 1 => rw [getD_bankCells_setBank _ p 1 g hi, if_neg (by decide)]

/-! The own stall. -/

/-- An instruction that has changed its stall, made events due and raised flags, and goes on. -/
theorem advance_stallStep {s t : State} {v : Stall} {es : List Event} {f : FlagSet}
    (hrest : t = { s with ctxs := t.ctxs, stalls := t.stalls, due := s.due ++ es }) (hothers : ∀ c, c ≠ s.cur → t.ctx c = s.ctx c)
    (hown : t.ctx s.cur = { s.me with flags := s.me.flags ||| f }) (hstalls : ∀ j, j ≠ ctxStall s.cur → t.stall j = s.stall j)
    (hstall : t.stall (ctxStall s.cur) = v) : StallStep s t.advance v es f := by
  have hcur : t.cur = s.cur := by rw [hrest]
  have hwith (l : List (Nat × Ctx)) : { t with ctxs := l } = { s with ctxs := l, stalls := t.stalls, due := s.due ++ es } := by rw [hrest]
  have hadv : t.advance = { s with ctxs := t.advance.ctxs, stalls := t.stalls, due := s.due ++ es } := hwith _
  refine ⟨hadv, fun key a => ?_, fun c hc => ?_, ?_, hstalls, hstall⟩
  · rw [hadv]
    rfl
  · exact (State.ctx_upd_ne t _ (hcur ▸ hc)).trans (hothers c hc)
  · exact (State.me_upd t _).trans (by rw [State.me, hcur, hown]; rfl)

theorem flags_or_zero (f : FlagSet) : f ||| 0 = f := BitVec.or_zero

theorem updMyStall_stallStep (s : State) (g : Stall → Stall) : StallStep s (s.updMyStall g).advance (g s.myStall) [] 0 :=
  advance_stallStep (by rw [List.append_nil]; rfl) (fun _ _ => rfl) (by rw [flags_or_zero]; rfl)
    (fun j hj => (State.stall_updStall ..).trans (if_neg hj)) (State.stall_updStall_same ..)

theorem updMyStall_raise_stallStep (s : State) (g : Stall → Stall) (f : FlagSet) :
    StallStep s ((s.updMyStall g).raise s.cur f).advance (g s.myStall) [] f :=
  advance_stallStep (by rw [List.append_nil]; rfl) (fun _ hc => State.ctx_updCtx_ne (s.updMyStall g) _ hc)
    (State.ctx_updCtx_same (s.updMyStall g) s.cur _) (fun j hj => (State.stall_updStall s (ctxStall s.cur) j g).trans (if_neg hj))
    (State.stall_updStall_same s (ctxStall s.cur) g)

theorem updMyStall_cause_stallStep (s : State) (g : Stall → Stall) (e : Event) :
    StallStep s ((s.updMyStall g).cause e).advance (g s.myStall) [e] 0 :=
  advance_stallStep rfl (fun _ _ => rfl) (by rw [flags_or_zero]; rfl)
    (fun j hj => (State.stall_updStall s (ctxStall s.cur) j g).trans (if_neg hj)) (State.stall_updStall_same s (ctxStall s.cur) g)

end Sys2Proof.Machine
end

-- Accumulator pairs (O32)
section
/-! AACQ, AREL, AZERO, ASCALE and PAIR_CLEAR_DONE (R158 to R160, Table 06-5). -/

set_option Elab.async false

namespace Sys2Proof.Machine

section
variable {s : State} {p : Nat}

theorem checkA_ok {k : Nat} {i : Idx} (hp : s.held s.cur = some p) (hi : i.val < 2) : s.checkA k i = .ok p := by
  rw [State.checkA, hp]
  exact if_pos hi

theorem waitBanks_ok {bs : List (Nat × Nat)} (h : banksBusy s (ctxStall s.cur) bs = false) : waitBanks s bs = .ok () := by
  rw [waitBanks, h]
  rfl

/-! AACQ (R158). -/

section
variable {a : GOne} (hx : s.reads a.x = true)
include hx

theorem execAacq_held (hp : s.held s.cur = some p) : execAacq a s = .next (s.complete a.x (w64 p) 0) := by
  rw [execAacq, checkG_ok hx, Except.ok_bind]
  simp only [hp]
  rfl

theorem execAacq_spent (hp : s.held s.cur = none) (hb : pairBudgetSpent s s.cur = true) :
    execAacq a s = .next (s.complete a.x (BitVec.ofInt 64 (-2)) 0) := by
  rw [execAacq, checkG_ok hx, Except.ok_bind]
  simp only [hp, hb]
  rfl

theorem execAacq_free (hp : s.held s.cur = none) (hb : pairBudgetSpent s s.cur = false) : execAacq a s = .next (
    match freePairOf s.myStall with
    | some p => (s.updStall (ctxStall s.cur) (fun v => v.setPair p { Pair.reset with holder := some s.cur })).complete a.x (w64 p) 0
    | none => s.complete a.x (BitVec.ofInt 64 (-1)) 0) := by
  rw [execAacq, checkG_ok hx, Except.ok_bind]
  simp only [hp, hb]
  change finish s (match freePairOf s.myStall with | some _ => _ | none => _) = _
  cases freePairOf s.myStall <;> rfl

end

theorem freePairOf_eq_some {k : Stall} (hp : p < 4) (hh : (k.pair p).holder = none) (hc : (k.pair p).clearing = false)
    (hl : ∀ q, q < p → (k.pair q).holder ≠ none ∨ (k.pair q).clearing = true) : freePairOf k = some p := by
  refine (List.find?_range_eq_some).mpr ⟨by rw [hh, hc]; rfl, List.mem_range.mpr hp, fun q hq => ?_⟩
  rcases hl q hq with h | h
  · cases hk : (k.pair q).holder with
    | none => exact absurd hk h
    | some c => rfl
  · simp [h]

theorem freePairOf_eq_none {k : Stall} (h : ∀ p, p < 4 → (k.pair p).holder ≠ none ∨ (k.pair p).clearing = true) :
    freePairOf k = none := by
  refine List.find?_eq_none.mpr fun q hq => ?_
  rcases h q (List.mem_range.mp hq) with h | h
  · cases hk : (k.pair q).holder with
    | none => exact absurd hk h
    | some c => simp
  · simp [h]

/-! AREL (R159). -/

theorem execArel_none (hp : s.held s.cur = none) : execArel s = .next s.advance := by
  rw [execArel, hp]
  rfl

theorem execArel_held (hp : s.held s.cur = some p) (hb : banksBusy s (ctxStall s.cur) [(p, 0), (p, 1)] = false) :
    execArel s = .next (freePair s (ctxStall s.cur) p).advance := by
  rw [execArel, hp]
  simp only [waitBanks_ok hb]
  rfl

/-- The stall with a pair freed: both its banks zero, the pair in the state of R158 but for its clearing. -/
def clearedStall (k : Stall) (p : Nat) : Stall :=
  (setBank (setBank k p 0 (fun _ => 0)) p 1 (fun _ => 0)).setPair p { Pair.reset with clearing := true }

theorem freePair_stallStep (s : State) (p : Nat) :
    StallStep s (freePair s (ctxStall s.cur) p).advance (clearedStall s.myStall p) [.pairClearDone (ctxStall s.cur) p] 0 :=
  updMyStall_cause_stallStep s (clearedStall · p) _

/-! AZERO and ASCALE (Table 06-5). -/

/-- The stall with a bank zeroed in a mode, its scale 1.0. -/
def zeroedStall (k : Stall) (p bank : Nat) (q56 : Bool) : Stall :=
  (setBank k p bank (fun _ => 0)).setPair p (((k.pair p).setMode bank q56).setScale bank 0x3F800000)

theorem execAzero_next {a : AZero} (hp : s.held s.cur = some p) (hx : a.x.val < 2)
    (hb : banksBusy s (ctxStall s.cur) [(p, a.x.val)] = false) :
    execAzero a s = .next (s.updMyStall (fun k => zeroedStall k p a.x.val a.q56)).advance := by
  rw [execAzero, checkA_ok hp hx, Except.ok_bind, waitBanks_ok hb]
  rfl

theorem execAscale_next {a : IG} (hp : s.held s.cur = some p) (hx : a.x.val < 2) (hy : s.reads a.y = true)
    (hb : banksBusy s (ctxStall s.cur) [(p, a.x.val)] = false) :
    execAscale a s =
      .next (s.updMyStall (fun k => k.setPair p ((k.pair p).setScale a.x.val (BitVec.truncate 32 (s.g a.y))))).advance := by
  rw [execAscale, checkA_ok hp hx, Except.ok_bind, checkG_ok hy, Except.ok_bind, waitBanks_ok hb]
  rfl

end

/-! PAIR_CLEAR_DONE (R159, R237). -/

theorem foldl_cause_eq (f : Nat → Event) (l : List Nat) (s : State) :
    l.foldl (fun t c => t.cause (f c)) s = { s with due := s.due ++ l.map f } := by
  induction l generalizing s with
  | nil => simp
  | cons c l ih => rw [List.foldl_cons, ih, State.cause, List.append_assoc, List.map_cons, List.singleton_append]

/-- A key that a table lists is listed with the value that the table holds for it. -/
theorem Store.mem_of_key {α : Type} {m : List (Nat × α)} {n : Nat} (d : α) (h : n ∈ m.map (·.1)) : (n, Store.get d m n) ∈ m := by
  induction m with
  | nil => cases h
  | cons e r ih =>
    obtain ⟨k, v⟩ := e
    rw [Store.get]
    split
    · subst n
      exact List.mem_cons_self
    · rename_i hn
      exact List.mem_cons_of_mem _ (ih ((List.mem_cons.mp h).resolve_left hn))

/-- The stall with the clearing of a pair done. -/
def grantable (k : Stall) (p : Nat) : Stall := k.setPair p { k.pair p with clearing := false }

theorem pair_setPair (k : Stall) (p : Nat) (v : Pair) : (k.setPair p v).pair p = v := Store.get_put_same ..

theorem execPairClearDone_next (j p : Nat) (s : State) : execPairClearDone j p s = .next { s.updStall j (grantable · p) with
    due := s.due ++ ((s.ctxs.filter (fun e => ctxStall e.1 == j && e.2.waitsForPair)).map (·.1)).map .resumeContinuation } :=
  congrArg Host.Outcome.next (foldl_cause_eq ..)

end Sys2Proof.Machine

namespace Sys2Proof
open Machine

/-- Settles O32: each instruction completes with the stall that its rule describes; a context that waits for a pair is listed with its
own record, so PAIR_CLEAR_DONE resumes it. -/
theorem accumulatorPairs : Obligations.accumulator_pairs := by
  unfold Obligations.accumulator_pairs
  intro s k
  refine ⟨fun a hx => ⟨fun p hp => ?held, fun hp hb => ?spent, fun hp hb => ⟨fun p h4 hh hc hl => ?free, fun h => ?full⟩⟩,
    fun hp => ?nothing, fun p hp => ⟨fun hb => ?release, fun a hx hb => ?zero, fun a hx hy hb => ?scale⟩, fun j p => ?cleared⟩
  case held => exact ⟨_, execAacq_held hx hp, complete_registerStep ..⟩
  case spent => exact ⟨_, execAacq_spent hx hp hb, complete_registerStep ..⟩
  case free =>
    refine ⟨_, execAacq_free hx hp hb, ?_⟩
    rw [freePairOf_eq_some h4 hh hc hl]
    exact complete_registerStep ..
  case full =>
    refine ⟨_, execAacq_free hx hp hb, ?_⟩
    rw [freePairOf_eq_none h]
    exact complete_registerStep ..
  case nothing => exact ⟨_, execArel_none hp, advance_nextStep s⟩
  case release =>
    refine ⟨_, clearedStall k p, execArel_held hp hb, freePair_stallStep s p, rfl, fun bank i hbank hi => ?_,
      keepsBanks_setBanks k p _ _⟩
    exact (getD_bankCells_setBanks k p _ _ hbank hi).trans (ite_self _)
  case zero =>
    exact ⟨_, zeroedStall k p a.x.val a.q56, execAzero_next hp hx hb, updMyStall_stallStep s _, rfl,
      fun i hi => getD_bankCells_setBank k p _ _ hi, keepsBanks_setBank k p _ hx⟩
  case scale => exact ⟨_, execAscale_next hp hx hy hb, updMyStall_stallStep s _⟩
  case cleared =>
    refine ⟨_, execPairClearDone_next j p s, ?_, rfl, fun c hw hj hc => ?_⟩
    · have hj : ((s.updStall j (grantable · p)).stall j).pair p = { (s.stall j).pair p with clearing := false } := by
        rw [State.stall_updStall_same, grantable, pair_setPair]
      exact congrArg Pair.clearing hj
    · refine List.mem_append_right _ (List.mem_map_of_mem (List.mem_map.mpr ⟨(c, s.ctx c), List.mem_filter.mpr ⟨?_, ?_⟩, rfl⟩))
      · exact Store.mem_of_key _ hc
      · simp [hw, hj]

end Sys2Proof

end

-- Tile registers (O36)
section
/-! TSET, TGET, TADV and TSHAPE (R172): the fields of a descriptor as numbers and as bits, and the steps that write a tile register or a
pair of G registers. -/

set_option Elab.async false

namespace Sys2Proof.Machine

/-! Descriptors. -/

theorem toNat_setHalf_zero (w : Word128) (x : Word) : (setHalf w 0 x).toNat = w.toNat / 2 ^ 64 * 2 ^ 64 + x.toNat := by
  rw [setHalf, if_pos rfl, BitVec.toNat_ofNat]
  omega

theorem toNat_setHalf_one (w : Word128) (x : Word) : (setHalf w 1 x).toNat = w.toNat % 2 ^ 64 + x.toNat * 2 ^ 64 := by
  rw [setHalf, if_neg (by decide), BitVec.toNat_ofNat]
  omega

theorem half128_zero (w : Word128) : half128 w 0 = BitVec.ofNat 64 (w.toNat % 2 ^ 64) := by
  apply BitVec.eq_of_toNat_eq
  simp [half128, w64]

theorem half128_one (w : Word128) : half128 w 1 = BitVec.ofNat 64 (w.toNat / 2 ^ 64) := rfl

theorem toNat_moveBase (w : Word128) (d : Int) :
    (moveBase w d).toNat = w.toNat / 2 ^ 57 * 2 ^ 57 + (((w.toNat % 2 ^ 57 : Nat) : Int) + d % 2 ^ 57).toNat % 2 ^ 57 := by
  rw [moveBase, setBase, BitVec.toNat_ofNat]
  omega

/-- BASE moves modulo 2⁵⁷ and the other fields stay. -/
theorem moveBase_fields (w : Word128) (d : Int) : (moveBase w d).toNat / 2 ^ 57 = w.toNat / 2 ^ 57 ∧
    (((moveBase w d).toNat % 2 ^ 57 : Nat) : Int) = ((w.toNat % 2 ^ 57 : Nat) + d) % 2 ^ 57 := by
  rw [toNat_moveBase]
  omega

/-- Seven bits of a descriptor replaced, bit by bit. -/
theorem getLsbD_setSeven (w : Word128) {lo : Nat} (hlo : lo + 7 ≤ 128) (x i : Nat) (hi : i < 128) :
    (setSeven w lo x).getLsbD i = if lo ≤ i ∧ i < lo + 7 then x.testBit (i - lo) else w.getLsbD i := by
  have hp := Nat.two_pow_pos lo
  have hw : w.toNat = 2 ^ lo * (2 ^ 7 * (w.toNat / 2 ^ lo / 2 ^ 7) + w.toNat / 2 ^ lo % 2 ^ 7) + w.toNat % 2 ^ lo := by
    rw [Nat.div_add_mod, Nat.div_add_mod]
  have hr : w.toNat - w.toNat / 2 ^ lo % 128 * 2 ^ lo + x % 128 * 2 ^ lo =
      2 ^ lo * (2 ^ 7 * (w.toNat / 2 ^ lo / 2 ^ 7) + x % 2 ^ 7) + w.toNat % 2 ^ lo := by
    rw [Nat.mul_add, Nat.mul_comm _ (_ % 2 ^ 7)] at hw ⊢
    norm_num only at hw ⊢
    omega
  rw [setSeven, BitVec.getLsbD_ofNat, hr, BitVec.getLsbD]
  conv_rhs => rw [hw]
  simp only [Nat.testBit_two_pow_mul_add _ (Nat.mod_lt _ hp), Nat.testBit_two_pow_mul_add _ (Nat.mod_lt _ (Nat.two_pow_pos 7)),
    Nat.testBit_mod_two_pow]
  grind

/-! Steps that write a tile register. -/

theorem setTile_tileStep (s : State) (x : Idx) (f : Ctx → Word128) :
    TileStep s (s.upd (fun v => v.setTile x.val (f v))).advance x (f s.me) where
  rest := rfl
  bytes := fun _ _ => rfl
  others := fun c hc => (State.ctx_upd_ne (s.upd _) _ hc).trans (State.ctx_upd_ne s _ hc)
  own := by
    rw [State.advance, State.me_upd, State.me_upd]
    rfl
  file := fun n => by
    rw [State.advance, State.me_upd, State.me_upd]
    exact Ctx.tile_setTile s.me x.val n (f s.me)

/-- The checks of a tile register and of the two sources that the instructions of R172 name. -/
theorem checkTGZ_bind {s : State} {x : Idx} {y : GReg} {z : Option GReg} {k : Unit → Except Stop State} (hx : x.val < 8)
    (hy : s.reads y = true) (hz : s.readsZ z = true) :
    (checkT 0 x >>= fun _ => s.me.checkG 1 y >>= fun _ => s.me.checkZ z >>= k) = k () := by
  rw [checkT_ok hx, checkG_ok hy, checkZ_ok hz]
  rfl

/-! A pair of G registers. -/

/-- Only the main file, and the operand file and `lat` of the running context, differ. -/
structure RegsWritten (s t : State) : Prop where
  rest : t = { s with ctxs := t.ctxs, gfile := t.gfile }
  others : ∀ c, c ≠ s.cur → t.ctx c = s.ctx c
  own : t.ctx s.cur = { s.me with o := (t.ctx s.cur).o, lat := (t.ctx s.cur).lat }

theorem RegsWritten.cur {s t : State} (h : RegsWritten s t) : t.cur = s.cur := by rw [h.rest]

theorem RegsWritten.trans {s t u : State} (h : RegsWritten s t) (h' : RegsWritten t u) : RegsWritten s u where
  rest := by rw [h'.rest, h.rest]
  others := fun c hc => (h'.others c (h.cur ▸ hc)).trans (h.others c hc)
  own := by
    have h2 := h'.own
    rw [State.me, h.cur, h.own] at h2
    exact h2

theorem putG_written (s : State) (x : GReg) (w : Word) : RegsWritten s (s.putG s.cur x w) := by
  have upd (f : Ctx → Ctx) (hf : f s.me = { s.me with o := (f s.me).o, lat := (f s.me).lat }) : RegsWritten s (s.upd f) :=
    ⟨rfl, fun c hc => State.ctx_upd_ne s f hc, by rw [show (s.upd f).ctx s.cur = f s.me from State.me_upd s f]; exact hf⟩
  cases x with
  | o i => exact upd _ rfl
  | lat => exact upd _ rfl
  | g i =>
    rw [State.putG]
    split
    · exact ⟨rfl, fun _ _ => rfl, rfl⟩
    · exact ⟨rfl, fun _ _ => rfl, rfl⟩

theorem putG_operands (s : State) (x : GReg) (w : Word) (n : Nat) :
    Store.get 0 ((s.putG s.cur x w).ctx s.cur).o n = if operandEntry x = some n then w else Store.get 0 s.me.o n := by
  cases x with
  | o i => simp [State.putG, operandEntry, Store.get_set, eq_comm, State.me]
  | lat => simp [State.putG, operandEntry, State.me]
  | g i =>
    rw [State.putG]
    split <;> exact (if_neg nofun).symm

/-- Which entry of the main file a register is does not change with what the registers hold. -/
theorem RegsWritten.windowEntry {s t : State} (h : RegsWritten s t) (x : GReg) : t.windowEntry x = s.windowEntry x := by
  have hb : t.me.gbase = s.me.gbase := by
    rw [State.me, h.cur, h.own]
  cases x with
  | g i => simp only [State.windowEntry, h.cur, gEntry, hb]
  | o i => rfl
  | lat => rfl

/-- The state of an instruction that writes `lo` to X, `hi` to X' and `lo` to `lat`. -/
def State.putPair (s : State) (x x' : GReg) (lo hi : Word) : State :=
  ((s.putG s.cur x lo).putG s.cur x' hi).upd (fun v => { v with lat := lo })

theorem putPair_pairStep (s : State) (x x' : GReg) (lo hi : Word) : PairStep s (s.putPair x x' lo hi).advance x x' lo hi 0 := by
  have h1 := putG_written s x lo
  have h2 := putG_written (s.putG s.cur x lo) x' hi
  have ho := putG_operands (s.putG s.cur x lo) x' hi
  have hg := windowEntry_get (s.putG s.cur x lo) x' hi
  rw [State.me, h1.cur] at ho
  rw [h1.windowEntry] at hg
  rw [h1.cur] at h2 hg
  unfold State.putPair
  generalize (s.putG s.cur x lo).putG s.cur x' hi = t at *
  have h := h1.trans h2
  have hme : (t.upd (fun v => { v with lat := lo })).advance.me = { t.ctx s.cur with
      lat := lo, pc := (t.ctx s.cur).nextPc, walked := [], missed := none, saved := none } := by
    rw [State.advance, State.me_upd, State.me_upd, State.me, h.cur]
    rfl
  have hwith (l : List (Nat × Ctx)) : { t with ctxs := l } = { s with ctxs := l, gfile := t.gfile } := by rw [h.rest]
  have hrest : (t.upd (fun v => { v with lat := lo })).advance = _ := hwith _
  refine ⟨hrest, fun key a => ?_, fun c hc => ?_, ?_, fun n => ?_, fun n => ?_⟩
  · rw [hrest]
    rfl
  · exact (State.ctx_upd_ne (t.upd _) _ (h.cur ▸ hc)).trans ((State.ctx_upd_ne t _ (h.cur ▸ hc)).trans (h.others c hc))
  · rw [hme, h.own, flags_or_zero]
    rfl
  · rw [hme]
    exact (ho n).trans (by rw [putG_operands])
  · exact (hg n).trans (by rw [windowEntry_get])

theorem put_put {α : Type} (m : List (Nat × α)) (n : Nat) (v w : α) : Store.put (Store.put m n v) n w = Store.put m n w := by
  induction m with
  | nil => simp [Store.put]
  | cons e r ih =>
    obtain ⟨k, x⟩ := e
    rcases Nat.lt_trichotomy n k with h | h | h
    · simp [Store.put, h]
    · simp [Store.put, h]
    · simp [Store.put, Nat.lt_asymm h, (Nat.ne_of_lt h).symm, ih]

/-- Raising no flag changes nothing once the record is listed. -/
theorem raise_zero (s : State) (c : Nat) (f : Ctx → Ctx) : (s.updCtx c f).raise c 0 = s.updCtx c f := by
  rw [State.raise, State.updCtx, State.ctx_updCtx_same, flags_or_zero]
  simp only [State.updCtx, State.setCtx, put_put]

/-! The instructions. -/

section
variable {s : State} {a : IGG} (hx : a.x.val < 8) (hy : s.reads a.y = true) (hz : s.readsZ a.z = true)
include hx hy hz

/-- What TSET leaves in its tile. -/
def tsetWord (s : State) (a : IGG) (v : Ctx) : Word128 :=
  let w := setHalf (v.tile a.x.val) 0 (s.g a.y)
  match a.z with
  | some z => setHalf w 1 (s.g z)
  | none => w

theorem execTset_next : execTset a s = .next (s.upd (fun v => v.setTile a.x.val (tsetWord s a v))).advance := by
  rw [execTset, checkTGZ_bind hx hy hz]
  rfl

/-- What TSHAPE leaves in its tile. -/
def tshapeWord (s : State) (a : IGG) (v : Ctx) : Word128 :=
  let w := setSeven (v.tile a.x.val) 64 (s.g a.y).toNat
  match a.z with
  | some z => setSeven w 71 (s.g z).toNat
  | none => w

theorem execTshape_next : execTshape a s = .next (s.upd (fun v => v.setTile a.x.val (tshapeWord s a s.me))).advance := by
  rw [execTshape, checkTGZ_bind hx hy hz]
  rfl

theorem execTget_pair {z : GReg} (h : a.z = some z) : execTget a s =
    .next (s.putPair a.y z (half128 (s.me.tile a.x.val) 0) (half128 (s.me.tile a.x.val) 1)).advance := by
  rw [execTget, checkTGZ_bind hx hy hz, h]
  rfl

/-- With one destination TGET is an instruction that raises no flag. -/
theorem execTget_one (h : a.z = none) : execTget a s = .next (s.complete a.y (half128 (s.me.tile a.x.val) 0) 0) := by
  rw [execTget, checkTGZ_bind hx hy hz, h, State.complete, State.writeG, raise_zero]
  change Host.Outcome.next (State.upd _ _).advance = _
  rw [State.upd, (putG_written ..).cur]

end

section
variable {s : State} {a : TAdv} (hx : a.x.val < 8) (hy : s.reads a.y = true) (hz : s.readsZ a.z = true)
include hx hy hz

theorem execTadv_bytes (h : a.z = none) : execTadv a s =
    .next (s.upd (fun v => v.setTile a.x.val (moveBase (s.me.tile a.x.val) ((s.g a.y).toInt + a.imm.toInt)))).advance := by
  rw [execTadv, checkTGZ_bind hx hy hz, h]
  rfl

theorem execTadv_elements {z : GReg} (h : a.z = some z) (ht : (tileOf (s.me.tile a.x.val)).fmt ≠ .fa56) :
    let t := tileOf (s.me.tile a.x.val)
    execTadv a s = .next (s.upd (fun v => v.setTile a.x.val (moveBase (s.me.tile a.x.val)
      (((s.g a.y).toInt * t.stride + (s.g z).toInt) * t.size + a.imm.toInt)))).advance := by
  intro t
  rw [execTadv, checkTGZ_bind hx hy hz, h]
  simp only [if_neg ht]
  rfl

theorem execTadv_combo {z : GReg} (h : a.z = some z) (ht : (tileOf (s.me.tile a.x.val)).fmt = .fa56) :
    execTadv a s = finish s (.error (illcombo 1 0)) := by
  rw [execTadv, checkTGZ_bind hx hy hz, h]
  simp only [if_pos ht]
  rfl

end

end Sys2Proof.Machine

namespace Sys2Proof
open Machine

/-- Settles O36: TSET, TSHAPE and TADV write one tile register, whose fields the lemmas about descriptors give; TGET writes one register or
two. -/
theorem tileRegisters : Obligations.tile_registers := by
  unfold Obligations.tile_registers
  refine ⟨fun s a hx hy hz => ⟨?tset, ?tget, ?tshape⟩,
    fun s a hx hy hz => ⟨fun h => ?bytes, fun z h ht => ?elements, fun z h ht hv hi => ?combo⟩⟩
  case tset =>
    refine ⟨_, _, execTset_next hx hy hz, setTile_tileStep s a.x _, ?_⟩
    rw [tsetWord]
    have hlt := (s.g a.y).isLt
    cases a.z with
    | none =>
      simp only [toNat_setHalf_zero]
      omega
    | some z =>
      simp only [toNat_setHalf_one, toNat_setHalf_zero]
      omega
  case tget =>
    cases h : a.z with
    | none => exact ⟨_, execTget_one hx hy hz h, fun _ => half128_zero _ ▸ complete_registerStep .., nofun⟩
    | some z =>
      refine ⟨_, execTget_pair hx hy hz h, nofun, fun _ e => ?_⟩
      cases e
      rw [half128_zero, half128_one]
      exact putPair_pairStep ..
  case tshape =>
    refine ⟨_, _, execTshape_next hx hy hz, setTile_tileStep s a.x (fun _ => tshapeWord s a s.me), fun i hi => ?_⟩
    rw [tshapeWord]
    cases a.z with
    | none => exact getLsbD_setSeven _ (by decide) _ i hi
    | some z =>
      simp only [getLsbD_setSeven _ (show 71 + 7 ≤ 128 by decide) _ i hi, getLsbD_setSeven _ (show 64 + 7 ≤ 128 by decide) _ i hi]
      simp only [BitVec.getLsbD]
      grind
  case bytes =>
    refine ⟨_, _, execTadv_bytes hx hy hz h, setTile_tileStep s a.x (fun _ => _), (moveBase_fields ..).1, ?_⟩
    rw [Int.add_assoc]
    exact (moveBase_fields ..).2
  case elements =>
    refine ⟨_, _, execTadv_elements hx hy hz h ht, setTile_tileStep s a.x (fun _ => _), (moveBase_fields ..).1, ?_⟩
    rw [Int.add_assoc]
    exact (moveBase_fields ..).2
  case combo => exact exists_trapStep hv hi (execTadv_combo hx hy hz h ht)

end Sys2Proof

end

-- Accumulator rows (O33)
section
/-! AROWV and AVROW (R162, R163): the elements of a register as the cells of a row, and back. -/

set_option Elab.async false

namespace Sys2Proof.Machine

/-! Consecutive cells. -/

/-- Values written one after another from a place on. -/
theorem getD_foldl_zipIdx {α β : Type} (h : β → α) (start i : Nat) (d : α) (l : List β) {k : Nat} (a : Array α)
    (hl : start + k + l.length ≤ a.size) : ((l.zipIdx k).foldl (fun m e => m.set! (start + e.2) (h e.1)) a).getD i d =
      if start + k ≤ i ∧ i < start + k + l.length then (l[i - (start + k)]?.map h).getD d else a.getD i d := by
  induction l generalizing k a with
  | nil => simp
  | cons x l ih =>
    have hs : (a.set! (start + k) (h x)).size = a.size := by rw [Array.set!_eq_setIfInBounds, Array.size_setIfInBounds]
    rw [List.length_cons] at hl
    rw [List.zipIdx_cons, List.foldl_cons, ih _ (by rw [hs]; omega), getD_set!, List.length_cons]
    by_cases hi : i = start + k
    · subst hi
      simp
      omega
    · by_cases hj : start + (k + 1) ≤ i ∧ i < start + (k + 1) + l.length
      · rw [if_pos hj, if_pos (by omega), show i - (start + k) = i - (start + (k + 1)) + 1 by omega, List.getElem?_cons_succ]
      · rw [if_neg hj, if_neg (by omega), if_neg (by omega)]

/-! The row and the column that Z names. -/

theorem bitsOf_row (n : Nat) : bitsOf n 11 6 = n / 64 % 64 := rfl
theorem bitsOf_col (n : Nat) : bitsOf n 5 0 = n % 64 := congrArg (· % 64) (Nat.div_one n)

/-! AROWV (R162). -/

/-- The types that AROWV writes. -/
theorem arowv_accepts (t : Fmt) : (t.int?.isNone && t != .fp32 && t != .bf16 && t != .fp16) = !acceptsArith t := by
  cases t <;> rfl

section
variable {s : State} {a : IIG} {p : Nat} (hp : s.held s.cur = some p) (hz : s.reads a.z = true)
include hp hz

theorem execArowv_eq (hx : s.readsV a.x = true) (hy : a.y.val < 2) : execArowv a s =
    finish s (if acceptsArith s.me.vt then waitBanks s [(p, a.y.val)] >>= fun _ => .ok (
      let t := s.me.vt
      let z := (s.g a.z).toNat
      let k := s.myStall
      s.completeV a.x (buildElems t.width (1024 / t.width) (fun _ => true) (s.v a.x) (fun i =>
        if 64 ≤ z % 64 + i then ⟨0, 0⟩
        else rowElem t ((k.pair p).mode a.y.val) s.mode (scaledCell (k.pair p) a.y.val
          ((bankCells k p a.y.val).getD (64 * (z / 64 % 64) + z % 64 + i) 0)))))
      else .error (illcombo 1 0)) := by
  rw [execArowv, checkV_ok (of_decide_eq_true hx), Except.ok_bind, checkA_ok hp hy, Except.ok_bind, checkG_ok hz, Except.ok_bind]
  dsimp only
  rw [arowv_accepts, bitsOf_row, bitsOf_col]
  cases acceptsArith s.me.vt <;> rfl

/-! AVROW (R163). -/

/-- The cells that AVROW writes: the elements of Y from the cell that Z names to the end of its row. -/
def avrowCells (s : State) (a : IIG) (p : Nat) : List (Flagged (BitVec 56)) :=
  (List.range (min (1024 / s.me.vt.width) (64 - (s.g a.z).toNat % 64))).map (fun i =>
    cellOf s.me.vt ((s.myStall.pair p).mode a.x.val) (elem s.me.vt.width (s.v a.y) i))

/-- The stall with those cells written. -/
def avrowStall (s : State) (a : IIG) (p : Nat) (k : Stall) : Stall :=
  let new := (avrowCells s a p).zipIdx.foldl (fun (m : Array (BitVec 56)) e =>
    m.set! (64 * ((s.g a.z).toNat / 64 % 64) + (s.g a.z).toNat % 64 + e.2) e.1.val) (bankCells k p a.x.val)
  setBank k p a.x.val (fun i => new.getD i 0)

theorem execAvrow_eq (hx : a.x.val < 2) (hy : s.readsV a.y = true) : execAvrow a s =
    finish s (if s.me.vt = .m64 ∨ s.me.vt = .fa56 ∨ ((s.myStall.pair p).mode a.x.val = true ∧ s.me.vt.int?.isNone = true) then
        .error (illcombo 1 0)
      else waitBanks s [(p, a.x.val)] >>= fun _ => .ok (((s.updMyStall (avrowStall s a p)).raise s.cur
        ((avrowCells s a p).foldl (fun f r => f ||| r.flags) 0)).advance)) := by
  rw [execAvrow, checkA_ok hp hx, Except.ok_bind, checkV_ok (of_decide_eq_true hy), Except.ok_bind, checkG_ok hz, Except.ok_bind]
  dsimp only
  rw [bitsOf_row, bitsOf_col]
  split <;> rfl

end

/-- A cell of the bank that AVROW has written. -/
theorem getD_avrowStall (s : State) (a : IIG) (p : Nat) {i : Nat} (hi : i < 4096) :
    let z := (s.g a.z).toNat
    let start := 64 * (z / 64 % 64) + z % 64
    (bankCells (avrowStall s a p s.myStall) p a.x.val).getD i 0 =
      if start ≤ i ∧ i < start + min (1024 / s.me.vt.width) (64 - z % 64) then
        (cellOf s.me.vt ((s.myStall.pair p).mode a.x.val) (elem s.me.vt.width (s.v a.y) (i - start))).val
      else (bankCells s.myStall p a.x.val).getD i 0 := by
  intro z start
  have hstart : start = 64 * (z / 64 % 64) + z % 64 := rfl
  have hlen : (avrowCells s a p).length = min (1024 / s.me.vt.width) (64 - z % 64) := by simp [avrowCells, z]
  rw [avrowStall, getD_bankCells_setBank _ _ _ _ hi,
    getD_foldl_zipIdx (fun r : Flagged (BitVec 56) => r.val) start i 0 (avrowCells s a p) (k := 0) _
      (by rw [size_bankCells, hlen]; omega), hlen]
  simp only [Nat.add_zero]
  split
  · have hj : i - start < min (1024 / s.me.vt.width) (64 - z % 64) := by omega
    rw [avrowCells, List.getElem?_map, List.getElem?_range hj]
    rfl
  · rfl

end Sys2Proof.Machine

namespace Sys2Proof
open Machine

/-- Settles O33: AROWV builds a register of elements, all of them active; AVROW writes its cells one after another; the types that they do
not accept are told before they wait for the bank. -/
theorem accumulatorRows : Obligations.accumulator_rows := by
  unfold Obligations.accumulator_rows
  intro s a p k z row col t w m combo hp hz
  refine ⟨fun hx hy => ⟨fun ht hb => ?arowv, fun ht hv hi => ?arowvCombo⟩, fun hx hy => ?_⟩
  case arowv =>
    rw [show exec (.arowv a) s = _ from execArowv_eq hp hz hx hy, if_pos (show acceptsArith s.me.vt = true from ht), waitBanks_ok hb]
    exact ⟨_, rfl, completeV_elementStep s a.x (width_mul_count _) _ _⟩
  case arowvCombo =>
    refine exists_trapStep (t := ⟨.illcombo, 1, 0⟩) hv hi ((execArowv_eq hp hz hx hy).trans ?_)
    rw [if_neg (Bool.eq_false_iff.mp (show acceptsArith s.me.vt = false from ht))]
    rfl
  intro cell n
  refine ⟨fun h1 h2 h3 hb => ?avrow, fun ht hv hi => ?avrowCombo⟩
  case avrow =>
    have hno : ¬(s.me.vt = .m64 ∨ s.me.vt = .fa56 ∨ ((s.myStall.pair p).mode a.x.val = true ∧ s.me.vt.int?.isNone = true)) := by
      rintro (h | h | ⟨hq, h⟩)
      · exact h1 h
      · exact h2 h
      · exact Bool.false_ne_true ((congrArg Option.isSome (Option.isNone_iff_eq_none.mp h)).symm.trans (h3 hq))
    rw [show exec (.avrow a) s = _ from execAvrow_eq hp hz hx hy, if_neg hno, waitBanks_ok hb]
    refine ⟨_, avrowStall s a p k, rfl, ?_, rfl, keepsBanks_setBank k p _ hx, fun i hi => getD_avrowStall s a p hi⟩
    have hf : (avrowCells s a p).foldl (fun f r => f ||| r.flags) 0 = (List.range n).foldl (fun g i => g ||| (cell i).flags) 0 := by
      rw [avrowCells, List.foldl_map]
    rw [← hf]
    exact updMyStall_raise_stallStep s (avrowStall s a p) _
  case avrowCombo =>
    refine exists_trapStep (t := ⟨.illcombo, 1, 0⟩) hv hi ((execAvrow_eq hp hz hx hy).trans ?_)
    have hc : s.me.vt = .m64 ∨ s.me.vt = .fa56 ∨ ((s.myStall.pair p).mode a.x.val = true ∧ s.me.vt.int?.isNone = true) :=
      ht.imp_right (.imp_right fun h => ⟨h.1, by simpa using h.2⟩)
    rw [if_pos hc]
    rfl

end Sys2Proof

end

-- The running context stays the same
section
/-! No operation on memory, messages or registers of a hall changes which context runs; so performing the issued stores of a context does
not (R309). There is one lemma per operation that performing a store is made of, in the order of the definitions. -/

set_option Elab.async false

namespace Sys2Proof.Machine

variable {s : State}

theorem foldl_cur {α : Type} {f : State → α → State} (hf : ∀ t a, (f t a).cur = t.cur) (l : List α) (s : State) :
    (l.foldl f s).cur = s.cur := by
  induction l generalizing s with
  | nil => rfl
  | cons a r ih => exact (ih (f s a)).trans (hf s a)

/-! Control and status registers. -/

theorem clearBank_cur (s : State) (k b : Nat) : (clearBank s k b).cur = s.cur := by
  unfold clearBank
  grind

theorem regate_cur (s : State) (k : Nat) : (regate s k).cur = s.cur := by
  unfold regate
  grind [foldl_cur, clearBank_cur, State.updStall_cur]

theorem writeCsr_cur {c : Nat} {r : Csr} {w : Word} {t : State} (e : writeCsr s c r w = some t) : t.cur = s.cur := by
  unfold writeCsr at e
  grind [State.updCtx_cur, State.updStall_cur, regate_cur]

/-! Memory. -/

theorem writeStored_cur (s : State) (key a : Nat) (bs : List Byte) : (writeStored s key a bs).cur = s.cur := by
  unfold writeStored claimUnit putBytes
  grind

theorem writeHome_cur (s : State) (key a : Nat) (bs : List Byte) : (writeHome s key a bs).cur = s.cur := by
  unfold writeHome
  grind [writeStored_cur]

theorem markHome_cur (s : State) (key a : Nat) : (markHome s key a).cur = s.cur := by
  unfold markHome
  grind

theorem writeBackL2_cur (s : State) (hall key line : Nat) : (writeBackL2 s hall key line).cur = s.cur := by
  unfold writeBackL2
  grind [foldl_cur, writeHome_cur, markHome_cur]

theorem dropL2_cur (s : State) (hall key line : Nat) : (dropL2 s hall key line).cur = s.cur := writeBackL2_cur ..

theorem placeL2_cur (s : State) (hall key line : Nat) (v : L2Line) : (placeL2 s hall key line v).1.cur = s.cur := by
  unfold placeL2
  grind [dropL2_cur]

theorem fetchL2_cur (s : State) (hall : Nat) (p : Place) (keep : Bool) : (fetchL2 s hall p keep).1.cur = s.cur := by
  unfold fetchL2
  grind [placeL2_cur]

theorem hallRead_cur (s : State) (hall : Nat) (p : Place) (n : Nat) (keep : Bool) : (hallRead s hall p n keep).1.cur = s.cur := by
  unfold hallRead
  grind [fetchL2_cur]

theorem hallWrite_cur (s : State) (hall : Nat) (p : Place) (bs : List Byte) (keep : Bool) : (hallWrite s hall p bs keep).cur = s.cur := by
  unfold hallWrite
  grind [writeHome_cur, fetchL2_cur]

theorem markHall_cur (s : State) (hall key a : Nat) : (markHall s hall key a).cur = s.cur := by
  unfold markHall
  grind [markHome_cur]

theorem writeBackLine_cur (s : State) (k key line : Nat) : (writeBackLine s k key line).cur = s.cur := by
  unfold writeBackLine
  grind [foldl_cur, hallWrite_cur, markHall_cur]

theorem recallLine_cur (s : State) (key line k : Nat) : (recallLine s key line k).cur = s.cur := writeBackLine_cur ..

theorem placeL1_cur (s : State) (k key line : Nat) (l : Line) : (placeL1 s k key line l).cur = s.cur := by
  unfold placeL1
  grind [recallLine_cur]

theorem ownLine_cur (s : State) (k : Nat) (p : Place) (keep : Bool) : (ownLine s k p keep).cur = s.cur := by
  unfold ownLine dropLine
  grind [foldl_cur, recallLine_cur, hallRead_cur, placeL1_cur]

theorem dropShared_cur (s : State) (k key line : Nat) : (dropShared s k key line).cur = s.cur := by
  unfold dropShared
  apply foldl_cur
  exact fun _ _ => rfl

theorem storeL1_cur (s : State) (c : Nat) (p : Place) (bs : List Byte) (keep through : Bool) :
    (storeL1 s c p bs keep through).cur = s.cur := by
  unfold storeL1
  grind [dropShared_cur, ownLine_cur, hallWrite_cur]

theorem storeNoAlloc_cur (s : State) (c : Nat) (p : Place) (bs : List Byte) : (storeNoAlloc s c p bs).cur = s.cur := by
  unfold storeNoAlloc
  grind [foldl_cur, hallWrite_cur]

theorem performStore_cur (s : State) (c : Nat) (p : Place) (bs : List Byte) (policy : Policy) :
    (performStore s c p bs policy).cur = s.cur := by
  unfold performStore
  grind [storeL1_cur, storeNoAlloc_cur, writeHome_cur]

/-! Messages. -/

theorem transmit_cur (s : State) (key : Nat) (x : Sent) : (transmit s key x).cur = s.cur := by
  unfold transmit
  apply foldl_cur
  exact fun _ _ => rfl

theorem sendMessage_cur (s : State) (src dst cls tag : Nat) (body : Body) (bytes : List Byte) :
    (sendMessage s src dst cls tag body bytes).cur = s.cur := by
  unfold sendMessage offerMessage encodeMessage restick
  grind [transmit_cur, State.updStream_cur, State.updCtx_cur]

/-! Registers of a hall. -/

theorem putG_cur (s : State) (c : Nat) (x : GReg) (w : Word) : (s.putG c x w).cur = s.cur := by
  unfold State.putG
  grind [State.updCtx_cur]

theorem inspectWrite_cur (s : State) (ak : Nat) (x : Word) : (inspectWrite s ak x).cur = s.cur := by
  have hcsr (r : Option Csr) (c : Nat) : ((r.bind (fun r => writeCsr s c r x)).getD s).cur = s.cur := by
    cases h : r.bind (fun r => writeCsr s c r x) with
    | none => rfl
    | some t =>
      obtain ⟨q, -, hq⟩ := Option.bind_eq_some_iff.mp h
      exact writeCsr_cur hq
  rw [inspectWrite]
  split
  · rfl
  · split
    case h_3 => exact hcsr _ _
    all_goals grind [putG_cur, State.writeV_cur, State.updCtx_cur]

theorem writeInspector_cur (s : State) (ak r n : Nat) : (writeInspector s ak r n).cur = s.cur := by
  unfold writeInspector resetDigest
  grind [State.updArcade_cur, State.cause_cur, inspectWrite_cur]

theorem emptyWay_cur (s : State) (hk way : Nat) : (emptyWay s hk way).cur = s.cur := by
  unfold emptyWay
  exact foldl_cur (fun t e => dropL2_cur t hk (l2KeyId e) (l2LineNo e)) _ s

theorem writeCarve_cur (s : State) (hk k n : Nat) : (writeCarve s hk k n).cur = s.cur := by
  unfold writeCarve setCarve clearWay
  grind [State.updHall_cur, State.cause_cur, emptyWay_cur]

theorem writeHallReg_cur (s : State) (hk off n : Nat) : (writeHallReg s hk off n).cur = s.cur := by
  unfold writeHallReg writeCrate
  grind [State.updPkg_cur, State.updHall_cur, writeCarve_cur, writeInspector_cur]

theorem writeHallRegBytes_cur (s : State) (hk off : Nat) (bs : List Byte) : (writeHallRegBytes s hk off bs).cur = s.cur := by
  unfold writeHallRegBytes
  grind [writeHallReg_cur]

/-! Stores. -/

theorem postStore_cur (s : State) (c : Nat) (p : Place) (qs : List QStore) (bs : List Byte) : (postStore s c p qs bs).cur = s.cur :=
  sendMessage_cur ..

theorem postBlock_cur (s : State) (c : Nat) (qs : List QStore) : (postBlock s c qs).cur = s.cur := by
  cases qs with
  | nil => rfl
  | cons q r => exact postStore_cur ..

theorem performAt_cur (s : State) (c : Nat) (q : QStore) : (performAt s c q).cur = s.cur := by
  unfold performAt
  grind [postStore_cur, writeHallRegBytes_cur, performStore_cur, writeHome_cur, State.updCtx_cur]

theorem performOldest_cur (s : State) (c : Nat) : (performOldest s c).cur = s.cur := by
  unfold performOldest
  grind [postBlock_cur, performAt_cur, State.updCtx_cur]

theorem drainFrom_cur (n : Nat) (s : State) (c : Nat) : (drainFrom n s c).cur = s.cur := by
  induction n generalizing s with
  | zero => rfl
  | succ n ih => exact (ih (performOldest s c)).trans (performOldest_cur s c)

/-- Performing the issued stores of a context leaves the running context the same. -/
theorem drain_cur (s : State) (c : Nat) : (drain s c).cur = s.cur := drainFrom_cur ..

end Sys2Proof.Machine
end

-- Matrix commands accepted (O34)
section
/-! The checks of MMA, MMAM and the solvers (R156, R165, R175, R202), which tiles in the own TCM pass on their descriptors alone, and how a
checked command enters its class queue (R166). -/

set_option Elab.async false

namespace Sys2Proof.Machine

/-! Tiles in the own TCM. -/

section
variable {t : Tile} (h : t.plainTcm)
include h

theorem combo_plainTcm {oper lines k : Nat} {plain writes : Bool} (hl : lines ≤ 64) :
    (⟨oper, t, lines, k, plain, writes⟩ : TileUse).combo = .ok () := by
  obtain ⟨-, hok, hdir, hmode, -⟩ := h
  simp [TileUse.combo, Nat.not_lt.mpr hl, hok, hdir, Tile.smodeOk, hmode]

theorem solverCombo_plainTcm {oper : Nat} {writes : Bool} (hf : t.fmt = .fp32) : solverCombo (solverUse oper t writes) true = .ok () := by
  obtain ⟨hspace, hok, hdir, hmode, -⟩ := h
  simp [solverCombo, solverUse, hok, hdir, hmode, hf, hspace]

theorem misaligned_plainTcm (sclp : Word) : t.misaligned sclp = none := by
  obtain ⟨-, -, -, hmode, hbase⟩ := h
  simp [Tile.misaligned, hbase, hmode]

/-- The elements of such a tile lie in the window of the TCM, and it has no scales. -/
theorem addrs_plainTcm {sclp : Word} {lines k va : Nat} (hva : va ∈ t.addrs ++ t.scaleAddrs sclp lines k) :
    tcmWindow ≤ va ∧ va < tcmWindow + 2 ^ 18 := by
  obtain ⟨hspace, hok, -, hmode, -⟩ := h
  rw [show t.scaleAddrs sclp lines k = [] by simp [Tile.scaleAddrs, hmode], List.append_nil] at hva
  obtain ⟨e, he, hva⟩ := List.mem_flatMap.mp hva
  obtain ⟨i, hi, rfl⟩ := List.mem_map.mp hva
  have hrow := List.all_eq_true.mp hok e he
  simp only [hspace, insideWindow, Bool.and_eq_true, decide_eq_true_eq] at hrow
  have hle : i * t.size ≤ (e.2 - 1) * t.size := Nat.mul_le_mul_right _ (Nat.le_sub_one_of_lt (List.mem_range.mp hi))
  omega

end

/-- Tiles in the own TCM pass the checks of alignment and translation, which change nothing. -/
theorem checkTiles_plainTcm {s : State} (hc : s.cur < ctxLimit) (sclp : Word) {us : List TileUse} (h : ∀ u ∈ us, u.tile.plainTcm) :
    checkTiles translate s s.cur sclp us = .ok (s, []) := by
  have ha : us.findSome? (fun u => u.tile.misaligned sclp) = none :=
    List.findSome?_eq_none_iff.mpr fun u hu => misaligned_plainTcm (h u hu) sclp
  rw [checkTiles, ha]
  clear ha
  induction us with
  | nil => rfl
  | cons u us ih =>
    rw [List.foldlM_cons]
    dsimp only
    rw [checkAddrs_tcm s hc _ _ fun va hva => addrs_plainTcm (h u List.mem_cons_self) hva]
    exact ih fun v hv => h v (List.mem_cons_of_mem _ hv)

/-! The MMA family. -/

section
variable {s : State} {ta tb : Tile} {sclp : Word} {p : Nat} (hc : s.cur < ctxLimit) (ht : ∀ t ∈ [ta, tb], t.plainTcm)
  (hk : ta.cols = tb.rows) (hg : ta.cols % groupSize ta.fmt tb.fmt = 0) (hr : ta.rows ≤ 64) (hl : tb.cols ≤ 64)
include hc ht hk hg hr hl

/-- Two tiles in the own TCM pass the checks when their formats pair in the mode of the bank and their shapes fit. -/
theorem checkMma_plainTcm {mmam : Bool} {bank : Nat} {q : Bool}
    (hq : (if mmam then mmamPairing ta.fmt tb.fmt else mmaPairing ta.fmt tb.fmt) = some q)
    (hmode : let r := (s.stall (ctxStall s.cur)).pair p
      ((mmam && (r.q0 || r.q1)) || (!mmam && r.mode bank != q)) = false)
    (hm : (mmam && (s.ctx s.cur).mmode != 0) = false) : checkMma translate mmam s s.cur p bank ta tb sclp = .ok (s, []) := by
  have ha := ht ta List.mem_cons_self
  have hb := ht tb (List.mem_cons_of_mem _ List.mem_cons_self)
  rw [checkMma]
  dsimp only
  rw [hq]
  dsimp only
  rw [if_neg (by rintro (h | h); exacts [h hk, h hg]), if_neg (Bool.eq_false_iff.mp hmode), if_neg (Bool.eq_false_iff.mp hm),
    combo_plainTcm ha hr, combo_plainTcm hb hl]
  refine checkTiles_plainTcm hc sclp fun u hu => ?_
  simp only [List.mem_cons, List.not_mem_nil, or_false] at hu
  rcases hu with rfl | rfl
  · exact ha
  · exact hb

end

/-- What an accepted command does to its context: a solver holds it until it completes. -/
def afterAccept (solver : Bool) (t : State) : State := if solver then t.advance.upd (fun v => { v with wait := .solver }) else t.advance

theorem runMma_eq {s s1 : State} {ts : List Tlb} {zero high : Bool} {a : ITri} {p : Nat} (hp : s.held s.cur = some p) (hx : a.x.val < 2)
    (hy : a.y.val < 8) (hz : a.z.val < 8)
    (h : checkMma translate false s s.cur p a.x.val (tileOf (s.me.tile a.y.val)) (tileOf (s.me.tile a.z.val)) s.me.sclp = .ok (s1, ts)) :
    runMma zero high a s = finish s (acceptCmd s1 (newCmd s1 (.mma zero) high p a.x.val (s.me.tile a.y.val) (s.me.tile a.z.val) ts) >>=
      fun t => .ok (afterAccept false t)) := by
  rw [runMma, checkA_ok hp hx, Except.ok_bind, checkT_ok hy, Except.ok_bind, checkT_ok hz, Except.ok_bind]
  dsimp only
  rw [h]
  rfl

theorem execMmam_eq {s s1 : State} {ts : List Tlb} {a : II} {p : Nat} (hp : s.held s.cur = some p) (hx : a.x.val < 8) (hy : a.y.val < 8)
    (h : checkMma translate true s s.cur p 0 (tileOf (s.me.tile a.x.val)) (tileOf (s.me.tile a.y.val)) s.me.sclp = .ok (s1, ts)) :
    execMmam a s = finish s (acceptCmd s1 (newCmd s1 .mmam false p 0 (s.me.tile a.x.val) (s.me.tile a.y.val) ts) >>=
      fun t => .ok (afterAccept false t)) := by
  rw [execMmam, show checkPair s = .ok p from checkA_ok hp Nat.two_pos, Except.ok_bind, checkT_ok hx, Except.ok_bind, checkT_ok hy,
    Except.ok_bind]
  dsimp only
  rw [h]
  rfl

/-! Solvers (R175). -/

/-- The tiles that a solver names: which operand, its descriptor, whether it is written, and whether its shape is as it should be. -/
abbrev Shapes := List (Nat × Word128 × Bool × Bool)

def Shapes.uses (l : Shapes) : List (TileUse × Bool) := l.map (fun e => (solverUse e.1 (tileOf e.2.1) e.2.2.1, e.2.2.2))

theorem forM_ok {α : Type} {f : α → Except Stop Unit} {l : List α} (h : ∀ e ∈ l, f e = .ok ()) : l.forM f = .ok () := by
  induction l with
  | nil => rfl
  | cons e l ih =>
    rw [List.forM_eq_forM, List.forM_cons, h e List.mem_cons_self]
    exact ih fun x hx => h x (List.mem_cons_of_mem _ hx)

theorem acceptSolver_eq {s s1 : State} {ts : List Tlb} {l : Shapes} {mk : List Tlb → Cmd}
    (hs : ∀ e ∈ l, solverCombo (solverUse e.1 (tileOf e.2.1) e.2.2.1) e.2.2.2 = .ok ())
    (ht : checkTiles translate s s.cur 0 (l.map (fun e => solverUse e.1 (tileOf e.2.1) e.2.2.1)) = .ok (s1, ts)) :
    acceptSolver s l.uses mk = (acceptCmd s1 (mk ts) >>= fun t => .ok (afterAccept true t)) := by
  have hf : l.uses.forM (fun e => solverCombo e.1 e.2) = .ok () := by
    refine forM_ok fun e he => ?_
    obtain ⟨x, hx, rfl⟩ := List.mem_map.mp he
    exact hs x hx
  have hu : l.uses.map (·.1) = l.map (fun e => solverUse e.1 (tileOf e.2.1) e.2.2.1) := List.map_map
  rw [acceptSolver, hf, Except.ok_bind, hu, ht]
  rfl

/-- fp32 tiles of the right shapes in the own TCM pass the checks of a solver. -/
theorem solverChecks_plainTcm {s : State} (hc : s.cur < ctxLimit) {l : Shapes} (ht : ∀ t ∈ l.map (fun e => tileOf e.2.1), t.plainTcm)
    (hf : ∀ e ∈ l, (tileOf e.2.1).fmt = .fp32 ∧ e.2.2.2 = true) :
    (∀ e ∈ l, solverCombo (solverUse e.1 (tileOf e.2.1) e.2.2.1) e.2.2.2 = .ok ()) ∧
      checkTiles translate s s.cur 0 (l.map (fun e => solverUse e.1 (tileOf e.2.1) e.2.2.1)) = .ok (s, []) := by
  refine ⟨fun e he => ?_, checkTiles_plainTcm hc 0 fun u hu => ?_⟩
  · rw [(hf e he).2]
    exact solverCombo_plainTcm (ht _ (List.mem_map_of_mem he)) (hf e he).1
  · obtain ⟨e, he, rfl⟩ := List.mem_map.mp hu
    exact ht _ (List.mem_map_of_mem he)

section
variable {s : State}

theorem execMchol_eq {a : MChol} (hx : a.x.val < 8) (hz : s.readsZ a.z = true) :
    let w := s.me.tile a.x.val
    let t := tileOf w
    execMchol a s = finish s (acceptSolver s (Shapes.uses [(0, w, true, t.rows == t.cols && decide (t.rows ≤ 64))])
      (fun ts => { newCmd s .chol false 4 0 w 0 ts with dest := a.z })) := by
  intro w t
  rw [execMchol, checkT_ok hx, Except.ok_bind, checkZ_ok hz]
  rfl

theorem runTriangle_eq {kind : CmdKind} {a : II} (hx : a.x.val < 8) (hy : a.y.val < 8) :
    let wx := s.me.tile a.x.val
    let wy := s.me.tile a.y.val
    let x := tileOf wx
    let y := tileOf wy
    runTriangle kind a s = finish s (acceptSolver s
      (Shapes.uses [(0, wx, false, x.rows == x.cols), (1, wy, true, y.rows == x.rows && decide (y.cols ≤ 64))])
      (fun ts => newCmd s kind false 4 0 wx wy ts)) := by
  intro wx wy x y
  rw [runTriangle, checkT_ok hx, Except.ok_bind, checkT_ok hy]
  rfl

theorem execMrfn_eq {a : IIG} (hx : a.x.val < 8) (hy : a.y.val < 8) (hz : s.reads a.z = true) :
    let wa := s.me.tile a.x.val
    let wl := s.me.tile (a.x.val + 1)
    let wb := s.me.tile a.y.val
    let wx := s.me.tile (a.y.val + 1)
    let ta := tileOf wa
    let tl := tileOf wl
    let tb := tileOf wb
    let tx := tileOf wx
    execMrfn a s = finish s (acceptSolver s
      (Shapes.uses [(0, wa, false, ta.rows == ta.cols), (0, wl, false, tl.rows == ta.rows && tl.cols == ta.rows),
        (1, wb, false, tb.rows == ta.rows && decide (tb.cols ≤ 8)), (1, wx, true, tx.rows == ta.rows && tx.cols == tb.cols)])
      (fun ts => { newCmd s .rfn false 4 0 wa wb ts with a2 := wl, b2 := wx, zval := s.g a.z, dest := some a.z })) := by
  intro wa wl wb wx ta tl tb tx
  rw [execMrfn, checkT_ok hx, Except.ok_bind, checkT_ok hy, Except.ok_bind, checkG_ok hz]
  rfl

end

/-! Acceptance (R166, R167). -/

theorem acceptCmd_full {t : State} {x : Cmd} (h : 4 ≤ (queueOf t.myStall x.high).length) :
    acceptCmd t x = .error (.wait (unitEvents (ctxStall t.cur))) := if_pos h

theorem acceptCmd_room {t : State} {x : Cmd} (h : (queueOf t.myStall x.high).length < 4)
    (hd : storeHeldBy (drain t t.cur) t.cur = none) :
    acceptCmd t x = .ok (enterQueue (drain t t.cur) (ctxStall (drain t t.cur).cur) { x with seq := t.tick }) := by
  have h' : ¬4 ≤ (queueOf (t.stall (ctxStall t.cur)) x.high).length := Nat.not_le.mpr h
  rw [acceptCmd, if_neg h', settled_of_drained hd, drain_cur]
  rfl

theorem enterQueue_entered (s : State) (x : Cmd) (solver : Bool) :
    CommandEntered s (afterAccept solver (enterQueue s (ctxStall s.cur) x)) x solver := by
  refine ⟨(enterQueue s (ctxStall s.cur) x).advance, updMyStall_cause_stallStep s (fun v =>
    let y : Cmd := { x with early := snapshot s x }
    if x.high then { v with high := v.high ++ [y] } else { v with low := v.low ++ [y] }) _, ?_⟩
  cases solver with
  | false => exact ⟨rfl, fun _ _ => rfl, fun _ _ => rfl, rfl⟩
  | true => exact upd_contextStep _ (fun v => { v with wait := .solver })

/-- An instruction that has checked its command `y`, which is `x` with the translations made, waits for a slot or has it accepted. -/
theorem accepted_of_eq {s s1 : State} {ts : List Tlb} {o : Answer} {x y : Cmd} (solver : Bool)
    (e : o = finish s (acceptCmd s1 y >>= fun t => .ok (afterAccept solver t)))
    (hy : { y with seq := s1.tick } = { x with seq := s1.tick, trans := ts }) :
    (4 ≤ (queueOf s1.myStall x.high).length → o = .next ((unitEvents (ctxStall s1.cur)).foldl State.causeOnce s.stay)) ∧
    ((queueOf s1.myStall x.high).length < 4 → storeHeldBy (drain s1 s1.cur) s1.cur = none →
      ∃ u, o = .next u ∧ CommandEntered (drain s1 s1.cur) u { x with seq := s1.tick, trans := ts } solver) := by
  have hh : y.high = x.high := by simpa using congrArg Cmd.high hy
  refine ⟨fun h => ?_, fun h hd => ⟨_, ?_, enterQueue_entered ..⟩⟩
  · rw [e, acceptCmd_full (hh ▸ h)]
    rfl
  · rw [e, acceptCmd_room (hh ▸ h) hd, hy]
    rfl

end Sys2Proof.Machine

namespace Sys2Proof
open Machine

/-- Settles O34: the checks of a command have passed, by hypothesis or because its tiles lie in the own TCM; then acceptance waits for a
slot or enters the command. -/
theorem matrixCommandsAccepted : Obligations.matrix_commands_accepted := by
  unfold Obligations.matrix_commands_accepted
  intro s s1 ts tile st accepted cmd inTcm hcur hme
  refine ⟨fun p hp => ⟨?mma, ?mmam⟩, ?_⟩
  case mma =>
    intro e he a hx hy hz ta tb h
    have hexec : exec (e.1 a) s = runMma e.2.1 e.2.2 a s := by
      simp only [List.mem_cons, List.not_mem_nil, or_false] at he
      rcases he with rfl | rfl | rfl | rfl <;> rfl
    have hcheck : checkMma translate false s s.cur p a.x.val ta tb s.me.sclp = .ok (s1, ts) := by
      rcases h with h | ⟨⟨hc, rfl, rfl, ht⟩, hq, hk, hg, hr, hl⟩
      · exact h
      · exact checkMma_plainTcm hc ht hk hg hr hl hq (by simp [State.myStall]) rfl
    refine accepted_of_eq false (hexec.trans (runMma_eq hp hx hy hz hcheck)) ?_
    simp only [newCmd, hcur, hme]
    rfl
  case mmam =>
    intro a hx hy ta tb h
    have hcheck : checkMma translate true s s.cur p 0 ta tb s.me.sclp = .ok (s1, ts) := by
      rcases h with h | ⟨⟨hc, rfl, rfl, ht⟩, hq, hk, hg, hr, hl, h0, h1, hm⟩
      · exact h
      · obtain ⟨q, hq⟩ := Option.ne_none_iff_exists'.mp hq
        exact checkMma_plainTcm hc ht hk hg hr hl hq (by simpa using ⟨h0, h1⟩) (by simpa [State.me] using hm)
    refine accepted_of_eq false (execMmam_eq hp hx hy hcheck) ?_
    simp only [newCmd, hcur, hme]
    rfl
  intro fits
  have hfits (l : Shapes) (h : fits l) : (∀ e ∈ l, solverCombo (solverUse e.1 (tileOf e.2.1) e.2.2.1) e.2.2.2 = .ok ()) ∧
      checkTiles translate s s.cur 0 (l.map (fun e => solverUse e.1 (tileOf e.2.1) e.2.2.1)) = .ok (s1, ts) := by
    rcases h with h | ⟨⟨hc, rfl, rfl, ht⟩, hf⟩
    · exact h
    · exact solverChecks_plainTcm hc ht hf
  have hsolver {i : Instr} {l : Shapes} {mk : List Tlb → Cmd} {x : Cmd} (h : fits l) (e : exec i s = finish s (acceptSolver s l.uses mk))
      (hy : { mk ts with seq := s1.tick } = { x with seq := s1.tick, trans := ts }) : accepted i x true := by
    obtain ⟨hs, ht⟩ := hfits l h
    exact accepted_of_eq true (e.trans (by rw [acceptSolver_eq hs ht])) hy
  refine ⟨?chol, ?triangle, ?rfn⟩
  case chol =>
    intro a hx hz t h
    exact hsolver (i := .mchol a) h (execMchol_eq hx hz) rfl
  case triangle =>
    intro e he a hx hy x y h
    have hexec : exec (e.1 a) s = runTriangle e.2 a s := by
      simp only [List.mem_cons, List.not_mem_nil, or_false] at he
      rcases he with rfl | rfl <;> rfl
    exact hsolver h (hexec.trans (runTriangle_eq hx hy)) rfl
  case rfn =>
    intro a hx hy hz x l b y h
    exact hsolver (i := .mrfn a) h (execMrfn_eq hx hy hz) rfl

end Sys2Proof

end

-- The matrix unit chooses and starts a command
section
/-! Which command the unit starts (R168), and MATRIX_START. -/

set_option Elab.async false

namespace Sys2Proof.Machine

/-! The choice. -/

/-- An earlier command targets a bank of a later one. -/
def Cmd.bars (o y : Cmd) : Prop := o.seq < y.seq ∧ ∃ b ∈ y.banks, b ∈ o.banks

/-- No earlier command that has not started bars this one, and none of the other class that has. -/
def Stall.frees (v : Stall) (y : Cmd) : Prop :=
  (∀ o ∈ v.low ++ v.high, ¬o.bars y) ∧ ∀ o ∈ v.running.toList ++ v.closing, o.high ≠ y.high → ¬o.bars y

theorem bars_iff {o y : Cmd} : (decide (o.seq < y.seq) && o.banks.any y.banks.contains) = true ↔ o.bars y := by
  simp only [Cmd.bars, Bool.and_eq_true, decide_eq_true_eq, List.any_eq_true, List.contains_iff_mem, and_comm]

theorem eligible_iff {v : Stall} {y : Cmd} : eligible v y = true ↔ v.frees y := by
  simp only [eligible, Stall.frees, ← bars_iff, Bool.and_eq_true, Bool.not_eq_true', List.any_eq_false, bne_iff_ne, not_and]

/-- What the unit starts next, by the first eligible command of each class. -/
theorem pickCmd_eq (v : Stall) : pickCmd v =
    match v.high.find? (eligible v), v.low.find? (eligible v) with
    | some h, some l => if 8 ≤ v.highStarts then some (l, 0) else some (h, v.highStarts + 1)
    | some h, none => some (h, v.highStarts + 1)
    | none, some l => some (l, 0)
    | none, none => none := rfl

theorem find?_eligible_none {v : Stall} {l : List Cmd} (h : l.find? (eligible v) = none) {y : Cmd} (hy : y ∈ l) : ¬v.frees y :=
  fun hf => List.find?_eq_none.mp h y hy (eligible_iff.mpr hf)

theorem find?_eligible_some {v : Stall} {l : List Cmd} {y : Cmd} (h : l.find? (eligible v) = some y) : y ∈ l ∧ v.frees y :=
  ⟨List.mem_of_find?_eq_some h, eligible_iff.mp (List.find?_some h)⟩

/-- The chosen command is the first that nothing bars of the class whose turn it is. -/
theorem pickCmd_some {v : Stall} {x : Cmd} {n : Nat} (h : pickCmd v = some (x, n)) :
    ((x ∈ v.high ∧ n = v.highStarts + 1) ∨ (x ∈ v.low ∧ n = 0)) ∧ v.frees x ∧
      ((∃ y ∈ v.high, v.frees y) → v.highStarts < 8 → n ≠ 0) ∧ ((∃ y ∈ v.low, v.frees y) → 8 ≤ v.highStarts → n = 0) := by
  rw [pickCmd_eq] at h
  cases hh : v.high.find? (eligible v) with
  | none =>
    cases hl : v.low.find? (eligible v) with
    | none => simp [hh, hl] at h
    | some l =>
      obtain ⟨hm, hf⟩ := find?_eligible_some hl
      simp only [hh, hl, Option.some.injEq, Prod.mk.injEq] at h
      obtain ⟨rfl, rfl⟩ := h
      exact ⟨.inr ⟨hm, rfl⟩, hf, fun ⟨y, hy, hfy⟩ => (find?_eligible_none hh hy hfy).elim, fun _ _ => rfl⟩
  | some y =>
    obtain ⟨hm, hf⟩ := find?_eligible_some hh
    cases hl : v.low.find? (eligible v) with
    | none =>
      simp only [hh, hl, Option.some.injEq, Prod.mk.injEq] at h
      obtain ⟨rfl, rfl⟩ := h
      exact ⟨.inl ⟨hm, rfl⟩, hf, fun _ _ => Nat.succ_ne_zero _, fun ⟨y, hy, hfy⟩ => (find?_eligible_none hl hy hfy).elim⟩
    | some l =>
      obtain ⟨hm', hf'⟩ := find?_eligible_some hl
      simp only [hh, hl] at h
      split at h
      · cases h
        exact ⟨.inr ⟨hm', rfl⟩, hf', fun _ h8 => by omega, fun _ _ => rfl⟩
      · cases h
        exact ⟨.inl ⟨hm, rfl⟩, hf, fun _ _ => Nat.succ_ne_zero _, fun _ h8 => by omega⟩

/-- Where nothing is chosen, every command that waits is barred. -/
theorem pickCmd_none {v : Stall} (h : pickCmd v = none) {y : Cmd} (hy : y ∈ v.low ++ v.high) : ¬v.frees y := by
  rw [pickCmd_eq] at h
  cases hh : v.high.find? (eligible v) with
  | none =>
    cases hl : v.low.find? (eligible v) with
    | none =>
      rcases List.mem_append.mp hy with hy | hy
      · exact find?_eligible_none hl hy
      · exact find?_eligible_none hh hy
    | some l => simp [hh, hl] at h
  | some x =>
    cases hl : v.low.find? (eligible v) with
    | none => simp [hh, hl] at h
    | some l =>
      simp only [hh, hl] at h
      split at h <;> cases h

/-! MATRIX_START. -/

section
variable {k : Nat} {s : State}

theorem execMatrixStart_idle
    (h : ((s.stall k).running.isSome = true ∧ (s.stall k).closing ≠ []) ∨ (s.stall k).halted = true ∨ pickCmd (s.stall k) = none) :
    execMatrixStart k s = .next s := by
  rw [execMatrixStart]
  split
  · rfl
  · rename_i hb
    rcases h with ⟨hr, hc⟩ | hh | hp
    · exact (hb (by simp [hr, hc])).elim
    · exact (hb (by simp [hh])).elim
    · rw [hp]

/-- The stall with command `x` started. -/
def startedStall (v : Stall) (x : Cmd) (n : Nat) : Stall :=
  { v with closing := v.closing ++ v.running.toList, running := some x, highStarts := n, low := v.low.filter (· != x),
           high := v.high.filter (· != x) }

theorem execMatrixStart_eq {x : Cmd} {n : Nat} (hr : (s.stall k).running = none ∨ (s.stall k).closing = [])
    (hh : (s.stall k).halted = false) (hp : pickCmd (s.stall k) = some (x, n)) : execMatrixStart k s =
      if (s.stall k).transfers.any (fun t => t.banks.any x.banks.contains) then .next s
      else .next (((s.setStall k (startedStall (s.stall k) x n)).cause (.matrixComplete k)).cause (.followOnHandoff (stallArcade k))) := by
  have hb : ((s.stall k).running.isSome && !(s.stall k).closing.isEmpty || (s.stall k).halted) = false := by
    rcases hr with hr | hr <;> simp [hr, hh]
  rw [execMatrixStart, hb, hp]
  rfl

end

end Sys2Proof.Machine
end

-- Factorisation and triangular solves
section
/-! The recurrences of the solvers (R176, R177): each element of the result, from the matrix as it was read and from elements that come
before it. -/

set_option Elab.async false

namespace Sys2Proof.Machine

/-! Matrices. -/

/-- A matrix of `n` columns and `n` rows. -/
def Mat.square (m : Mat) (n : Nat) : Prop := m.cols = n ∧ m.elems.size = n * n

theorem Mat.square_set {m : Mat} {n : Nat} (h : m.square n) (r c : Nat) (x : FVal) : (m.set r c x).square n :=
  ⟨h.1, by rw [Mat.set, Array.set!_eq_setIfInBounds, Array.size_setIfInBounds]; exact h.2⟩

theorem Mat.get_set {m : Mat} {n r c i j : Nat} (h : m.square n) (hr : r < n) (hc : c < n) (hj : j < n) (x : FVal) :
    (m.set i j x).get r c = if r = i ∧ c = j then x else m.get r c := by
  obtain ⟨hcols, hsize⟩ := h
  have hlt : r * n + c < n * n := by nlinarith
  have hinj : i * n + j = r * n + c ↔ r = i ∧ c = j := by
    refine ⟨fun e => ?_, fun ⟨hi, hj⟩ => by rw [hi, hj]⟩
    have hm := congrArg (· % n) e
    simp only [Nat.mul_add_mod', Nat.mod_eq_of_lt hj, Nat.mod_eq_of_lt hc] at hm
    subst hm
    exact ⟨(Nat.eq_of_mul_eq_mul_right (by omega) (Nat.add_right_cancel e)).symm, rfl⟩
  simp only [Mat.get, Mat.set, hcols, getD_set!, hsize, hlt, and_true, hinj]

/-! The factorisation (R176). -/

/-- The elements below the diagonal of one column, written in order. -/
theorem get_foldl_column {n j r c : Nat} (h : Nat → FVal) {m : Mat} (hm : m.square n) (hr : r < n) (hc : c < n) (hj : j < n) (k : Nat) :
    ((List.range k).foldl (fun (w : Mat) i => if i ≤ j then w else w.set i j (h i)) m).square n ∧
    ((List.range k).foldl (fun (w : Mat) i => if i ≤ j then w else w.set i j (h i)) m).get r c =
      if c = j ∧ j < r ∧ r < k then h r else m.get r c := by
  induction k with
  | zero => simpa using hm
  | succ k ih =>
    obtain ⟨hs, hg⟩ := ih
    rw [List.range_succ, List.foldl_append, List.foldl_cons, List.foldl_nil]
    by_cases hk : k ≤ j
    · rw [if_pos hk]
      refine ⟨hs, hg.trans ?_⟩
      grind
    · rw [if_neg hk]
      refine ⟨Mat.square_set hs _ _ _, ?_⟩
      rw [Mat.get_set hs hr hc hj, hg]
      grind

/-- A factored column: p on the diagonal, the recurrence below it, everything else as it was. -/
theorem choleskyCol_get {n j : Nat} {m w : Mat} (hm : m.square n) (hj : j < n) (h : choleskyCol n m j = some w) : w.square n ∧
    ∀ r c, r < n → c < n → w.get r c =
      if c = j ∧ j ≤ r then
        let p := sqrtRne (dotFrom (m.get j j) ((List.range j).map (fun k => (m.get j k, m.get j k))))
        if r = j then p else divRne (dotFrom (m.get r j) ((List.range j).map (fun k => (m.get r k, m.get j k)))) p
      else m.get r c := by
  rw [choleskyCol] at h
  split at h
  · cases h
  · obtain rfl := Option.some.inj h
    have hs := Mat.square_set hm j j (sqrtRne (dotFrom (m.get j j) ((List.range j).map (fun k => (m.get j k, m.get j k)))))
    refine ⟨(get_foldl_column _ hs hj hj hj n).1, fun r c hr hc => (get_foldl_column _ hs hr hc hj n).2.trans ?_⟩
    rw [Mat.get_set hm hr hc hj]
    grind

/-- Factoring the columns from `j` on keeps those before it. -/
theorem choleskyFrom_keeps {n f j k : Nat} {m w : Mat} (hm : m.square n) (hf : f + j = n) (h : choleskyFrom n f j m = (w, k)) {r c : Nat}
    (hr : r < n) (hc : c < j) : w.get r c = m.get r c := by
  induction f generalizing j m with
  | zero => cases h; rfl
  | succ f ih =>
    rw [choleskyFrom] at h
    cases hcol : choleskyCol n m j with
    | none => rw [hcol] at h; cases h; rfl
    | some v =>
      obtain ⟨hv, hg⟩ := choleskyCol_get hm (by omega) hcol
      rw [hcol] at h
      rw [ih hv (by omega) h (by omega), hg r c hr (by omega), if_neg (by omega)]

/-- The columns from `j` on that are factored follow the recurrence, on the elements that they had and on those of the columns before. -/
theorem choleskyFrom_get {n f j k : Nat} {m w : Mat} (hm : m.square n) (hf : f + j = n) (h : choleskyFrom n f j m = (w, k)) {r c : Nat}
    (hj : j ≤ c) (hk : c < k) (hc : c ≤ r) (hr : r < n) : w.get r c =
      if r = c then sqrtRne (dotFrom (m.get c c) ((List.range c).map (fun k => (w.get c k, w.get c k))))
      else divRne (dotFrom (m.get r c) ((List.range c).map (fun k => (w.get r k, w.get c k)))) (w.get c c) := by
  induction f generalizing j m with
  | zero => cases h; omega
  | succ f ih =>
    rw [choleskyFrom] at h
    cases hcol : choleskyCol n m j with
    | none => rw [hcol] at h; cases h; omega
    | some v =>
      obtain ⟨hv, hg⟩ := choleskyCol_get hm (by omega) hcol
      rw [hcol] at h
      rcases Nat.lt_or_eq_of_le hj with hjc | rfl
      · have hcol {i : Nat} (hi : i < n) : v.get i c = m.get i c := by rw [hg i c hi (by omega), if_neg (by omega)]
        rw [ih hv (by omega) h hjc, hcol hr, hcol (by omega)]
      · have hkeep {i q : Nat} (hi : i < n) (hq : q ≤ j) : w.get i q = v.get i q := choleskyFrom_keeps hv (by omega) h hi (by omega)
        have hrow {i : Nat} (hi : i < n) : ∀ q ∈ List.range j, w.get i q = m.get i q := fun q hq => by
          have := List.mem_range.mp hq
          rw [hkeep hi (by omega), hg i q hi (by omega), if_neg (by omega)]
        have hpair {i : Nat} (hi : i < n) :
            (List.range j).map (fun k => (w.get i k, w.get j k)) = (List.range j).map (fun k => (m.get i k, m.get j k)) :=
          List.map_congr_left fun q hq => by rw [hrow hi q hq, hrow (by omega) q hq]
        have hcol := (hg r j hr (by omega)).trans (if_pos ⟨rfl, hc⟩)
        have hdiag := ((hg j j (by omega) (by omega)).trans (if_pos ⟨rfl, Nat.le_refl _⟩)).trans (if_pos rfl)
        rw [hpair hr, hpair (by omega), hkeep hr (Nat.le_refl _), hkeep (by omega) (Nat.le_refl _), hcol, hdiag]

/-! Triangular solves (R177). -/

/-- A row is solved from its right-hand side and from the rows solved before it; each is written once. -/
theorem getD_triangle (t : Nat → Nat → FVal) (dep : Nat → List Nat) {order : List Nat} {b : Array FVal}
    (hnodup : order.Nodup) (hlater : order.Pairwise (fun i k => k ∉ dep i)) (hself : ∀ i ∈ order, i ∉ dep i)
    (hb : ∀ i ∈ order, i < b.size) :
    (∀ k, k ∉ order → (triangle t order dep b).getD k plusZero = b.getD k plusZero) ∧
    ∀ i ∈ order, (triangle t order dep b).getD i plusZero =
      divRne (dotFrom (b.getD i plusZero) ((dep i).map (fun k => (t i k, (triangle t order dep b).getD k plusZero)))) (t i i) := by
  induction order generalizing b with
  | nil => exact ⟨fun _ _ => rfl, nofun⟩
  | cons i order ih =>
    obtain ⟨hi, hnodup⟩ := List.nodup_cons.mp hnodup
    obtain ⟨hlate, hlater⟩ := List.pairwise_cons.mp hlater
    let v := divRne (dotFrom (b.getD i plusZero) ((dep i).map (fun k => (t i k, b.getD k plusZero)))) (t i i)
    have hset (k : Nat) : (b.set! i v).getD k plusZero = if i = k then v else b.getD k plusZero := by
      rw [getD_set!]
      have := hb i List.mem_cons_self
      grind
    obtain ⟨hkeep, hval⟩ := ih (b := b.set! i v) hnodup hlater (fun k hk => hself k (List.mem_cons_of_mem _ hk))
      (fun k hk => by
        rw [Array.set!_eq_setIfInBounds, Array.size_setIfInBounds]
        exact hb k (List.mem_cons_of_mem _ hk))
    rw [show triangle t (i :: order) dep b = triangle t order dep (b.set! i v) from rfl]
    have hrest {k : Nat} (hk : k ∉ i :: order) : (triangle t order dep (b.set! i v)).getD k plusZero = b.getD k plusZero := by
      rw [hkeep k fun h => hk (List.mem_cons_of_mem _ h), hset,
        if_neg (List.ne_of_not_mem_cons hk).symm]
    refine ⟨fun k hk => hrest hk, fun k hk => ?_⟩
    rcases List.mem_cons.mp hk with rfl | hk
    · rw [hkeep k hi, hset, if_pos rfl]
      have hdep : ∀ q ∈ dep k, q ∉ k :: order := fun q hq h => by
        rcases List.mem_cons.mp h with rfl | h
        · exact hself q List.mem_cons_self hq
        · exact hlate q h hq
      exact congrArg (fun l => divRne (dotFrom _ l) _) (List.map_congr_left fun q hq => by rw [hrest (hdep q hq)])
    · rw [hval k hk, hset, if_neg (ne_of_mem_of_not_mem hk hi).symm]

theorem getD_solveLower {n i : Nat} (t : Nat → Nat → FVal) {b : Array FVal} (hb : b.size = n) (hi : i < n) :
    (solveLower n t b).getD i plusZero = divRne (dotFrom (b.getD i plusZero)
      ((List.range i).map (fun k => (t i k, (solveLower n t b).getD k plusZero)))) (t i i) := by
  refine (getD_triangle t _ List.nodup_range ?_ (fun i _ h => Nat.lt_irrefl _ (List.mem_range.mp h))
    (fun i h => (List.mem_range.mp h).trans_eq hb.symm)).2 i (List.mem_range.mpr hi)
  exact List.pairwise_lt_range.imp fun hlt h => Nat.lt_asymm hlt (List.mem_range.mp h)

theorem getD_solveUpper {n i : Nat} (t : Nat → Nat → FVal) {b : Array FVal} (hb : b.size = n) (hi : i < n) :
    (solveUpper n t b).getD i plusZero = divRne (dotFrom (b.getD i plusZero)
      (((List.range n).filter (fun k => decide (i < k))).map (fun k => (t i k, (solveUpper n t b).getD k plusZero)))) (t i i) := by
  have hdep {i k : Nat} (h : k ∈ (List.range n).filter (fun k => decide (i < k))) : i < k := of_decide_eq_true (List.mem_filter.mp h).2
  refine (getD_triangle t _ (List.nodup_reverse.mpr List.nodup_range) ?_ (fun i _ h => Nat.lt_irrefl _ (hdep h))
    (fun i h => (List.mem_range.mp (List.mem_reverse.mp h)).trans_eq hb.symm)).2 i (List.mem_reverse.mpr (List.mem_range.mpr hi))
  exact List.pairwise_reverse.mpr (List.pairwise_lt_range.imp fun hlt h => Nat.lt_asymm hlt (hdep h))

end Sys2Proof.Machine
end

-- Matrix commands and bank transfers complete (O35)
section
/-! MATRIX_COMPLETE and BANK_TRANSFER_COMPLETE (R161, R164, R169, R201, R203): the cells that they write, and the flags that they raise in
the holder of the pair. -/

set_option Elab.async false

namespace Sys2Proof.Machine

/-! A block of cells. -/

section
variable {α : Type} (rows cols : Nat) (f : Nat → Nat → Flagged α) (keep : Nat → α)

/-- Cell `64 i + j` lies inside rows × cols. -/
def inBlock (rows cols i : Nat) : Bool := decide (i / 64 < rows) && decide (i % 64 < cols)

theorem getD_blockCells (d : Flagged α) {i : Nat} (hi : i < 4096) :
    (blockCells rows cols f keep).getD i d = if inBlock rows cols i then f (i / 64) (i % 64) else ⟨keep i, 0⟩ := by
  simp only [blockCells, Array.getD_eq_getD_getElem?, List.getElem?_toArray, List.getElem?_map, List.getElem?_range hi, Option.map_some,
    Option.getD_some]
  rfl

/-- The flags of a block are those of the cells inside it. -/
theorem arrayFlags_blockCells : arrayFlags (blockCells rows cols f keep) =
    ((List.range 4096).filter (inBlock rows cols)).foldl (fun h i => h ||| (f (i / 64) (i % 64)).flags) 0 := by
  rw [arrayFlags, blockCells, List.foldl_toArray', List.foldl_map, List.foldl_filter]
  · congr 1
    funext h i
    rw [inBlock]
    split
    · rfl
    · exact flags_or_zero h
  · rfl

end

theorem arrayFlags_map {α β : Type} (f : α → Flagged β) (l : Array α) (d : α) :
    arrayFlags (l.map f) = (List.range l.size).foldl (fun h i => h ||| (f (l.getD i d)).flags) 0 := by
  have hl : l.toList = (List.range l.size).map (fun i => l.getD i d) := by
    refine List.ext_getElem (by simp) fun i h _ => ?_
    have hi : i < l.size := by simpa using h
    simp [Array.getD_eq_getD_getElem?, hi]
  rw [arrayFlags, ← Array.foldl_toList, Array.toList_map, List.foldl_map, hl, List.foldl_map]

/-! A stall that changes and flags that are raised in the holder of a pair. -/

/-- Stall `k` has changed by `g`, and the flags `f` are raised in the holder, where there is one. -/
def landed (s : State) (k : Nat) (g : Stall → Stall) (holder : Option Nat) (f : FlagSet) : State :=
  match holder with
  | some h => (s.updStall k g).raise h f
  | none => s.updStall k g

section
variable (s : State) (k : Nat) (g : Stall → Stall) (holder : Option Nat) (f : FlagSet)

theorem landed_eq : landed s k g holder f =
    { s with stalls := (landed s k g holder f).stalls, ctxs := (landed s k g holder f).ctxs } := by cases holder <;> rfl

theorem landed_stalls : (landed s k g holder f).stalls = (s.updStall k g).stalls := by cases holder <;> rfl

theorem landed_stall (j : Nat) : (landed s k g holder f).stall j = if j = k then g (s.stall k) else s.stall j := by
  rw [State.stall, landed_stalls]
  exact State.stall_updStall s k j g

theorem landed_ctx (c : Nat) : (landed s k g holder f).ctx c =
    if holder = some c then { s.ctx c with flags := (s.ctx c).flags ||| f } else s.ctx c := by
  cases holder with
  | none => rfl
  | some h =>
    rw [landed, State.raise, State.ctx_updCtx, State.ctx_updStall, State.ctx_updStall]
    by_cases hc : c = h
    · subst hc
      rw [if_pos rfl, if_pos rfl]
    · rw [if_neg hc, if_neg fun e => hc (Option.some.inj e).symm]

theorem homeByte_landed (key y : Nat) : homeByte (landed s k g holder f) key y = homeByte s key y := by
  rw [landed_eq]
  rfl

/-- What stays as it was where only cells change. -/
theorem landed_cells (hg : ∀ w, g w = { w with acc := (g w).acc }) :
    landed s k g holder f = { s with stalls := (landed s k g holder f).stalls, ctxs := (landed s k g holder f).ctxs } ∧
    (∀ key y, homeByte (landed s k g holder f) key y = homeByte s key y) ∧
    (∀ j, j ≠ k → (landed s k g holder f).stall j = s.stall j) ∧
    (landed s k g holder f).stall k = { s.stall k with acc := ((landed s k g holder f).stall k).acc } := by
  refine ⟨landed_eq .., homeByte_landed s k g holder f, fun j hj => (landed_stall ..).trans (if_neg hj), ?_⟩
  rw [landed_stall, if_pos rfl]
  exact hg _

end

/-! MATRIX_COMPLETE. -/

theorem popCmd_pair {v w : Stall} {x : Cmd} (h : popCmd v = some (x, w)) (p : Nat) : w.pair p = v.pair p := by
  rw [popCmd] at h
  split at h
  · cases h; rfl
  · cases h; rfl
  · cases h

theorem execMatrixComplete_none {k : Nat} {s : State} (h : popCmd (s.stall k) = none) : execMatrixComplete k s = .next s := by
  rw [execMatrixComplete, h]

/-- The state in which the command's operands are read. -/
def readingState (s : State) (k : Nat) (v : Stall) : State := (s.setStall k v).cause (.matrixStart k)

/-- The operands of a command as read. -/
def operandA (x : Cmd) (l : List (Array Nat × Option Nat)) : Operand := operandOf (tileOf x.a) true (nthRead l 0) (nthRead l 1)
def operandB (x : Cmd) (l : List (Array Nat × Option Nat)) : Operand := operandOf (tileOf x.b) false (nthRead l 2) (nthRead l 3)

/-- What a command of the MMA family does with its operands. -/
inductive RunsOn (k : Nat) (x : Cmd) : (State → Operand → Operand → State × FlagSet) → Prop
  | mma {zero : Bool} (h : x.kind = .mma zero) : RunsOn k x (fun t a b => runMmaOn t k x zero a b)
  | mmam (h : x.kind = .mmam) : RunsOn k x (fun t a b => runMmamOn t k x a b)

section
variable {k : Nat} {s s1 : State} {x : Cmd} {v : Stall} {l : List (Array Nat × Option Nat)} (hpop : popCmd (s.stall k) = some (x, v))
  (hposted : readsPosted s x = false)
include hpop hposted

/-- A command of the MMA family reads its operands; where one is in error the holder dies, else its cells and flags are written. -/
theorem execMatrixComplete_pair (hreads : runReads (readingState s k v) x = (s1, l)) {run : State → Operand → Operand → State × FlagSet}
    (hrun : RunsOn k x run) : execMatrixComplete k s = .next (
      match readsBad l, (v.pair x.pair).holder with
      | some va, some h => asyncEcc s1 h va
      | some _, none => s1
      | none, some h => (run s1 (operandA x l) (operandB x l)).1.raise h (run s1 (operandA x l) (operandB x l)).2
      | none, none => (run s1 (operandA x l) (operandB x l)).1) := by
  have hr : runReads ((s.setStall k v).cause (.matrixStart k)) x = (s1, l) := hreads
  rw [execMatrixComplete, hpop, popCmd_pair hpop]
  cases hrun with
  | mma h =>
    simp only [hposted, h, hr]
    cases readsBad l <;> cases ((s.stall k).pair x.pair).holder <;> rfl
  | mmam h =>
    simp only [hposted, h, hr]
    cases readsBad l <;> cases ((s.stall k).pair x.pair).holder <;> rfl

/-- Without an error the stall changes by what the command writes. -/
theorem execMatrixComplete_landed (hreads : runReads (readingState s k v) x = (s1, l)) (hbad : readsBad l = none)
    {run : State → Operand → Operand → State × FlagSet} (hrun : RunsOn k x run) {g : Stall → Stall} {f : FlagSet}
    (h : run s1 (operandA x l) (operandB x l) = (s1.updStall k g, f)) :
    execMatrixComplete k s = .next (landed s1 k g (v.pair x.pair).holder f) := by
  rw [execMatrixComplete_pair hpop hposted hreads hrun, hbad, h]
  cases (v.pair x.pair).holder <;> rfl

theorem execMatrixComplete_poisoned (hreads : runReads (readingState s k v) x = (s1, l)) {va h : Nat} (hbad : readsBad l = some va)
    (hholder : (v.pair x.pair).holder = some h) {run : State → Operand → Operand → State × FlagSet} (hrun : RunsOn k x run) :
    execMatrixComplete k s = .next (asyncEcc s1 h va) := by
  rw [execMatrixComplete_pair hpop hposted hreads hrun, hbad, hholder]

theorem execMatrixComplete_solver {flags : FlagSet} {result : Option Nat} (hk : x.kind ∈ [CmdKind.chol, .trsl, .trsu, .rfn])
    (hrun : runSolver (readingState s k v) x = (s1, flags, result, none)) :
    execMatrixComplete k s = .next (finishSolver s1 x flags result) := by
  have hr : runSolver ((s.setStall k v).cause (.matrixStart k)) x = (s1, flags, result, none) := hrun
  rw [execMatrixComplete, hpop]
  simp only [List.mem_cons, List.not_mem_nil, or_false] at hk
  rcases hk with hk | hk | hk | hk <;> simp only [hposted, hk, hr] <;> rfl

end

/-! The cells of an MMA and of an MMAM. -/

section
variable (v : Stall) (x : Cmd) (zero : Bool) (a b : Operand)

/-- Cell `i` of an MMA (R164). -/
def mmaCell (i : Nat) : Flagged (BitVec 56) :=
  let start := if zero then 0 else (bankCells v x.pair x.bank).getD i 0
  if (v.pair x.pair).mode x.bank then cellInt a b (groupSize a.fmt b.fmt) start (i / 64) (i % 64)
  else cellFloat a b (groupSize a.fmt b.fmt) start (i / 64) (i % 64)

/-- The cells of its bank as an MMA leaves them. -/
def mmaCells : Array (Flagged (BitVec 56)) :=
  blockCells a.lines b.lines (fun i j =>
    let start := if zero then 0 else (bankCells v x.pair x.bank).getD (64 * i + j) 0
    if (v.pair x.pair).mode x.bank then cellInt a b (groupSize a.fmt b.fmt) start i j
    else cellFloat a b (groupSize a.fmt b.fmt) start i j) (fun i => (bankCells v x.pair x.bank).getD i 0)

/-- A stall gets these cells in the bank. -/
def mmaStall : Stall → Stall := fun w => setBank w x.pair x.bank fun i => ((mmaCells v x zero a b).getD i ⟨0, 0⟩).val

theorem runMmaOn_eq (s : State) (k : Nat) : runMmaOn s k x zero a b =
    (s.updStall k (mmaStall (s.stall k) x zero a b), arrayFlags (mmaCells (s.stall k) x zero a b)) := rfl

theorem getD_mmaCells {i : Nat} (hi : i < 4096) : (mmaCells v x zero a b).getD i ⟨0, 0⟩ =
    if inBlock a.lines b.lines i then mmaCell v x zero a b i else ⟨(bankCells v x.pair x.bank).getD i 0, 0⟩ := by
  rw [mmaCells, getD_blockCells _ _ _ _ _ hi, Nat.div_add_mod]
  rfl

theorem arrayFlags_mmaCells : arrayFlags (mmaCells v x zero a b) =
    ((List.range 4096).filter (inBlock a.lines b.lines)).foldl (fun h i => h ||| (mmaCell v x zero a b i).flags) 0 := by
  rw [mmaCells, arrayFlags_blockCells]
  simp only [Nat.div_add_mod]
  rfl

/-- Cells `i` of both banks of an MMAM (R201). -/
def mmamCell (i : Nat) : Flagged (BitVec 56 × BitVec 56) :=
  cellMoment a b ((bankCells v x.pair 0).getD i 0) ((bankCells v x.pair 1).getD i 0) (i / 64) (i % 64)

def mmamCells : Array (Flagged (BitVec 56 × BitVec 56)) :=
  blockCells a.lines b.lines
    (fun i j => cellMoment a b ((bankCells v x.pair 0).getD (64 * i + j) 0) ((bankCells v x.pair 1).getD (64 * i + j) 0) i j)
    (fun i => ((bankCells v x.pair 0).getD i 0, (bankCells v x.pair 1).getD i 0))

/-- A stall gets these cells in both banks. -/
def mmamStall : Stall → Stall := fun w =>
  setBank (setBank w x.pair 0 fun i => ((mmamCells v x a b).getD i ⟨(0, 0), 0⟩).val.1) x.pair 1
    fun i => ((mmamCells v x a b).getD i ⟨(0, 0), 0⟩).val.2

theorem mmamStall_eq (w : Stall) : mmamStall v x a b w =
    setBank (setBank w x.pair 0 fun i => ((mmamCells v x a b).getD i ⟨(0, 0), 0⟩).val.1) x.pair 1
      fun i => ((mmamCells v x a b).getD i ⟨(0, 0), 0⟩).val.2 := by
  rw [mmamStall]

theorem runMmamOn_eq (s : State) (k : Nat) : runMmamOn s k x a b =
    (s.updStall k (mmamStall (s.stall k) x a b), arrayFlags (mmamCells (s.stall k) x a b)) := by
  simp only [runMmamOn, funext (mmamStall_eq (s.stall k) x a b), mmamCells]

theorem getD_mmamCells {i : Nat} (hi : i < 4096) : (mmamCells v x a b).getD i ⟨(0, 0), 0⟩ =
    if inBlock a.lines b.lines i then mmamCell v x a b i
    else ⟨((bankCells v x.pair 0).getD i 0, (bankCells v x.pair 1).getD i 0), 0⟩ := by
  rw [mmamCells, getD_blockCells _ _ _ _ _ hi, Nat.div_add_mod]
  rfl

theorem arrayFlags_mmamCells : arrayFlags (mmamCells v x a b) =
    ((List.range 4096).filter (inBlock a.lines b.lines)).foldl (fun h i => h ||| (mmamCell v x a b i).flags) 0 := by
  rw [mmamCells, arrayFlags_blockCells]
  simp only [Nat.div_add_mod]
  rfl

end

/-! BANK_TRANSFER_COMPLETE. -/

section
variable {k : Nat} {s s1 : State} {x : Transfer} {r : List Transfer} {ws : Array Nat}

/-- The state in which the words of a transfer are read. -/
def transferringState (s : State) (k : Nat) (r : List Transfer) : State :=
  (s.updStall k (fun v => { v with transfers := r })).cause (.matrixStart k)

/-- The stall with the cells of an ALOAD, or of an MALDM, written. -/
def loadedStall (x : Transfer) (ws : Array Nat) (v : Stall) : Stall :=
  let moment (i : Nat) : FVal × FVal := ((ws.map loadedMoment).getD i ⟨(plusZero, plusZero), 0⟩).val
  if x.both then
    setBank (setBank v x.pair 0 (fun i => BitVec.ofNat 56 (fa56.encode (moment i).1))) x.pair 1
      (fun i => BitVec.ofNat 56 (fa56.encode (moment i).2))
  else setBank v x.pair x.bank (fun i => BitVec.ofNat 56 (ws.getD i 0))

theorem loadedStall_eq (x : Transfer) (ws : Array Nat) (v : Stall) : loadedStall x ws v = { v with acc := (loadedStall x ws v).acc } := by
  unfold loadedStall
  cases x.both <;> rfl

theorem execBankTransferComplete_eq (ht : (s.stall k).transfers = x :: r) (hp : (s.ctx x.ctx).posted = 0)
    (hw : transferWords (transferringState s k r) x = (s1, ws)) : execBankTransferComplete k s =
      .next (landed s1 k (loadedStall x ws) ((s1.stall k).pair x.pair).holder
        (if x.both then arrayFlags (ws.map loadedMoment) else 0)) := by
  have hland : landTransfer (transferringState s k r) k x =
      (s1.updStall k (loadedStall x ws), if x.both then arrayFlags (ws.map loadedMoment) else 0) := by
    rw [landTransfer, hw]
    unfold loadedStall
    cases x.both <;> rfl
  have hpair : (((s1.updStall k (loadedStall x ws)).stall k).pair x.pair).holder = ((s1.stall k).pair x.pair).holder := by
    rw [State.stall_updStall_same, loadedStall_eq]
    rfl
  have hl : landTransfer ((s.updStall k (fun v => { v with transfers := r })).cause (.matrixStart k)) k x = _ := hland
  rw [execBankTransferComplete, ht]
  simp only [hp, hl, hpair]
  rfl

end

end Sys2Proof.Machine
end

-- The matrix unit's events (O35)
section
/-! The statement about the matrix unit's events, from the parts above. -/

set_option Elab.async false

namespace Sys2Proof

open Machine

namespace Machine

/-- A command that waits and that nothing lets start is barred by one that waits or by an outstanding one of the other class. -/
theorem barred_of_not_frees {v : Stall} {y : Cmd} (h : ¬v.frees y) :
    (∃ o ∈ v.low ++ v.high, o.bars y) ∨ ∃ o ∈ v.running.toList ++ v.closing, o.high ≠ y.high ∧ o.bars y := by
  by_contra hn
  obtain ⟨hw, ho⟩ := not_or.mp hn
  exact h ⟨fun o hm hb => hw ⟨o, hm, hb⟩, fun o hm hc hb => ho ⟨o, hm, hc, hb⟩⟩

/-- MATRIX_START of a running stall with room and a choice. -/
theorem execMatrixStart_chosen {k : Nat} {s : State} {x : Cmd} {n : Nat} (hr : (s.stall k).running = none ∨ (s.stall k).closing = [])
    (hh : (s.stall k).halted = false) (hp : pickCmd (s.stall k) = some (x, n)) :
    ((s.stall k).transfers.any (fun t => t.banks.any x.banks.contains) = true → execMatrixStart k s = .next s) ∧
    ((s.stall k).transfers.any (fun t => t.banks.any x.banks.contains) = false →
      ∃ u, execMatrixStart k s = .next u ∧
        u = { s with stalls := u.stalls, due := s.due ++ [.matrixComplete k, .followOnHandoff (stallArcade k)] } ∧
        (∀ j, j ≠ k → u.stall j = s.stall j) ∧ u.stall k = startedStall (s.stall k) x n) := by
  rw [execMatrixStart_eq hr hh hp]
  refine ⟨fun ht => if_pos ht, fun ht => ⟨_, if_neg (Bool.eq_false_iff.mp ht), ?_, fun j hj => ?_, ?_⟩⟩
  · simp only [State.cause, State.setStall, List.append_assoc, List.cons_append, List.nil_append]
  · exact (State.stall_updStall s k j fun _ => _).trans (if_neg hj)
  · exact State.stall_updStall_same s k fun _ => _

section
variable {k : Nat} {s s1 : State} {x : Cmd} {v : Stall} {l : List (Array Nat × Option Nat)}

/-- The cells of the banks `bs` inside the block are written, the others kept, and the flags of the written cells raised. -/
def BlockLands (s1 u : State) (k : Nat) (x : Cmd) (holder : Option Nat) (a b : Operand) (f : Nat → FlagSet) (bs : List Nat)
    (cell : Nat → Nat → BitVec 56) : Prop :=
  u = { s1 with stalls := u.stalls, ctxs := u.ctxs } ∧
    (∀ key y, homeByte u key y = homeByte s1 key y) ∧ (∀ j, j ≠ k → u.stall j = s1.stall j) ∧
    u.stall k = { s1.stall k with acc := (u.stall k).acc } ∧
    keepsBanks (s1.stall k) (u.stall k) (bs.map (fun bank => (x.pair, bank))) ∧
    (∀ bank ∈ bs, ∀ i, i < 4096 → (bankCells (u.stall k) x.pair bank).getD i 0 =
      if inBlock a.lines b.lines i then cell bank i else (bankCells (s1.stall k) x.pair bank).getD i 0) ∧
    ∀ c, u.ctx c = if holder = some c then
      { s1.ctx c with flags := (s1.ctx c).flags |||
          ((List.range 4096).filter (inBlock a.lines b.lines)).foldl (fun h i => h ||| f i) 0 } else s1.ctx c

theorem landed_blockLands {g : Stall → Stall} {holder : Option Nat} {flags : FlagSet} {a b : Operand} {f : Nat → FlagSet} {bs : List Nat}
    {cell : Nat → Nat → BitVec 56} (hg : ∀ w, g w = { w with acc := (g w).acc })
    (hkeeps : keepsBanks (s1.stall k) (g (s1.stall k)) (bs.map (fun bank => (x.pair, bank))))
    (hcells : ∀ bank ∈ bs, ∀ i, i < 4096 → (bankCells (g (s1.stall k)) x.pair bank).getD i 0 =
      if inBlock a.lines b.lines i then cell bank i else (bankCells (s1.stall k) x.pair bank).getD i 0)
    (hflags : flags = ((List.range 4096).filter (inBlock a.lines b.lines)).foldl (fun h i => h ||| f i) 0) :
    BlockLands s1 (landed s1 k g holder flags) k x holder a b f bs cell := by
  obtain ⟨hrest, hmem, hothers, hstall⟩ := landed_cells s1 k g holder flags hg
  refine ⟨hrest, hmem, hothers, hstall, ?_, ?_, fun c => ?_⟩
  · rwa [landed_stall, if_pos rfl]
  · rwa [landed_stall, if_pos rfl]
  · rw [landed_ctx, hflags]

theorem mma_blockLands (zero : Bool) (hb : x.bank < 2) (holder : Option Nat) (a b : Operand) :
    BlockLands s1 (landed s1 k (mmaStall (s1.stall k) x zero a b) holder (arrayFlags (mmaCells (s1.stall k) x zero a b))) k x holder a b
      (fun i => (mmaCell (s1.stall k) x zero a b i).flags) [x.bank] (fun _ i => (mmaCell (s1.stall k) x zero a b i).val) := by
  refine landed_blockLands (fun _ => rfl) (keepsBanks_setBank _ _ _ hb) (fun bank hbank i hi => ?_) (arrayFlags_mmaCells ..)
  obtain rfl := List.mem_singleton.mp hbank
  rw [mmaStall, getD_bankCells_setBank _ _ _ _ hi, getD_mmaCells _ _ _ _ _ hi]
  split <;> rfl

theorem mmam_blockLands (holder : Option Nat) (a b : Operand) :
    BlockLands s1 (landed s1 k (mmamStall (s1.stall k) x a b) holder (arrayFlags (mmamCells (s1.stall k) x a b))) k x holder a b
      (fun i => (mmamCell (s1.stall k) x a b i).flags) [0, 1]
      (fun bank i => if bank = 0 then (mmamCell (s1.stall k) x a b i).val.1 else (mmamCell (s1.stall k) x a b i).val.2) := by
  refine landed_blockLands (fun _ => rfl) (keepsBanks_setBanks _ _ _ _) (fun bank hbank i hi => ?_) (arrayFlags_mmamCells ..)
  have hbank := List.mem_pair.mp hbank
  rw [mmamStall, getD_bankCells_setBanks _ _ _ _ (by omega) hi, getD_mmamCells _ _ _ _ hi]
  by_cases hin : inBlock a.lines b.lines i
  · simp only [hin, if_true]
  · rcases hbank with rfl | rfl <;> simp [hin]

end

section
variable {k : Nat} {s s1 : State} {x : Transfer} {r : List Transfer} {ws : Array Nat}

/-- The cells of an ALOAD. -/
theorem loadedStall_one (hb : x.both = false) (v : Stall) : loadedStall x ws v =
    setBank v x.pair x.bank fun i => BitVec.ofNat 56 (ws.getD i 0) := by
  rw [loadedStall, hb, if_neg Bool.false_ne_true]

/-- The cells of an MALDM. -/
theorem loadedStall_both (hb : x.both = true) (v : Stall) : loadedStall x ws v =
    setBank (setBank v x.pair 0 fun i => BitVec.ofNat 56
        (fa56.encode ((ws.map loadedMoment).getD i ⟨(plusZero, plusZero), 0⟩).val.1)) x.pair 1
      fun i => BitVec.ofNat 56 (fa56.encode ((ws.map loadedMoment).getD i ⟨(plusZero, plusZero), 0⟩).val.2) := by
  rw [loadedStall, hb, if_pos rfl]

theorem getD_map_loadedMoment {i : Nat} (hi : i < ws.size) (d : Flagged (FVal × FVal)) :
    (ws.map loadedMoment).getD i d = loadedMoment (ws.getD i 0) := by
  simp [Array.getD_eq_getD_getElem?, hi]

theorem loadedStall_one_cells (hb : x.both = false) (hbank : x.bank < 2) (v : Stall) :
    keepsBanks v (loadedStall x ws v) [(x.pair, x.bank)] ∧
      ∀ i, i < 4096 → (bankCells (loadedStall x ws v) x.pair x.bank).getD i 0 = BitVec.ofNat 56 (ws.getD i 0) := by
  rw [loadedStall_one hb]
  exact ⟨keepsBanks_setBank _ _ _ hbank, fun i hi => getD_bankCells_setBank _ _ _ _ hi⟩

theorem loadedStall_both_cells (hb : x.both = true) (v : Stall) :
    keepsBanks v (loadedStall x ws v) [(x.pair, 0), (x.pair, 1)] ∧ ∀ i, i < ws.size → i < 4096 →
      (bankCells (loadedStall x ws v) x.pair 0).getD i 0 = BitVec.ofNat 56 (fa56.encode (loadedMoment (ws.getD i 0)).val.1) ∧
      (bankCells (loadedStall x ws v) x.pair 1).getD i 0 = BitVec.ofNat 56 (fa56.encode (loadedMoment (ws.getD i 0)).val.2) := by
  rw [loadedStall_both hb]
  refine ⟨keepsBanks_setBanks _ _ _ _, fun i hi h => ⟨?_, ?_⟩⟩
  · rw [getD_bankCells_setBanks _ _ _ _ (by decide) h, if_pos rfl, getD_map_loadedMoment hi]
  · rw [getD_bankCells_setBanks _ _ _ _ (by decide) h, if_neg (by decide), getD_map_loadedMoment hi]

/-- The flags of an MALDM; an ALOAD raises none. -/
theorem loaded_ctx (holder : Option Nat) (g : Stall → Stall) (c : Nat) :
    (landed s1 k g holder (if x.both then arrayFlags (ws.map loadedMoment) else 0)).ctx c =
      if holder = some c ∧ x.both = true then
        { s1.ctx c with flags := (s1.ctx c).flags ||| (List.range ws.size).foldl (fun h i => h ||| (loadedMoment (ws.getD i 0)).flags) 0 }
      else s1.ctx c := by
  rw [landed_ctx]
  cases x.both with
  | true => simp only [if_true, and_true, arrayFlags_map loadedMoment ws 0]
  | false => simp only [Bool.false_eq_true, if_false, and_false, flags_or_zero, ite_self]

end

end Machine

/-- Settles O35: the choice of the command, MATRIX_START, the cells and flags of an MMA and of an MMAM by `BlockLands`, the recurrences of
the solvers, and the cells of a bank transfer. -/
theorem matrixUnitEvents : Obligations.matrix_unit_events := by
  unfold Obligations.matrix_unit_events
  refine ⟨fun v x n h => pickCmd_some h, fun v h y hy => barred_of_not_frees (pickCmd_none h hy), fun k s =>
    ⟨execMatrixStart_idle, fun x n hr hh hp => execMatrixStart_chosen hr hh hp⟩, fun k s h => execMatrixComplete_none h,
    fun k s x v hpop hposted => ⟨fun s1 l hreads => ⟨fun zero hkind hbank hbad => ?_, fun hkind hbad => ?_, fun va h hkind hbad hh => ?_⟩,
      fun s1 flags result hkind hrun => execMatrixComplete_solver hpop hposted hkind hrun⟩,
    fun n j m w hcols hsize h r c hj hc hr => choleskyFrom_get ⟨hcols, hsize⟩ (by omega) h (Nat.zero_le c) hj hc hr,
    fun n i t b hb hi => ⟨getD_solveLower t hb hi, getD_solveUpper t hb hi⟩, fun k s s1 x r ws ht hp hw => ?_⟩
  · exact ⟨_, execMatrixComplete_landed hpop hposted hreads hbad (.mma hkind) (runMmaOn_eq ..), mma_blockLands zero hbank _ _ _⟩
  · exact ⟨_, execMatrixComplete_landed hpop hposted hreads hbad (.mmam hkind) (runMmamOn_eq ..), mmam_blockLands _ _ _⟩
  · rcases hkind with hkind | ⟨zero, hkind⟩
    · exact execMatrixComplete_poisoned hpop hposted hreads hbad hh (.mmam hkind)
    · exact execMatrixComplete_poisoned hpop hposted hreads hbad hh (.mma hkind)
  · obtain ⟨hrest, hmem, hothers, hstall⟩ := landed_cells s1 k (loadedStall x ws) ((s1.stall k).pair x.pair).holder
      (if x.both then arrayFlags (ws.map loadedMoment) else 0) (loadedStall_eq x ws)
    refine ⟨_, execBankTransferComplete_eq ht hp hw, hrest, hmem, hothers, hstall, fun hb hbank => ?_, fun hb => ?_, loaded_ctx _ _⟩
    · rw [landed_stall, if_pos rfl]
      exact loadedStall_one_cells hb hbank _
    · rw [landed_stall, if_pos rfl]
      exact loadedStall_both_cells hb _

end Sys2Proof
end
